-- ==== Sys2Proof/Word.lean ====
section
/-! DEFINITION. The word types of the model: bit vectors for what the manual treats as bits, bounded
numbers for the instances it counts (00 "Names": ports 0-255, port groups 0-31, tiles 0-31 with the
spares 32 and 33, optical engines 0-15, HBM stacks 0-3). -/

namespace Sys2Proof

/-- One byte. -/
abbrev Byte := BitVec 8
/-- A 32-bit word. -/
abbrev W32 := BitVec 32
/-- A 64-bit word. -/
abbrev W64 := BitVec 64
/-- The 256 payload bytes of a flit, read as one little-endian integer: byte b is bits [8b + 7 : 8b]
(00 "Numbers and units": multi-byte fields are little-endian). -/
abbrev Payload := BitVec 2048
/-- A fabric port (R5: 256 duplex ports). -/
abbrev Port := Fin 256
/-- A port group (R134). -/
abbrev Group := Fin 32
/-- A logical tile (R25). -/
abbrev TileId := Fin 32
/-- An optical engine, and the laser module that feeds it (R12, R44). -/
abbrev Engine := Fin 16
/-- A laser fibre m = 4e + f (R42). -/
abbrev Fibre := Fin 64
/-- A wavelength index of R39. -/
abbrev Wave := Fin 5
/-- A lane number (R41). -/
abbrev Lane := Fin 4
/-- A virtual lane (R109). -/
abbrev Vl := Fin 8
/-- A memory-side die (R12). -/
abbrev Die := Fin 2
/-- A PCIe function (R475). -/
abbrev Fn := Fin 2
/-- A command or completion ring of a function (R479). -/
abbrev RingNo := Fin 64
/-- A partition (R221). -/
abbrev Part := Fin 16
/-- A collective context (R5: 4,096 ids). -/
abbrev CtxId := Fin 4096
/-- A barrier (R251). -/
abbrev BarId := Fin 256
/-- A die-to-die link (R13). -/
abbrev D2dNo := Fin 3
/-- A power domain (R518). -/
abbrev DomNo := Fin 87
/-- A maintenance queue slot (R608). -/
abbrev MaintSlot := Fin 16

end Sys2Proof
end

