-- ==== Sys2Proof/Flit.lean ====
section
/-! DEFINITION. Flits, link-control operations, training words and alignment markers as the link carries
them (03: R83-R99, R115, R120, R121). -/

namespace Sys2Proof

/-- A flit: the header fields of R93 and the 256-byte payload. -/
structure Flit where
  type : BitVec 4
  vl : BitVec 3
  exp : Bool
  lseq : BitVec 12
  lack : BitVec 12
  cred : BitVec 8
  cvl : BitVec 3
  part : BitVec 4
  fmt : BitVec 5
  ctx : BitVec 12
  dst : BitVec 16
  src : BitVec 16
  ofs : BitVec 32
  mseq : BitVec 16
  rank : BitVec 16
  tag : BitVec 16
  form : BitVec 2
  rsv5 : BitVec 14
  rsv6 : BitVec 32
  hcrc : BitVec 32
  payload : Payload
  deriving DecidableEq, Repr

/-- The idle flit of R95: FORM RAW, every other field and the payload zero (hop fields are written by the
transmitter). -/
def Flit.idle : Flit :=
  { type := 0, vl := 0, exp := false, lseq := 0, lack := 0, cred := 0, cvl := 0, part := 0, fmt := 0,
    ctx := 0, dst := 0, src := 0, ofs := 0, mseq := 0, rank := 0, tag := 0, form := 3, rsv5 := 0,
    rsv6 := 0, hcrc := 0, payload := 0 }

/-- The outcome of codeword B and of the flit's body (R112): not decoded yet, decoded, or uncorrectable. -/
inductive SlotB where
  | later | ok | bad
  deriving DecidableEq, Repr

/-- A PAM4 level (R85). -/
inductive Pam where
  | m3 | m1 | p1 | p3
  deriving DecidableEq, Repr

/-- A block: 650 coded bits of one lane, as 325 levels (R86). -/
abbrev Block := List Pam

/-- What the five wavelengths of a fibre direction carry, by wavelength index (R39). -/
abbrev Signal := List (List Pam)

/-- A decoded flit slot (R83, R101): the link-control bits, whether codeword A decoded, how codeword B
stands, the symbols corrected by wavelength index 0-4 (R131), and the flit the codewords hold. -/
structure RxSlot where
  lc : BitVec 16
  aOk : Bool
  b : SlotB
  corr : List Nat
  flit : Flit
  deriving DecidableEq, Repr

/-- An accepted marker block (R89): its count, logical lane (7: none), width code, wavelength and RSTR. -/
structure Marker where
  mcount : BitVec 16
  lane : BitVec 3
  width : BitVec 2
  wave : BitVec 3
  rstr : Bool
  deriving DecidableEq, Repr

/-- A training word (R120, R121). -/
structure TrainWord where
  ttype : BitVec 4
  body : BitVec 32
  wave : BitVec 3
  deriving DecidableEq, Repr

/-- What a laser module advertises (R44, R45): whether it is there, the wavelengths in nm of each output fibre, its laser
disable time in µs, and whether its bus runs at 1 MHz. -/
structure ElsAdv where
  present : Bool
  fibres : List (List Nat)
  disableUs : Nat
  fast : Bool
  deriving DecidableEq, Repr

/-- What a step of bring-up finds: at step 9 what each laser module advertises (R44, R45), at step 1 the PCIe ports whose
reference clock does not toggle (R645). -/
structure StepFound where
  els : List ElsAdv
  dead : List Fn
  deriving DecidableEq, Repr

/-- A direction of a die-to-die link (R17, R18). -/
structure D2dDir where
  link : D2dNo
  up : Bool
  deriving DecidableEq, Repr

/-- The fields a CMIS flag poll of one laser module yields (R45, R48). dark: bit f is set when the module
reports a fault that removes all light from output fibre f. -/
structure ElsFlags where
  present : Bool
  busOk : Bool
  fault : Bool
  dark : BitVec 4
  deriving DecidableEq, Repr

end Sys2Proof
end

