-- ==== Sys2Proof/Syntax.lean ====
section
/-! DEFINITION. The commands the block takes: one constructor per row of spec/opcode_table.json, with what
the outside gives the row (an index, a value, what was received). What the block already holds (a flit in
a queue, a descriptor it has read) is no operand: the row takes it from the state. -/

namespace Sys2Proof

/-- Where a flit enters the core (R143, R163, R179): a port, a tile, a memory-side die, or the host path. -/
inductive Source where
  | port (p : Port)
  | tile (i : TileId)
  | mem (d : Die)
  | host
  deriving DecidableEq, Repr

/-- A client of an egress group's scheduler (R141): a port, the group's tile, or its local sink. -/
inductive Client where
  | port (p : Port)
  | tile (i : TileId)
  | sink (g : Group)
  deriving DecidableEq, Repr

/-- A mismatch that a residue or shadow check finds in a SUM command (R599, R600, R602): the operation it lies
in, the lane, the XOR of the operand words, and the temperature and rail sampled at it. -/
structure SelfCheck where
  shadow : Bool
  item : Nat
  lane : Nat
  pattern : BitVec 32
  temp : BitVec 16
  rail : BitVec 16
  deriving DecidableEq, Repr

/-- What a command's memory reads find (R327, R457-R459): the HBM granule of each newly uncorrectable unit, that
of each corrected unit, units of tile memory (by byte address) that are uncorrectable, the units of tile memory
corrected; and what the checks of a SUM command find. -/
structure ReadErr where
  hbmBad : List Nat
  hbmCorr : List Nat
  tileBad : List Nat
  tileCorr : Nat
  sc : Option SelfCheck
  deriving DecidableEq, Repr

/-- Reads that find no error. -/
def ReadErr.none_ : ReadErr := { hbmBad := [], hbmCorr := [], tileBad := [], tileCorr := 0, sc := none }

/-- What the fetch of a program word finds (R307). -/
inductive Fetch where
  | ok | corrected | bad
  deriving DecidableEq, Repr

/-- A command descriptor read from host memory: the ring and index it stands at, and its 64 bytes (R480). -/
structure DescRead where
  ring : RingNo
  idx : BitVec 32
  bytes : BitVec 512
  deriving DecidableEq, Repr

/-- A canary whose result differs from the stored answer (R601): the logical tile, the engine (SUM, or SIFT), and the
temperature and rail sampled at it (R602). -/
structure CanaryFail where
  tile : TileId
  sift : Bool
  temp : BitVec 16
  rail : BitVec 16
  deriving DecidableEq, Repr


/-- The commands, one constructor per row of the command table. -/
inductive Instr where
  /-- REGISTER_WRITE (R622). A BAR0 write to a register that has no row of its own is checked in the order of R622 and applied under the field map. -/
  | registerWrite (fn : Fn) (off : Nat) (size : Nat) (v : BitVec 64)
  /-- REGISTER_RC_READ (R7). A read of an RC register returns the held value and clears it, unless R10 or R625 applies. -/
  | registerRcRead (fn : Fn) (off : Nat) (size : Nat)
  /-- REGISTER_LOW_HALF_READ (R621). A 4-byte read of the low half of a 64-bit register snapshots all 64 bits for the function's next access. -/
  | registerLowHalfRead (fn : Fn) (off : Nat)
  /-- D2D_TRANSFER_RECEIVE (R17). A die-to-die link transfer arrives; a CRC failure makes the sender replay it. -/
  | d2dTransferReceive (n : D2dDir) (crcOk : Bool)
  /-- D2D_ACK_TIMEOUT (R17). No acknowledgement arrives within 64 cc, and the sender replays the transfer. -/
  | d2dAckTimeout (n : D2dDir)
  /-- D2D_LINK_FAIL (R18). After 16 consecutive replays or 1 ms out of lock, the link enters the failed state. -/
  | d2dLinkFail (n : D2dNo) (unlocked : Bool)
  /-- PHOTODIODE_SAMPLE (R43). Every 10 µs the engine samples each monitor photodiode and marks a wavelength failed after 50 µs below power. -/
  | photodiodeSample (e : Engine) (low : BitVec 20)
  /-- ELS_POLL (R48). Every 20 ms the device polls each laser module's CMIS flags and reacts to faults and cleared faults. -/
  | elsPoll (k : Engine) (r : ElsFlags)
  /-- ELS_INTERRUPT (R48). A module asserts its interrupt line, and the device polls its CMIS flags at once. -/
  | elsInterrupt (k : Engine) (r : ElsFlags)
  /-- WAVELENGTH_FAIL (R52). A carried wavelength fails by photodiode, 1 µs loss of lock or excess pre-FEC errors, and is steered or restriped. rx false: a transmit wavelength that its photodiode has marked; rx true: a receive wavelength that has lost clock lock, or with errs: that has had so many bit errors in the window. -/
  | wavelengthFail (p : Port) (rx : Bool) (i : Wave) (errs : Option Nat)
  /-- STEER_ANN_TIMEOUT (R54). An unacknowledged steer announcement is repeated after 20 µs, and after three repeats the port restripes. -/
  | steerAnnTimeout (p : Port)
  /-- LOS (R65). Received power stays below −14 dBm for 100 µs, and the port goes to PEER_CUT or DARK with a laser cut. -/
  | los (p : Port)
  /-- LASER_CUT_COMPLETE (R67). The CMIS disable write completes and the cut bit of the laser fibre is set. -/
  | laserCutComplete (m : Fibre)
  /-- CUT_NOTICE_SEND_END (R69). A sibling stops sending the cut notice after 200 µs. -/
  | cutNoticeSendEnd (p : Port)
  /-- PROBE_WINDOW_START (R71). Every 4 s after a cut, the device restores the laser fibre for a 20 ms probe window. -/
  | probeWindowStart (m : Fibre)
  /-- PROBE_WINDOW_END (R71). At the end of the probe window, the fibre stays on with its ports training, or is cut again. -/
  | probeWindowEnd (m : Fibre)
  /-- LIGHT_DETECTED (R72). A DARK or PEER_CUT port receives 1 ms of light and enters TRAINING, restoring a cut fibre. -/
  | lightDetected (p : Port)
  /-- DOWN_RETRY_TIMER (R74). A DOWN port with light retries training after 1 s. -/
  | downRetryTimer (p : Port)
  /-- PORT_ENABLE_WRITE (R76). A write to PORT_MODE.EN takes effect at once, moving the port to or from DISABLED. -/
  | portEnableWrite (fn : Fn) (p : Port) (v : BitVec 32)
  /-- PORT_RETRAIN (R78). A write of RETRAIN to PORT_CTRL starts a full training where R74 allows. -/
  | portRetrain (fn : Fn) (p : Port) (v : BitVec 32)
  /-- TRAINING_STEP_COMPLETE (R62). A step of a port's full training finishes and the next one starts. -/
  | trainingStepComplete (p : Port) (errs : List (BitVec 32))
  /-- TRAINING_ADAPT_TIMEOUT (R62). Clock recovery and equalisation do not finish within 20 ms, and the port goes DOWN with 0xE9. -/
  | trainingAdaptTimeout (p : Port)
  /-- TRAINING_WORD_CAP (R122). A CAP training word is accepted and the peer's widths, spare and measurement length are taken. -/
  | trainingWordCap (p : Port) (blk : Block)
  /-- TRAINING_WORD_RESULT (R122). A RESULT training word gives the peer's error count for one transmit wavelength. via: the wavelength that brings it; all five bring the same words (R120). -/
  | trainingWordResult (p : Port) (via : Wave) (blk : Block)
  /-- TRAINING_WORD_MAP (R121). A MAP training word gives the peer's transmit lane map and width. -/
  | trainingWordMap (p : Port) (blk : Block)
  /-- TRAINING_WORD_ABORT (R122). An ABORT training word makes the port go DOWN with the peer's reason. -/
  | trainingWordAbort (p : Port) (blk : Block)
  /-- RX_SLOT (R101). A flit slot is received, decoded, checked for CRC, stomp and sequence, and its flit delivered or discarded. -/
  | rxSlot (p : Port) (sig : Signal)
  /-- TX_SLOT (R100). At each transmit boundary the port sends a flit or idle flit with the next LSEQ, LACK and returned credits. -/
  | txSlot (p : Port)
  /-- ALIGNMENT_MARKER_RECEIVE (R90). A marker block is accepted or missed on a lane, declaring or losing alignment. m: how many blocks after the last one, and the block. -/
  | alignmentMarkerReceive (p : Port) (lane : Lane) (m : Nat × Block)
  /-- NAK_RESEND_TIMEOUT (R102). A NAK outstanding for 2,048 slots is sent again. -/
  | nakResendTimeout (p : Port)
  /-- NAK_RX (R104). A NAK is received and the transmitter replays from the named sequence. -/
  | nakRx (p : Port) (seq : BitVec 12)
  /-- REPLAY_WINDOW_FULL (R105). With 2,048 flits unacknowledged, the transmitter replays from the oldest. -/
  | replayWindowFull (p : Port)
  /-- REPLAY_NO_PROGRESS_LIMIT (R107). The sixteenth replay without progress acts as RETRAIN and posts reason 0xEF. -/
  | replayNoProgressLimit (p : Port)
  /-- STEER_REQ_RX (R115). A STEER_REQ from the receiver makes the transmitting end announce a lane move. -/
  | steerReqRx (p : Port) (lane : Lane) (wave : Wave)
  /-- STEER_ANN_RX (R117). A STEER_ANN is received and acknowledged with its countdown to the switch boundary. spare: it came in spare idle blocks; it counts as one in LC does (R116). -/
  | steerAnnRx (p : Port) (spare : Bool) (lane : Lane) (wave : Wave) (count : Nat)
  /-- STEER_ACK_RX (R115). A STEER_ACK confirms the announced steer. -/
  | steerAckRx (p : Port) (lane : Lane) (wave : Wave)
  /-- STEER_SWITCH (R117). The countdown reaches the boundary and both ends switch the lane to the new wavelength. -/
  | steerSwitch (p : Port) (rx : Bool)
  /-- RESTRIPE_RX (R118). A RESTRIPE operation makes the end enter RESTRIPE. -/
  | restripeRx (p : Port)
  /-- RESTRIPE_MARKER_RX (R118). A restripe marker is accepted, lowering the proposed width or counting toward completion. -/
  | restripeMarkerRx (p : Port) (wave : Wave) (blk : Block)
  /-- RESTRIPE_COMPLETE (R118). After 16 matching markers the end sends 16 more and resumes flits by replay; the port enters DEGRADED. -/
  | restripeComplete (p : Port)
  /-- RESTRIPE_TIMEOUT (R119). A restripe not complete within 200 µs acts as RETRAIN with reason 0xEF. -/
  | restripeTimeout (p : Port)
  /-- CUT_NOTICE_RX (R69). A cut notice is received, so a following LOS within 5 ms leads to PEER_CUT. -/
  | cutNoticeRx (p : Port)
  /-- RETRAIN_RX (R115). A RETRAIN operation from the peer starts a full training. -/
  | retrainRx (p : Port)
  /-- DOZE_REQ_RX (R125). A DOZE_REQ is answered with DOZE_ACK and the link enters DOZE. -/
  | dozeReqRx (p : Port)
  /-- DOZE_ACK_RX (R125). A DOZE_ACK completes the exchange and the transmitter enters DOZE. -/
  | dozeAckRx (p : Port)
  /-- DOZE_REQ_TIMEOUT (R115). A DOZE_REQ unacknowledged for 1 µs stops; after three tries an A3 entry aborts. -/
  | dozeReqTimeout (p : Port)
  /-- LC_RESERVED_RX (R115). A slot with a reserved LC operation is counted and ignored. -/
  | lcReservedRx (p : Port)
  /-- INIT_TIMEOUT (R124). A link that stays in INIT for 1 ms acts as RETRAIN with reason 0xEF. -/
  | initTimeout (p : Port)
  /-- WAKE_PATTERN_DETECT (R526). The wake pattern is detected on a dozing port, which wakes its engine and relocks. -/
  | wakePatternDetect (p : Port)
  /-- DOZE_RELOCK_TIMEOUT (R124). Relock after doze is not reached within 5 µs, and the port acts as RETRAIN. -/
  | dozeRelockTimeout (p : Port)
  /-- EXPRESS_B_DECODE (R112). Codeword B and HCRC of a cut-through express flit settle it, stomping at egress and NAKing if bad. sig: the rest of the slot on the lanes; idle: what the wavelengths without a lane carry. -/
  | expressBDecode (p : Port) (sig idle : Signal)
  /-- INGRESS_BIND (R163). A delivered flit is checked for partition, looked up in the tables, metered and queued or discarded. -/
  | ingressBind (src : Source)
  /-- SLOT_COUNTER_TICK (R160). Each cc the slot counter advances, holds or skips to follow fabric time, updating lock. -/
  | slotCounterTick
  /-- STAGE_ONE_CROSSING (R137). A cell crosses stage one to its intermediate group when its slot comes, by hash or dynamic choice. -/
  | stageOneCrossing (g : Group)
  /-- STAGE_TWO_CROSSING (R137). A cell crosses stage two to its egress group when its slot comes. -/
  | stageTwoCrossing (g : Group)
  /-- S2_CROSSING (R156). An S2 express flit crosses in its slot and takes the first free transmit boundary. -/
  | s2Crossing (g : Group) (p : Port)
  /-- SCHEDULER_VISIT (R141). The egress scheduler visits a client and selects up to two flits by strict order and deficit rotation. -/
  | schedulerVisit (c : Client)
  /-- RESEQ_ARRIVE (R151). A dynamic-mode cell reaches the egress resequencer and is held, released or discarded late. -/
  | reseqArrive (g : Group)
  /-- RESEQ_HOLE (R151). A hole notice for a discarded cell lets the resequencer skip its MSEQ. -/
  | reseqHole (g : Group)
  /-- RESEQ_TIMEOUT (R151). Held cells wait TIMEOUT cc and the resequencer skips to the lowest held MSEQ. -/
  | reseqTimeout (g : Group)
  /-- TABLE_UPDATE_COMMIT (R174). A checked table update commits in one cc in every ingress group and places drain markers. -/
  | tableUpdateCommit
  /-- TABLE_UPDATE_DRAIN_COMPLETE (R175). Every drain marker has passed every queue and the update's completion is posted. -/
  | tableUpdateDrainComplete
  /-- TABLE_UPDATE_DRAIN_TIMEOUT (R177). An update not drained within DRAIN_TO completes with reason 0xF6 and stays committed. -/
  | tableUpdateDrainTimeout
  /-- CREDIT_ARBITRATION (R190). Each cc due credits and waiting internal sources are served up to four, by rank and age. -/
  | creditArbitration
  /-- SHAPER_TICK (R198). Each cc every shaper and meter bucket gains RATE tokens up to its burst. -/
  | shaperTick
  /-- TELEMETRY_SAMPLE (R202). At each fabric cycle multiple of 2^K, queue state of masked ports is sampled into telemetry records. -/
  | telemetrySample
  /-- MIRROR_CAPTURE (R208). A filter match at a capture point produces a Mirror record into the queue. -/
  | mirrorCapture
  /-- MIRROR_RECORD_WRITE (R209). Mirror writes one queued record per cc to its ring, or drops it when the ring is full. -/
  | mirrorRecordWrite
  /-- PORT_QUEUES_HELD (R212). A port goes down and its queues enter HELD with a hold timer, or FLUSHING at HOLD 0. -/
  | portQueuesHeld (p : Port)
  /-- HOLD_TIMER_EXPIRY (R212). The hold timer of a HELD port ends and its queues enter FLUSHING. -/
  | holdTimerExpiry (p : Port)
  /-- QOS_PDN_FLUSH (R216). A write of FLUSH ends a port's hold and its queues enter FLUSHING. -/
  | qosPdnFlush (fn : Fn) (p : Port) (v : BitVec 32)
  /-- FLUSH_COMPLETE (R212). Every cell of the port is freed and its queues return to ACTIVE or HELD. -/
  | flushComplete (p : Port)
  /-- CTX_SETUP (R227). The descriptor sets up a context from its tree descriptor or is refused with 0xC6 or 0xC8. -/
  | ctxSetup (fn : Fn) (r : RingNo)
  /-- CTX_FREE (R228). The descriptor frees an ARMED or FAULTED context, or completes CONTEXT_BUSY or refused. -/
  | ctxFree (fn : Fn) (r : RingNo)
  /-- CTX_ABORT (R228). The descriptor faults an ARMED or OPEN context with reason 0xC9. -/
  | ctxAbort (fn : Fn) (r : RingNo)
  /-- CONTRIBUTION_ARRIVE (R231). A contribution bound to a tile is checked in order and is taken, waits, or faults the context. -/
  | contributionArrive (i : TileId)
  /-- CONTRIBUTION_RETRY (R231). A waiting contribution is reconsidered when its context becomes resident, returns to ARMED or base advances. -/
  | contributionRetry
  /-- CTX_TMO_EXPIRY (R228). An OPEN context takes no flit for TMO µs and faults with reason 0xC0. -/
  | ctxTmoExpiry (c : CtxId)
  /-- MEM_READ (R241). A READ memory request is checked and answered with the granule's 256 bytes. -/
  | memRead (k : Die) (e : ReadErr)
  /-- MEM_WRITE (R241). A WRITE memory request is checked and writes the granule. -/
  | memWrite (k : Die) (e : ReadErr)
  /-- MEM_ATOMIC_ADD (R384). An ATOMIC_ADD request adds its operands to the granule and returns the old contents. -/
  | memAtomicAdd (k : Die) (e : ReadErr)
  /-- MEM_REDUCE (R384). A REDUCE request adds expanded operands into stored compensated pairs over its span. -/
  | memReduce (k : Die) (e : ReadErr)
  /-- MEM_MCAST_READ (R241). An MCAST_READ request reads the granule once and sends it to endpoint G. -/
  | memMcastRead (k : Die) (e : ReadErr)
  /-- MEM_RESERVED_OP (R452). A memory request with a reserved OP gets an error response with reason 0xCE. -/
  | memReservedOp (k : Die) (e : ReadErr)
  /-- FABRIC_TIME_TICK (R244). Fabric time advances by the core clock as slewed under R248. -/
  | fabricTimeTick
  /-- TIME_EXCHANGE_TIMER (R247). Every PERIOD × 100 µs each ACTIVE link end sends SYNC and ANNOUNCE. -/
  | timeExchangeTimer
  /-- SYNC_RX (R247). A received SYNC is answered with SYNC_REPLY within 100 µs. -/
  | syncRx
  /-- SYNC_REPLY_RX (R247). A SYNC_REPLY gives fibre delay, offset and D_p, sets CORE_PEER, and steps or slews time. -/
  | syncReplyRx
  /-- ANNOUNCE_RX (R248). An ANNOUNCE updates the best master, upstream port and hop count. -/
  | announceRx
  /-- BARRIER_ARRIVE_RX (R252). An ARRIVE flit from a child advances a barrier toward GATHER, WAIT or RELEASING, or fails it. -/
  | barrierArriveRx
  /-- BARRIER_RELEASE_RX (R252). A RELEASE on PARENT moves a waiting barrier to RELEASING and is forwarded to children. -/
  | barrierReleaseRx
  /-- CORE_BAR_ARRIVE (R252). A write to CORE_BAR_ARRIVE makes the local child arrive at a barrier. -/
  | coreBarArrive (fn : Fn) (v : BitVec 32)
  /-- BARRIER_RELEASE_TIME (R253). Fabric time reaches Tr, local waiters are released and the epoch advances. -/
  | barrierReleaseTime (b : BarId)
  /-- BARRIER_TIMEOUT (R252). A barrier in GATHER or WAIT reaches its timeout and enters FAILED with 0xCB. -/
  | barrierTimeout (b : BarId)
  /-- BARRIER_ARM (R251). A write of VALID = 1 to CORE_BAR sets the barrier IDLE at epoch 0. -/
  | barrierArm (fn : Fn) (b : BarId) (v : BitVec 32)
  /-- SPILL_COMPLETE (R260). The memory-side die acknowledges the spill and the slot is freed. -/
  | spillComplete (c : CtxId)
  /-- RESTORE_COMPLETE (R260). A context's state is restored bit for bit into a slot and its waiting work resumes. -/
  | restoreComplete (c : CtxId) (e : ReadErr)
  /-- SEQ_RUN_START (R294). The sequencer starts a selected context's instance in its initial state, first word 4 cc later. -/
  | seqRunStart (i : TileId)
  /-- SEQ_RUN_RESUME (R295). A context left at YIELD resumes from its captured state 16 cc after selection or restore. -/
  | seqRunResume (i : TileId)
  /-- FLOW_NEXT (R272). A word with FLOW NEXT continues at the next address. -/
  | flowNext (i : TileId) (f : Fetch)
  /-- FLOW_JUMP (R272). A JUMP continues at TARGET after two delay slots. -/
  | flowJump (i : TileId) (f : Fetch)
  /-- FLOW_BRT (R272). A BRT jumps when C[CSEL] is 1, with two delay slots. -/
  | flowBrt (i : TileId) (f : Fetch)
  /-- FLOW_BRF (R272). A BRF jumps when C[CSEL] is 0, with two delay slots. -/
  | flowBrf (i : TileId) (f : Fetch)
  /-- FLOW_WAIT (R279). A WAIT stalls the sequencer until its WSEL condition holds. -/
  | flowWait (i : TileId) (f : Fetch)
  /-- WAIT_CONDITION_MET (R283). A stalled WAIT finds its condition true and the word's other slots act once. -/
  | waitConditionMet (i : TileId)
  /-- WAIT_WATCHDOG (R283). A WAIT stalled for WDOG × 1,024 cc halts the program with 0x0A. -/
  | waitWatchdog (i : TileId)
  /-- FLOW_YIELD (R295). A YIELD captures the run's state and lets another OPEN context run. -/
  | flowYield (i : TileId) (f : Fetch)
  /-- FLOW_END (R297). An END closes the instance once every pushed command has completed. -/
  | flowEnd (i : TileId) (f : Fetch)
  /-- END_COMMANDS_COMPLETE (R297). The last command of an ended run completes; the context returns to ARMED or faults with 0x0E. -/
  | endCommandsComplete (i : TileId)
  /-- FLOW_HALT (R272). A HALT word halts the program with reason 0x1F. -/
  | flowHalt (i : TileId) (f : Fetch)
  /-- FLOW_RESERVED (R277). A reserved FLOW halts the program with reason 0x01. -/
  | flowReserved (i : TileId) (f : Fetch)
  /-- KOP_LDI (R273). LDI loads sign-extended IMM into a counter. -/
  | kopLdi (i : TileId) (f : Fetch)
  /-- KOP_ADDI (R273). ADDI adds sign-extended IMM to a counter. -/
  | kopAddi (i : TileId) (f : Fetch)
  /-- KOP_ADD (R273). ADD adds counter KSRC to counter KDST. -/
  | kopAdd (i : TileId) (f : Fetch)
  /-- KOP_SUB (R273). SUB subtracts counter KSRC from counter KDST. -/
  | kopSub (i : TileId) (f : Fetch)
  /-- KOP_MOV (R273). MOV copies counter KSRC into counter KDST. -/
  | kopMov (i : TileId) (f : Fetch)
  /-- KOP_LDH (R273). LDH loads IMM into the high half of a counter. -/
  | kopLdh (i : TileId) (f : Fetch)
  /-- KOP_RESERVED (R273). The reserved KOP halts the program with reason 0x02. -/
  | kopReserved (i : TileId) (f : Fetch)
  /-- COP_EQ (R274). EQ writes K[CA] = y into a comparator result. -/
  | copEq (i : TileId) (f : Fetch)
  /-- COP_NE (R274). NE writes K[CA] ≠ y into a comparator result. -/
  | copNe (i : TileId) (f : Fetch)
  /-- COP_LTU (R274). LTU writes the unsigned K[CA] < y into a comparator result. -/
  | copLtu (i : TileId) (f : Fetch)
  /-- COP_GEU (R274). GEU writes the unsigned K[CA] ≥ y into a comparator result. -/
  | copGeu (i : TileId) (f : Fetch)
  /-- COP_LTS (R274). LTS writes the signed K[CA] < y into a comparator result. -/
  | copLts (i : TileId) (f : Fetch)
  /-- COP_GES (R274). GES writes the signed K[CA] ≥ y into a comparator result. -/
  | copGes (i : TileId) (f : Fetch)
  /-- COP_DONE (R274). DONE writes a generator's WRAP flag into a comparator result. -/
  | copDone (i : TileId) (f : Fetch)
  /-- AGOP_STEP (R286). STEP advances an address generator's indices. -/
  | agopStep (i : TileId) (f : Fetch)
  /-- AGOP_RESTART (R286). RESTART clears a generator's indices and WRAP. -/
  | agopRestart (i : TileId) (f : Fetch)
  /-- AGOP_LOAD (R286). LOAD copies a parameter set into a generator and restarts it. -/
  | agopLoad (i : TileId) (f : Fetch)
  /-- AGOP_RESERVED (R275). The reserved AGOP halts the program with reason 0x02. -/
  | agopReserved (i : TileId) (f : Fetch)
  /-- PUSH_SUM (R288). A push builds a SUM command from a template and reserves a queue entry. -/
  | pushSum (i : TileId) (f : Fetch)
  /-- PUSH_MOVE (R288). A push builds a MOVE command from a template and reserves a queue entry. -/
  | pushMove (i : TileId) (f : Fetch)
  /-- PUSH_SORT (R288). A push builds a SORT command from a template and reserves a queue entry. -/
  | pushSort (i : TileId) (f : Fetch)
  /-- PUSH_SIFT (R288). A push builds a SIFT command from a template and reserves a queue entry. -/
  | pushSift (i : TileId) (f : Fetch)
  /-- PUSH_RESERVED (R277). A reserved PUSH value halts the program with reason 0x02. -/
  | pushReserved (i : TileId) (f : Fetch)
  /-- BARR (R293). BARR arrives at a barrier as its local child and records the epoch. -/
  | barr (i : TileId) (f : Fetch)
  /-- OFSNEXT (R292). OFSNEXT releases the current contribution group and advances base. -/
  | ofsnext (i : TileId) (f : Fetch)
  /-- BUILTIN_PUSH (R289). The built-in collective logic pushes an engine command, waiting for a free entry. -/
  | builtinPush (i : TileId) (e : Fin 4) (cmd : BitVec 256)
  /-- PROG_LOAD (R304). The descriptor checks a Swipeco image for a logical tile and waits for a switch point. -/
  | progLoad (fn : Fn) (r : RingNo)
  /-- PROG_LOAD_WRITE (R305). At a switch point the tile writes every image section and completes the load. -/
  | progLoadWrite (i : TileId)
  /-- PROG_LOAD_TIMEOUT (R305). A load finding no switch point within 10 ms completes with 0x10 and writes nothing. -/
  | progLoadTimeout (i : TileId)
  /-- ENGINE_COMMAND_COMPLETE (R320). An engine command's writes are visible and its flits hold cells, and the next queued command may start. -/
  | engineCommandComplete (i : TileId) (e : Fin 4)
  /-- SUM_FOLD (R331). FOLD combines NSRC flit payloads in ascending order into accumulator elements. -/
  | sumFold (i : TileId) (e : ReadErr)
  /-- SUM_FOLDP (R331). FOLDP combines an accumulator array into another. -/
  | sumFoldp (i : TileId) (e : ReadErr)
  /-- SUM_CONV (R332). CONV converts accumulator elements to the output format and writes flit payloads. -/
  | sumConv (i : TileId) (e : ReadErr)
  /-- SUM_RESERVED_CODE (R362). A SUM command with a reserved CODE fails with reason 0x20. -/
  | sumReservedCode (i : TileId) (e : ReadErr)
  /-- MOVE_COPY (R338). COPY copies OPC bytes between tile memory and HBM. -/
  | moveCopy (i : TileId) (e : ReadErr)
  /-- MOVE_GATHER (R339). GATHER copies indexed elements from BASE into a destination array. -/
  | moveGather (i : TileId) (e : ReadErr)
  /-- MOVE_SCATTER (R339). SCATTER copies source elements to indexed positions at BASE. -/
  | moveScatter (i : TileId) (e : ReadErr)
  /-- MOVE_SEND (R340). SEND builds and sends OPC flits with the given header, progressively. -/
  | moveSend (i : TileId) (e : ReadErr)
  /-- MOVE_DISPATCH (R343). DISPATCH sends the rows named by sorted records to their experts' endpoints. -/
  | moveDispatch (i : TileId) (e : ReadErr)
  /-- MOVE_ENCODE (R400). ENCODE writes dense payloads as a stored stream of sparse-form records. -/
  | moveEncode (i : TileId) (e : ReadErr)
  /-- MOVE_DECODE (R402). DECODE checks a stored stream and expands it into dense payloads. -/
  | moveDecode (i : TileId) (e : ReadErr)
  /-- MOVE_RESERVED_CODE (R362). A MOVE command with a reserved CODE fails with reason 0x40. -/
  | moveReservedCode (i : TileId) (e : ReadErr)
  /-- SORT_SORT (R347). SORT orders up to 65,536 records in tile memory by key, rank, sequence and position. -/
  | sortSort (i : TileId) (e : ReadErr)
  /-- SORT_MERGE (R349). MERGE merges sorted runs into one run in HBM, checking run order. -/
  | sortMerge (i : TileId) (e : ReadErr)
  /-- SORT_RESERVED_CODE (R362). A SORT command with a reserved CODE fails with reason 0x60. -/
  | sortReservedCode (i : TileId) (e : ReadErr)
  /-- SIFT_SCORE (R353). SCORE computes MX dot products of weight rows and vectors into scores. -/
  | siftScore (i : TileId) (e : ReadErr)
  /-- SIFT_TOPK (R354). TOPK writes the KSEL best-scoring records of each row. -/
  | siftTopk (i : TileId) (e : ReadErr)
  /-- SIFT_THRESH (R355). THRESH writes the count and indices of scores at or above THR. -/
  | siftThresh (i : TileId) (e : ReadErr)
  /-- SIFT_NZMAP (R356). NZMAP writes a non-zero mask for each flit. -/
  | siftNzmap (i : TileId) (e : ReadErr)
  /-- LENS_PREDICT (R415). LENS in predict mode scores neurons by low rank and writes slice records and a mask record. -/
  | lensPredict (i : TileId) (e : ReadErr)
  /-- LENS_CHECK (R419). LENS in check mode counts truly active neurons and those in unselected slices. -/
  | lensCheck (i : TileId) (e : ReadErr)
  /-- SIFT_RESERVED_CODE (R362). A SIFT command with a reserved CODE fails with reason 0x80. -/
  | siftReservedCode (i : TileId) (e : ReadErr)
  /-- POOL_ENABLE (R463). A write of EN = 1 to POOL_CTRL starts threading of P0–P3; a write of 0 sets them OFF when none is allocated. -/
  | poolEnable (fn : Fn) (k : Die) (v : BitVec 32)
  /-- POOL_THREAD_COMPLETE (R463). Threading of a pool finishes and it becomes READY. -/
  | poolThreadComplete (k : Die) (p : Fin 5)
  /-- POOL_ALLOC (R464). The descriptor takes the head buffer of the smallest fitting pool, zeroing it as needed. -/
  | poolAlloc (fn : Fn) (r : RingNo) (e : ReadErr)
  /-- POOL_FREE (R465). The descriptor checks a buffer and links it back at the head of its pool. -/
  | poolFree (fn : Fn) (r : RingNo)
  /-- HOST_KICK (R488). A write to HOST_KICK sets the pending flag and starts a doorbell pass when none runs. -/
  | hostKick (fn : Fn) (v : BitVec 32)
  /-- DOORBELL_PASS (R488). A pass swaps SUMMARY, reads changed lines, checks indices and accepts descriptors. -/
  | doorbellPass (fn : Fn) (summary : BitVec 64) (lines : List (BitVec 512)) (descs : List DescRead)
  /-- POLL_TIMER (R491). While polling is on, the interval expires and a pass runs, the interval doubling when empty. -/
  | pollTimer (fn : Fn) (summary : BitVec 64) (lines : List (BitVec 512)) (descs : List DescRead)
  /-- DESCRIPTOR_START (R484). An accepted descriptor starts after its predecessor or fence and is checked in the order of R483. -/
  | descriptorStart (fn : Fn) (r : RingNo) (buf : Option (List (BitVec 8)))
  /-- NOP (R481). The NOP descriptor completes OK with no effect. -/
  | nop (fn : Fn) (r : RingNo)
  /-- TABLE_UPDATE (R173). The descriptor checks 1–64 table records whole and commits them or refuses with 0xF4 or 0xF5. -/
  | tableUpdate (fn : Fn) (r : RingNo)
  /-- HBM_WRITE (R481). The descriptor writes a host buffer into HBM granules with WR rights. -/
  | hbmWrite (fn : Fn) (r : RingNo)
  /-- HBM_READ (R483). The descriptor reads HBM granules into a host buffer with RD rights. -/
  | hbmRead (fn : Fn) (r : RingNo) (e : ReadErr)
  /-- QUIESCE (R508). The descriptor moves a scope to QUIESCING and starts its 10 ms timer. -/
  | quiesce (fn : Fn) (r : RingNo)
  /-- QUIESCE_DONE (R508). A QUIESCING scope finishes its work in hand and becomes QUIESCED. -/
  | quiesceDone (n : Fin 16)
  /-- QUIESCE_TIMEOUT (R508). A scope not quiesced within 10 ms returns to ACTIVE with 0xFD. -/
  | quiesceTimeout (n : Fin 16)
  /-- RESUME (R508). The descriptor applies or discards a quiesced scope's staged values and makes it ACTIVE. -/
  | resume (fn : Fn) (r : RingNo)
  /-- PROFILE_SET (R510). The descriptor selects a basic-level profile for one scope index. -/
  | profileSet (fn : Fn) (r : RingNo)
  /-- RESERVED_OPCODE (R483). A descriptor with a reserved opcode completes REFUSED with 0xFC. -/
  | reservedOpcode (fn : Fn) (r : RingNo)
  /-- COMPLETION_WRITE (R493). A completion is written with its phase when the completion ring has room, else it waits. -/
  | completionWrite (fn : Fn) (r : RingNo)
  /-- IRQ_COALESCE_TIMER (R494). COAL_T µs after the first pending completion the ring's MSI-X vector is signalled. -/
  | irqCoalesceTimer (fn : Fn) (evt : Bool) (n : RingNo)
  /-- STATUS_HEARTBEAT (R498). Every 1 ms the ring engine increments HEARTBEAT in the status block. -/
  | statusHeartbeat
  /-- PCIE_FLR (R500). An FLR of a function stops its rings and discards writes to its memory. -/
  | pcieFlr (fn : Fn) (on : Bool)
  /-- PCIE_LINK_DOWN (R500). A PCIe port's link goes down, with the effects of an FLR on its function. -/
  | pcieLinkDown (fn : Fn)
  /-- PCIE_PERST (R646). PCIEh_PERST_N asserted takes port h's link down; its release starts training. -/
  | pciePerst (fn : Fn) (low : Bool)
  /-- CR_ENABLE (R503). A write of EN = 1 starts a command ring at START.IDX and START.SEQ. -/
  | crEnable (fn : Fn) (r : RingNo) (v : BitVec 32)
  /-- CR_DISABLE (R503). A write of EN = 0 disables a ring once its accepted descriptors complete. -/
  | crDisable (fn : Fn) (r : RingNo) (v : BitVec 32)
  /-- CR_STOP (R503). A write of STOP moves a running ring to STOPPING. -/
  | crStop (fn : Fn) (r : RingNo) (v : BitVec 32)
  /-- CR_RESUME (R503). A write of RESUME returns a STOPPED ring to RUNNING. -/
  | crResume (fn : Fn) (r : RingNo) (v : BitVec 32)
  /-- CR_STOP_COMPLETE (R503). Every accepted descriptor of a STOPPING ring completes and it becomes STOPPED or DISABLED. -/
  | crStopComplete (fn : Fn) (r : RingNo)
  /-- EQ_ENABLE (R542). Enabling an event ring; the first one for port events posts the bring-up port outcomes. -/
  | eqEnable (fn : Fn) (e : RingNo) (v : BitVec 32)
  /-- OWN_OFFER (R505). The primary writes OFFER and the role becomes OFFERED with a 100 ms timer. -/
  | ownOffer (fn : Fn) (v : BitVec 32)
  /-- OWN_WITHDRAW (R505). The offering host writes WITHDRAW and remains primary. -/
  | ownWithdraw (fn : Fn) (v : BitVec 32)
  /-- OWN_ACCEPT (R505). The offered host writes ACCEPT and becomes primary. -/
  | ownAccept (fn : Fn) (v : BitVec 32)
  /-- OWN_CLAIM (R505). In ORPHAN, a function writes CLAIM and becomes primary. -/
  | ownClaim (fn : Fn) (v : BitVec 32)
  /-- OWN_OFFER_TIMEOUT (R505). An offer not accepted within 100 ms lapses and the offerer stays primary. -/
  | ownOfferTimeout
  /-- OWN_ORPHAN_TIMEOUT (R505). The primary's link stays down or in FLR for 1 s and the device becomes ORPHAN. -/
  | ownOrphanTimeout
  /-- PART_OWN_WRITE (R506). A write to HOST_PART_OWN changes each partition's owner where R506 allows. -/
  | partOwnWrite (fn : Fn) (v : BitVec 32)
  /-- HOST_LEVEL_WRITE (R511). A write to HOST_LEVEL switches scopes between basic and expert, applying profile 0 on return to basic. -/
  | hostLevelWrite (fn : Fn) (v : BitVec 32)
  /-- HBM_WINDOW_ACCESS (R478). A BAR4 access reaches HBM through the window or is refused. -/
  | hbmWindowAccess (fn : Fn) (x : Nat) (n : Nat) (wr : Option (List (BitVec 8))) (e : ReadErr)
  /-- DOMAIN_DEMAND (R519). An access needs an OFF domain, which wakes on a wave slot or is held. -/
  | domainDemand (n : DomNo)
  /-- GOVERNOR_WAVE_GRANT (R529). The governor grants the next wave of held domain wakes within its rising slope. -/
  | governorWaveGrant
  /-- DOMAIN_WAKE_DONE (R519). Power-good and PLL lock are reported and the domain becomes ON, its waiting accesses proceeding. -/
  | domainWakeDone (n : DomNo)
  /-- DOMAIN_WAKE_TIMEOUT (R519). Power-good or PLL lock misses its limit and the domain enters FAILED with 0xE0. -/
  | domainWakeTimeout (n : DomNo) (pll : Bool)
  /-- DOMAIN_IDLE_GATE (R519). A gated domain idle for GATE_IDLE µs without ballast starts entering OFF. -/
  | domainIdleGate (n : DomNo)
  /-- DOMAIN_ENTRY_COMPLETE (R519). A domain finishes entering OFF, and wakes at once if a demand arrived. -/
  | domainEntryComplete (n : DomNo)
  /-- DOMAIN_RESET (R519). A write of RESET to PWR_DOM_CTRL starts a new wake of a FAILED domain. -/
  | domainReset (fn : Fn) (n : DomNo) (v : BitVec 32)
  /-- POWER_REQ (R527). The descriptor requests a device state; it completes, starts, or is held pending. -/
  | powerReq (fn : Fn) (r : RingNo)
  /-- POWER_ENTRY_STEP_COMPLETE (R524). A step of an A2 or A3 entry finishes and the next starts, reaching the target at the end. -/
  | powerEntryStepComplete
  /-- POWER_ENTRY_TIMEOUT (R525). An entry not finished within ENTRY_TO ms is aborted and its domains woken again. -/
  | powerEntryTimeout
  /-- GOVERNOR_INTERVAL (R528). Every 1 µs the governor forms its estimate and assigns or withdraws ballast. -/
  | governorInterval (act : List (Nat × Nat))
  /-- PORT_DOZE_IDLE (R526). A port carrying only idle flits for DOZE_IDLE µs where doze is allowed enters DOZE. -/
  | portDozeIdle (p : Port)
  /-- COLD_RESET (R548). Power-on or COLD_RST_N starts a cold reset and bring-up from step 0x1. -/
  | coldReset (low : Bool)
  /-- WARM_RESET_PIN (R646). WARM_RST_N asserted for 10 µs with COLD_RST_N high starts a full warm reset. -/
  | warmResetPin
  /-- BRINGUP_STEP_COMPLETE (R536). A bring-up step finishes and the next starts. -/
  | bringupStepComplete (found : StepFound)
  /-- BRINGUP_STEP_FAIL (R543). A bring-up step fails or exceeds its limit and stops bring-up or marks a unit. -/
  | bringupStepFail (detail : Nat) (unit : Nat) (lane : Option Nat)
  /-- LINK_WAIT_EXPIRY (R538). LINK_WAIT passes after step 0x9 and step 0xA ends once training ports finish. -/
  | linkWaitExpiry
  /-- RESET_FULL_WARM (R549). A RESET descriptor of CLASS 0x01 starts a full warm reset with no completion. -/
  | resetFullWarm (src : Option (Fn × RingNo))
  /-- RESET_COMPUTE (R551). A RESET descriptor of CLASS 0x02 abandons runs, zeroes tiles, frees contexts and rethreads pools. -/
  | resetCompute (fn : Fn) (r : RingNo)
  /-- RESET_PARTITION (R552). A RESET descriptor of CLASS 0x03 discards a partition's flits and resets its tiles, contexts, barriers and buffers. -/
  | resetPartition (fn : Fn) (r : RingNo)
  /-- RESET_PORT (R553). A RESET descriptor of CLASS 0x04 flushes a port and fully retrains it. -/
  | resetPort (fn : Fn) (r : RingNo)
  /-- RESET_FINISH (R549). A compute, partition or port reset finishes and its descriptors complete OK. -/
  | resetFinish (cls : Fin 256) (arg : Fin 256)
  /-- IMG_HAVE_RX (R546). An IMG_HAVE frame is answered with IMG_REQ by a device lacking the image. -/
  | imgHaveRx
  /-- IMG_REQ_RX (R546). An IMG_REQ makes the sender send chunks in order from the requested one. -/
  | imgReqRx
  /-- IMG_CHUNK_SEND (R546). The broadcaster sends the next chunk on a requesting port, at most one per µs. -/
  | imgChunkSend (p : Port)
  /-- IMG_CHUNK_RX (R547). A broadcast chunk is stored, or discarded as duplicate or foreign. -/
  | imgChunkRx
  /-- IMG_REQ_TIMEOUT (R547). 10 ms after a chunk with chunks missing, the receiver requests its lowest missing chunk. -/
  | imgReqTimeout
  /-- IMAGE_STAGE_IMAGE (R563). An IMAGE_STAGE chunk of TYPE image is received in order, LAST starting verification. -/
  | imageStageImage (fn : Fn) (r : RingNo)
  /-- IMAGE_STAGE_LICENCE (R572). An IMAGE_STAGE of TYPE licence is checked and written to the free licence sector. -/
  | imageStageLicence (fn : Fn) (r : RingNo) (flashOk : Bool)
  /-- IMAGE_INSTALL_COMPLETE (R562). The staged image is read back, verified and tagged, and the install completes or is refused. -/
  | imageInstallComplete (flashOk : Bool)
  /-- RECOVERY_RESTART (R564). 10 ms after a recovered image verifies, bring-up restarts at step 0x2. -/
  | recoveryRestart
  /-- SPDM_REQUEST_FRAGMENT (R569). A management-lane SPDM fragment is collected into its request message. -/
  | spdmRequestFragment
  /-- SPDM_GET_VERSION (R568). The device answers GET_VERSION. -/
  | spdmGetVersion (o : Option (Fn × List (BitVec 8)))
  /-- SPDM_GET_CAPABILITIES (R568). The device answers GET_CAPABILITIES. -/
  | spdmGetCapabilities (o : Option (Fn × List (BitVec 8)))
  /-- SPDM_NEGOTIATE_ALGORITHMS (R568). The device answers NEGOTIATE_ALGORITHMS with Ed25519 and SHA-512. -/
  | spdmNegotiateAlgorithms (o : Option (Fn × List (BitVec 8)))
  /-- SPDM_GET_DIGESTS (R568). The device answers GET_DIGESTS for slot 0. -/
  | spdmGetDigests (o : Option (Fn × List (BitVec 8)))
  /-- SPDM_GET_CERTIFICATE (R568). The device returns its identity certificate chain. -/
  | spdmGetCertificate (o : Option (Fn × List (BitVec 8)))
  /-- SPDM_CHALLENGE (R568). The device signs a CHALLENGE with its identity key. -/
  | spdmChallenge (o : Option (Fn × List (BitVec 8)))
  /-- SPDM_GET_MEASUREMENTS (R570). The device returns measurement blocks taken in one management-clock cycle. -/
  | spdmGetMeasurements (o : Option (Fn × List (BitVec 8)))
  /-- SPDM_UNSUPPORTED_REQUEST (R568). A request outside the supported set is answered with an SPDM ERROR and counted. -/
  | spdmUnsupportedRequest (o : Option (Fn × List (BitVec 8)))
  /-- JOURNAL_PUT (R575). The descriptor appends a group of journal records, applies them, and sets HOST_JSEQ when durable. -/
  | journalPut (fn : Fn) (r : RingNo)
  /-- JOURNAL_COMMIT_DURABLE (R575). A group's COMMIT becomes durable, HOST_JSEQ is set and the values are applied. -/
  | journalCommitDurable
  /-- JOURNAL_COMPACTION (R576). At 75 % full, firmware copies live records to the other bank as one group. -/
  | journalCompaction
  /-- JOURNAL_COMPACTION_COMPLETE (R576). Compaction's final COMMIT is durable, waiting JOURNAL_PUTs proceed and the old bank is erased. -/
  | journalCompactionComplete
  /-- HEARTBEAT (R583). Every 10 ms the device sends a HEARTBEAT to the fault manager. -/
  | heartbeat
  /-- FM_COMMAND_RX (R586). A COMMAND frame is accepted, answered with a copied ACK, or discarded and counted. -/
  | fmCommandRx
  /-- FM_FENCE (R590). FENCE sets a port's fence level, flushing its queues and failing barriers. -/
  | fmFence
  /-- FM_UNFENCE (R592). UNFENCE lifts a port's fence. -/
  | fmUnfence
  /-- FM_ABORT_PART (R588). ABORT_PART faults every ARMED or OPEN context of a partition with 0xC9. -/
  | fmAbortPart
  /-- FM_RESET (R588). The fault manager's RESET sends the ACK and then starts a full warm reset. -/
  | fmReset
  /-- FM_QUERY (R588). QUERY sends one HEARTBEAT at once. -/
  | fmQuery
  /-- FM_XFER_START (R594). XFER_START arms STATE_XFER on the partner for a snapshot at the named barrier release. -/
  | fmXferStart
  /-- FM_RESERVED_OP (R588). A COMMAND with another OP or field out of range is refused with 0xFC. -/
  | fmReservedOp
  /-- FM_ACK_SEND (R587). Once the command's journal record is durable, firmware sends its ACK. -/
  | fmAckSend
  /-- FLT_FENCE_WRITE (R592). A primary-host write to FLT_FENCE sets or lifts a port fence and journals it. -/
  | fltFenceWrite (fn : Fn) (p : Port) (v : BitVec 32)
  /-- STATE_CHUNK_SEND (R596). The partner sends the next STATE_CHUNK, at most four per µs. -/
  | stateChunkSend
  /-- STATE_CHUNK_RX (R596). A STATE_CHUNK is stored or discarded on mismatch of SRC, XFER_ID or ARM. -/
  | stateChunkRx
  /-- STATE_REQ_RX (R596). A STATE_REQ makes the partner resend from the named chunk. -/
  | stateReqRx
  /-- STATE_REQ_TIMEOUT (R596). 1 ms after a chunk with chunks missing, the new switch sends STATE_REQ. -/
  | stateReqTimeout
  /-- CANARY_TIMER (R601). Every CANARY_MS each ON tile runs known-answer FOLD and SCORE, faulting its contexts on mismatch. -/
  | canaryTimer (fails : List CanaryFail)
  /-- MAINT_SCRUB (R606). MAINT starts a SCRUB reading every granule of a die. -/
  | maintScrub (fn : Fn) (r : RingNo)
  /-- MAINT_MARGIN (R607). MAINT starts a MARGIN scan of an engine's receive lanes. -/
  | maintMargin (fn : Fn) (r : RingNo)
  /-- MAINT_SPARE_TEST (R606). MAINT starts the march test of an unused spare tile. -/
  | maintSpareTest (fn : Fn) (r : RingNo)
  /-- MAINT_BCAST (R606). MAINT starts a broadcast of the image in force. -/
  | maintBcast (fn : Fn) (r : RingNo)
  /-- MAINT_CANCEL (R609). MAINT cancel stops an activity within 1 ms. -/
  | maintCancel (fn : Fn) (r : RingNo)
  /-- MARGIN_STEP (R607). After 100 µs at a margin step the corrected symbols are counted and the scan moves on. -/
  | marginStep (n : MaintSlot) (corr : Nat) (bad : Bool)
  /-- MAINT_ACTIVITY_END (R605). A maintenance activity ends, frees its slot and posts a maintenance event. -/
  | maintActivityEnd (n : MaintSlot) (ok : Bool) (e : ReadErr)
  /-- MAINT_RETRY (R608). Firmware retries its refused activity after 1 s. -/
  | maintRetry
  /-- LOUPE_RECORD_WRITE (R612). Loupe writes one queued trace record per cc to its ring, or drops it. -/
  | loupeRecordWrite
  /-- RAIL_FAULT (R643). A rail out of tolerance for 10 µs acts as COLD_RST_N asserted. -/
  | railFault
  /-- THERMAL_SAMPLE (R651). Every 1 ms the sensors are sampled, raising or clearing warnings and tripping at the limit. -/
  | thermalSample (temps : List Int)
  /-- BMC_TEMP (R648). The BMC TEMP command returns six temperatures. -/
  | bmcTemp
  /-- BMC_POWER (R648). The BMC POWER command returns package power. -/
  | bmcPower (w : BitVec 16)
  /-- BMC_STATUS (R648). The BMC STATUS command returns BOOT_STAT. -/
  | bmcStatus
  /-- BMC_THERM (R648). The BMC THERM command returns thermal status and clears BMC_ALERT_N. -/
  | bmcTherm
  /-- BMC_HBSEQ (R648). The BMC HBSEQ command returns the last heartbeat sequence. -/
  | bmcHbseq
  /-- JTAG_BYPASS (R650). The BYPASS instruction selects the bypass register. -/
  | jtagBypass
  /-- JTAG_IDCODE (R650). The IDCODE instruction returns 0x1D70_055B. -/
  | jtagIdcode
  /-- JTAG_SAMPLE_PRELOAD (R650). SAMPLE/PRELOAD captures and loads the boundary-scan register. -/
  | jtagSamplePreload (seen : List Bool) (load : List Bool)
  /-- JTAG_EXTEST (R650). EXTEST drives the boundary while COLD_RST_N is low, else acts as BYPASS. -/
  | jtagExtest (seen : List Bool)
  /-- JTAG_HIGHZ (R650). HIGHZ floats the outputs while COLD_RST_N is low, else acts as BYPASS. -/
  | jtagHighz
  /-- JTAG_CLAMP (R650). CLAMP holds the boundary while COLD_RST_N is low, else acts as BYPASS. -/
  | jtagClamp
  /-- PCIE_LINK_UP (R647). PCIe port h finishes training and its configuration space answers, so function h is present again. -/
  | pcieLinkUp (fn : Fn)
  /-- RAIL_RECOVERY (R643). After a rail fault, every rail has been back within tolerance for 1 ms and bring-up restarts at step 0x1. -/
  | railRecovery
  /-- LASER_FIBRE_RESTORED (R72). The CMIS write that restores a cut laser fibre completes, and the fibre's LASER_CUT ports enter TRAINING. -/
  | laserFibreRestored (m : Fibre)
  /-- TELEMETRY_RECORD_WRITE (R204). A pending telemetry record of a sample is written to the telemetry ring. -/
  | telemetryRecordWrite
  /-- HBM_REFRESH (R457). An HBM bank refresh starts or ends, holding and then releasing accesses that meet it. -/
  | hbmRefresh (k : Die) (bank : Nat) (start : Bool) (met : Nat)
  /-- JTAG_TAP_RESET (R650). TRST_N driven low, or left at its internal pull-down, holds the JTAG TAP in reset. -/
  | jtagTapReset (high : Bool)
  deriving DecidableEq, Repr

end Sys2Proof
end

