-- ==== Sys2Proof/Decode.lean ====
section
/-! DEFINITION. The command that a word of the command table spells: the table gives no row any bits, so no word
spells a command (log entry 1). -/

namespace Sys2Proof

/-- The command spelled by a word of nbits bits: none, for no row of the table has bits. -/
def decodeTableWord (_nbits _w : Nat) : Option Instr := none

end Sys2Proof
end

