-- ==== Sys2Proof/Machine/Bits.lean ====
section
/-! DEFINITION. Bit fields, bytes and sequence numbers: the plain helpers the meanings share (00 "Numbers
and units": little-endian multi-byte fields). -/

namespace Sys2Proof.Machine

/-- Bits hi down to lo of w, as a number. -/
def bitsOf (w hi lo : Nat) : Nat := (w >>> lo) % 2 ^ (hi + 1 - lo)

/-- w with bits hi down to lo replaced by v. -/
def bitsPut (w hi lo v : Nat) : Nat :=
  w - (bitsOf w hi lo <<< lo) + ((v % 2 ^ (hi + 1 - lo)) <<< lo)

/-- Is bit i of w set? -/
def bitAt (w i : Nat) : Bool := (w >>> i) % 2 == 1

/-- w with bit i set to b. -/
def bitPut (w i : Nat) (b : Bool) : Nat := bitsPut w i i (if b then 1 else 0)

/-- 1 for true. -/
def b2n (b : Bool) : Nat := if b then 1 else 0

/-- The low n bytes of w, least significant first. -/
def leBytes : Nat → Nat → List (BitVec 8)
  | 0, _ => []
  | n + 1, w => BitVec.ofNat 8 w :: leBytes n (w / 256)

/-- The number whose little-endian bytes are bs. -/
def ofLe : List (BitVec 8) → Nat
  | [] => 0
  | b :: bs => b.toNat + 256 * ofLe bs

/-- The bytes of w, most significant first. -/
def beBytes (n w : Nat) : List (BitVec 8) := (leBytes n w).reverse

/-- Byte i of a list; zero beyond its end. -/
def byteAt (bs : List (BitVec 8)) (i : Nat) : Nat := (bs.getD i 0).toNat

/-- The n-byte little-endian field at byte offset i. -/
def leAt (bs : List (BitVec 8)) (i n : Nat) : Nat := ofLe ((bs.drop i).take n)

/-- bs cut or zero-padded to n bytes. -/
def padTo (n : Nat) (bs : List (BitVec 8)) : List (BitVec 8) :=
  bs.take n ++ List.replicate (n - bs.length) 0

/-- bs with the bytes v stored from offset i on (bytes beyond the end are dropped). -/
def bytesPut (bs : List (BitVec 8)) (i : Nat) (v : List (BitVec 8)) : List (BitVec 8) :=
  (bs.take i ++ v ++ bs.drop (i + v.length)).take bs.length

/-- The bytes of a payload, byte 0 first. -/
def payloadBytes (p : Payload) : List (BitVec 8) := leBytes 256 p.toNat

/-- The payload with the given bytes, zero-padded to 256. -/
def payloadOf (bs : List (BitVec 8)) : Payload := BitVec.ofNat 2048 (ofLe (bs.take 256))

/-- Byte i of a payload. -/
def plByte (p : Payload) (i : Nat) : Nat := (p.toNat >>> (8 * i)) % 256

/-- The n-byte little-endian field at byte offset i of a payload. -/
def plLe (p : Payload) (i n : Nat) : Nat := (p.toNat >>> (8 * i)) % 2 ^ (8 * n)

/-- a - b modulo m. -/
def subMod (m a b : Nat) : Nat := (a + m - b % m) % m

/-- The range of a free-running 32-bit index. -/
def m32 : Nat := 0x100000000

/-- How far index a is ahead of index b, modulo 2^32. -/
def dist32 (a b : Nat) : Nat := subMod m32 a b

/-- Is sequence a behind b, within half of the range m (R101: within 2,048 behind; R151: 32,768)? -/
def behind (m a b : Nat) : Bool := 0 < subMod m b a && subMod m b a ≤ m / 2

/-- The element of l at index i replaced by f of it. -/
def updAt {α : Type} (l : List α) (i : Nat) (f : α → α) : List α :=
  l.zipIdx.map fun e => if e.2 = i then f e.1 else e.1

/-- The element at index i, or d. -/
def at_ {α : Type} (d : α) (l : List α) (i : Nat) : α := l.getD i d

/-- One step of the reflected CRC-32 of IEEE 802.3 on one bit. -/
def crc32Bit (c : BitVec 32) : BitVec 32 :=
  if c.getLsbD 0 then (c >>> 1) ^^^ 0xEDB88320#32 else c >>> 1

/-- The reflected CRC-32 over one byte. -/
def crc32Byte (c : BitVec 32) (b : BitVec 8) : BitVec 32 :=
  crc32Bit (crc32Bit (crc32Bit (crc32Bit (crc32Bit (crc32Bit (crc32Bit (crc32Bit
    (c ^^^ b.zeroExtend 32))))))))

/-- CRC-32 of IEEE 802.3 (R99): reflected, initial value and final XOR 0xFFFF_FFFF. -/
def crc32 (bs : List (BitVec 8)) : BitVec 32 := bs.foldl crc32Byte 0xFFFFFFFF#32 ^^^ 0xFFFFFFFF#32

/-- One header word as R93 lays it out, w = 0-7. -/
def hdrWord (f : Flit) (w : Nat) : Nat :=
  match w with
  | 0 => f.type.toNat <<< 28 ||| f.vl.toNat <<< 25 ||| b2n f.exp <<< 24 ||| f.lseq.toNat <<< 12 |||
      f.lack.toNat
  | 1 => f.cred.toNat <<< 24 ||| f.cvl.toNat <<< 21 ||| f.part.toNat <<< 17 ||| f.fmt.toNat <<< 12 |||
      f.ctx.toNat
  | 2 => f.dst.toNat <<< 16 ||| f.src.toNat
  | 3 => f.ofs.toNat
  | 4 => f.mseq.toNat <<< 16 ||| f.rank.toNat
  | 5 => f.tag.toNat <<< 16 ||| f.form.toNat <<< 14 ||| f.rsv5.toNat
  | 6 => f.rsv6.toNat
  | _ => f.hcrc.toNat

/-- Header bytes 0-27: words W0-W6, each big-endian (R93). -/
def hdrBytes28 (f : Flit) : List (BitVec 8) :=
  ((List.range 7).map fun w => beBytes 4 (hdrWord f w)).flatten

/-- The HCRC of R99: over header bytes 0-27 and payload bytes 0-255. -/
def hcrcOf (f : Flit) : BitVec 32 := crc32 (hdrBytes28 f ++ payloadBytes f.payload)

/-- The flit with its HCRC recomputed, inverted when it is sent stomped (R99, R112). -/
def sealFlit (f : Flit) (stomped : Bool) : Flit :=
  { f with hcrc := if stomped then hcrcOf f ^^^ 0xFFFFFFFF#32 else hcrcOf f }

end Sys2Proof.Machine
end

