-- ==== Sys2Proof/Machine/Code.lean ====
section
/-! DEFINITION. The coded bits of a lane (03: R83-R92, R120): Reed-Solomon codewords, PAM4, the lanes of a slot, the
scrambler, and the words that travel as five copies: markers, spare idle words, training words. -/

namespace Sys2Proof.Machine

/-! The field GF(2^10) and RS(130,116) (R84) -/

/-- α times a: the field polynomial is x^10 + x^3 + 1. -/
def gfTwice (a : Nat) : Nat := if 512 ≤ a then (2 * a) ^^^ 0x409 else 2 * a

/-- Multiplication, over the low n bits of b. -/
def gfMulBits : Nat → Nat → Nat → Nat
  | 0, _, _ => 0
  | n + 1, a, b => (if b % 2 = 1 then a else 0) ^^^ gfMulBits n (gfTwice a) (b / 2)

def gfMul (a b : Nat) : Nat := if a = 0 ∨ b = 0 then 0 else gfMulBits 10 a b

/-- α to the n. -/
def gfAlpha : Nat → Nat
  | 0 => 1
  | n + 1 => gfTwice (gfAlpha n)

/-- a to the n. -/
def gfPow (a : Nat) : Nat → Nat
  | 0 => 1
  | n + 1 => gfMul a (gfPow a n)

/-- The inverse of a nonzero element: a^1022, by nine squarings. -/
def gfInv (a : Nat) : Nat :=
  (List.range 9).foldl (fun (x : Nat × Nat) _ => let q := gfMul x.1 x.1; (q, gfMul x.2 q)) (a, 1) |>.2

/-- The value at x of a polynomial whose highest coefficient comes first. -/
def gfEval (l : List Nat) (x : Nat) : Nat := l.foldl (fun a c => gfMul a x ^^^ c) 0

/-- The generator polynomial (x - α^0)(x - α^1)...(x - α^13), highest coefficient first. -/
def rsGen : List Nat :=
  (List.range 14).foldl (fun g i => List.zipWith (· ^^^ ·) (g ++ [0]) (0 :: g.map (gfMul (gfAlpha i)))) [1]

/-- The 14 parity symbols of a message (R84): the remainder of its polynomial times x^14. -/
def rsParity (m : List Nat) : List Nat :=
  let g := rsGen.tail
  m.foldl (fun r s =>
    let k := s ^^^ r.headD 0
    if k = 0 then r.tail ++ [0] else List.zipWith (fun a b => a ^^^ gfMul k b) (r.tail ++ [0]) g)
    (List.replicate 14 0)

/-- The codeword of a message: its 116 symbols, then the parity. -/
def rsEncode (m : List Nat) : List Nat := m ++ rsParity m

/-- The Berlekamp-Massey state: the locator and the one before its last change, lowest coefficient first, the number of
errors, the steps since that change and its discrepancy. -/
structure RsLoc where
  c : List Nat
  b : List Nat
  len : Nat
  gap : Nat
  disc : Nat
  deriving DecidableEq, Repr

/-- a + k x^n b, lowest coefficient first. -/
def gfAddShift (a b : List Nat) (k n : Nat) : List Nat :=
  let s := List.replicate n 0 ++ b.map (gfMul k)
  (List.range (max a.length s.length)).map fun i => a.getD i 0 ^^^ s.getD i 0

/-- One step of Berlekamp-Massey over the syndromes. -/
def rsStep (syn : List Nat) (x : RsLoc) (n : Nat) : RsLoc :=
  let e := (List.range (x.len + 1)).foldl (fun a i => if i ≤ n then a ^^^ gfMul (x.c.getD i 0) (syn.getD (n - i) 0) else a) 0
  if e = 0 then { x with gap := x.gap + 1 }
  else
    let c := gfAddShift x.c x.b (gfMul e (gfInv x.disc)) x.gap
    if 2 * x.len ≤ n then { c := c, b := x.c, len := n + 1 - x.len, gap := 1, disc := e }
    else { x with c := c, gap := x.gap + 1 }

/-- The errors of a received word, as (position, value): up to seven, none when they cannot be found. -/
def rsErrors (r : List Nat) : Option (List (Nat × Nat)) :=
  let syn := (List.range 14).map fun i => gfEval r (gfAlpha i)
  let l := (List.range 14).foldl (rsStep syn) { c := [1], b := [1], len := 0, gap := 1, disc := 1 }
  -- the locator's value at α^-d tells whether the symbol of degree d is in error
  let pos := (List.range 130).filter fun j => gfEval l.c.reverse (gfInv (gfAlpha (129 - j))) = 0
  let omega := (List.range 14).map fun n =>
    (List.range (n + 1)).foldl (fun a i => a ^^^ gfMul (l.c.getD i 0) (syn.getD (n - i) 0)) 0
  if 7 < l.len ∨ pos.length ≠ l.len then none
  else some (pos.map fun j =>
    let x := gfAlpha (129 - j)
    let y := gfInv x
    let num := gfEval (omega.take l.len).reverse y
    let den := (List.range l.len).foldl (fun a i =>
      if i % 2 = 0 then a ^^^ gfMul (l.c.getD (i + 1) 0) (gfPow y i) else a) 0
    (j, gfMul x (gfMul num (gfInv den))))

/-- A received codeword decoded (R84): the message, and the positions of the symbols corrected; none when it is
uncorrectable. -/
def rsDecode (r : List Nat) : Option (List Nat × List Nat) :=
  if r.length ≠ 130 then none
  else if rsParity (r.take 116) = r.drop 116 then some (r.take 116, [])
  else match rsErrors r with
    | none => none
    | some es =>
      let c := es.foldl (fun c e => updAt c e.1 (· ^^^ e.2)) r
      if rsParity (c.take 116) = c.drop 116 then some (c.take 116, es.map (·.1)) else none

/-! Messages and symbols (R83, R85) -/

/-- n bytes in the opposite order. -/
def swapBytes : Nat → Nat → Nat
  | 0, _ => 0
  | n + 1, w => (w % 256) * 256 ^ n + swapBytes n (w / 256)

/-- The message of codeword A: LC, header bytes 0-27, payload bytes 0-114, the first bit highest. -/
def messageA (lc : BitVec 16) (f : Flit) : Nat :=
  let h := (List.range 7).foldl (fun a w => a * 2 ^ 32 + hdrWord f w) lc.toNat
  h * 2 ^ 920 + swapBytes 115 (f.payload.toNat % 2 ^ 920)

/-- The message of codeword B: payload bytes 115-255, HCRC. -/
def messageB (f : Flit) : Nat := swapBytes 141 (f.payload.toNat / 2 ^ 920) * 2 ^ 32 + f.hcrc.toNat

/-- The 116 symbols of a message, 10 bits each, the first bit highest. -/
def symbolsOf (m : Nat) : List Nat := (List.range 116).map fun j => m / 2 ^ (10 * (115 - j)) % 1024

/-- The message of 116 symbols. -/
def messageOf (l : List Nat) : Nat := l.foldl (fun a s => a * 1024 + s) 0

/-- LC of message A. -/
def lcOf (a : Nat) : BitVec 16 := BitVec.ofNat 16 (a / 2 ^ 1144)

/-- The flit of messages A and B. -/
def flitOf (a b : Nat) : Flit :=
  let w := fun (k : Nat) => a / 2 ^ (920 + 32 * (6 - k)) % 2 ^ 32
  let v := fun (n k hi lo : Nat) => BitVec.ofNat n (bitsOf (w k) hi lo)
  { type := v 4 0 31 28, vl := v 3 0 27 25, exp := bitAt (w 0) 24, lseq := v 12 0 23 12, lack := v 12 0 11 0
    cred := v 8 1 31 24, cvl := v 3 1 23 21, part := v 4 1 20 17, fmt := v 5 1 16 12, ctx := v 12 1 11 0
    dst := v 16 2 31 16, src := v 16 2 15 0, ofs := v 32 3 31 0, mseq := v 16 4 31 16, rank := v 16 4 15 0
    tag := v 16 5 31 16, form := v 2 5 15 14, rsv5 := v 14 5 13 0, rsv6 := v 32 6 31 0
    hcrc := BitVec.ofNat 32 b
    payload := BitVec.ofNat 2048 (swapBytes 115 (a % 2 ^ 920) + swapBytes 141 (b / 2 ^ 32) * 2 ^ 920) }

/-! PAM4 (R85) -/

/-- A pair of bits, the first more significant, as a level: Gray coding. -/
def pamOf (v : Nat) : Pam := match v with | 0 => .m3 | 1 => .m1 | 3 => .p1 | _ => .p3

/-- The pair of bits of a level. -/
def pamBits : Pam → Nat | .m3 => 0 | .m1 => 1 | .p1 => 3 | .p3 => 2

/-- A 10-bit symbol on a lane, most significant bits first. -/
def symPams (s : Nat) : List Pam :=
  [pamOf (s / 256 % 4), pamOf (s / 64 % 4), pamOf (s / 16 % 4), pamOf (s / 4 % 4), pamOf (s % 4)]

/-- The 10-bit symbols of a lane's levels; a rest of fewer than five levels is no symbol. -/
def pamSyms : List Pam → List Nat
  | a :: b :: c :: d :: e :: t =>
    (pamBits a * 256 + pamBits b * 64 + pamBits c * 16 + pamBits d * 4 + pamBits e) :: pamSyms t
  | _ => []

/-! Lanes (R86) -/

/-- The lane of A symbol j, and of B symbol k, at width w. -/
def laneA (w j : Nat) : Nat := j % w
def laneB (w k : Nat) : Nat := if w = 4 then (k + 2) % 4 else k % w

/-- How many A symbols lane l carries at width w. -/
def countA (w l : Nat) : Nat := (130 + w - 1 - l) / w

/-- The symbols of lane l: its A symbols, then its B symbols. -/
def laneSyms (w l : Nat) (a b : List Nat) : List Nat :=
  (((List.range 130).filter fun j => laneA w j = l).map fun j => a.getD j 0) ++
    (((List.range 130).filter fun k => laneB w k = l).map fun k => b.getD k 0)

/-- Codeword A from the symbols of the lanes. -/
def gatherA (w : Nat) (lanes : List (List Nat)) : List Nat :=
  (List.range 130).map fun j => (lanes.getD (laneA w j) []).getD (j / w) 0

/-- Codeword B from the symbols of the lanes. -/
def gatherB (w : Nat) (lanes : List (List Nat)) : List Nat :=
  (List.range 130).map fun k => (lanes.getD (laneB w k) []).getD (countA w (laneB w k) + k / w) 0

/-! The scrambler (R87) -/

/-- The state of lane l after an alignment marker. -/
def scrSeed (l : Nat) : Nat := 0x5A5A5A5A ^^^ l

/-- One step of PRBS31, x^31 + x^28 + 1: the bit it outputs, and the next state. -/
def scrStep (s : Nat) : Nat × Nat :=
  let o := (s / 2 ^ 30 + s / 2 ^ 27) % 2
  (o, (2 * s + o) % 2 ^ 31)

/-- Ten steps: the bits they output, the first highest, and the state after them. -/
def scrTen (s : Nat) : Nat × Nat :=
  (List.range 10).foldl (fun (x : Nat × Nat) _ => let r := scrStep x.2; (2 * x.1 + r.1, r.2)) (0, s)

/-- Symbols scrambled, or descrambled, from a state on, and the state after them. -/
def scramble : Nat → List Nat → List Nat × Nat
  | s, [] => ([], s)
  | s, x :: t =>
    let k := scrTen s
    let r := scramble k.2 t
    ((x ^^^ k.1) :: r.1, r.2)

/-! Blocks of five copies (R89-R91, R120) -/

/-- The 650 bits of five copies of a 130-bit word, the most significant first. -/
def fiveCopies (w : Nat) : Block :=
  ((List.replicate 5 ((List.range 13).map fun j => w / 2 ^ (10 * (12 - j)) % 1024)).flatten.map symPams).flatten

/-- The five words of a block. -/
def copiesOf (b : Block) : List Nat :=
  let l := pamSyms b
  (List.range 5).map fun n => ((l.drop (13 * n)).take 13).foldl (fun a s => a * 1024 + s) 0

/-- A block's word is accepted when at least three of its five copies pass a check and agree (R90). -/
def acceptFive (ok : Nat → Bool) (b : Block) : Option Nat :=
  let l := (copiesOf b).filter ok
  if b.length = 325 then l.find? fun w => decide (3 ≤ l.count w) else none

/-- A CRC of n bits, not reflected, bit-serially over the low k bits of m, the most significant first. -/
def crcMsb (n poly : Nat) : Nat → Nat → Nat → Nat
  | 0, _, c => c
  | k + 1, m, c =>
    let t := (c / 2 ^ (n - 1) + m / 2 ^ k) % 2
    crcMsb n poly k m ((2 * c % 2 ^ n) ^^^ (if t = 1 then poly else 0))

/-- CRC32 of R89, over bits [129:32] of a word. -/
def wordCrc32 (w : Nat) : Nat := crcMsb 32 0x04C11DB7 98 (w / 2 ^ 32) 0xFFFFFFFF

/-- CRC16 of R120, over bits [129:16]. -/
def wordCrc16 (w : Nat) : Nat := crcMsb 16 0x1021 114 (w / 2 ^ 16) 0xFFFF

/-- A word with its CRC32 in place. -/
def seal32 (w : Nat) : Nat := w / 2 ^ 32 * 2 ^ 32 + wordCrc32 w
def seal16 (w : Nat) : Nat := w / 2 ^ 16 * 2 ^ 16 + wordCrc16 w

def markerSync : Nat := 0xC6A15E3B94D2078F
def spareSync : Nat := 0x395EA1C46B2DF870
def trainSync : Nat := 0x5D0BE2A71C943F68

/-- The marker word of R89. -/
def markerWord (m : Marker) : Nat :=
  seal32 (markerSync * 2 ^ 66 + m.mcount.toNat * 2 ^ 50 + m.lane.toNat * 2 ^ 47 + m.width.toNat * 2 ^ 45 +
    m.wave.toNat * 2 ^ 42 + b2n m.rstr * 2 ^ 41)

/-- The spare idle word of R91: OP and ARG as in LC. -/
def spareWord (lc : BitVec 16) : Nat := seal32 (spareSync * 2 ^ 66 + lc.toNat * 2 ^ 50)

/-- The training word of R120. -/
def trainWord (t : TrainWord) : Nat :=
  seal16 (trainSync * 2 ^ 66 + t.ttype.toNat * 2 ^ 62 + t.body.toNat * 2 ^ 30 + t.wave.toNat * 2 ^ 27)

/-- The marker a block is accepted as (R90). -/
def acceptMarker (b : Block) : Option Marker :=
  (acceptFive (fun w => w / 2 ^ 66 == markerSync && w % 2 ^ 32 == wordCrc32 w) b).map fun w =>
    { mcount := BitVec.ofNat 16 (w / 2 ^ 50), lane := BitVec.ofNat 3 (w / 2 ^ 47), width := BitVec.ofNat 2 (w / 2 ^ 45)
      wave := BitVec.ofNat 3 (w / 2 ^ 42), rstr := bitAt w 41 }

/-- The link-control word of a spare idle block (R91). -/
def acceptSpare (b : Block) : Option (BitVec 16) :=
  (acceptFive (fun w => w / 2 ^ 66 == spareSync && w % 2 ^ 32 == wordCrc32 w) b).map fun w => BitVec.ofNat 16 (w / 2 ^ 50)

/-- The training word a block is accepted as (R120). -/
def acceptTrain (b : Block) : Option TrainWord :=
  (acceptFive (fun w => w / 2 ^ 66 == trainSync && w % 2 ^ 16 == wordCrc16 w) b).map fun w =>
    { ttype := BitVec.ofNat 4 (w / 2 ^ 62), body := BitVec.ofNat 32 (w / 2 ^ 30), wave := BitVec.ofNat 3 (w / 2 ^ 27) }

/-- One period of the wake pattern: a 10 MHz square wave (R92). -/
def wakePeriod : List Pam := List.replicate 5664 .p3 ++ List.replicate 5664 .m3

end Sys2Proof.Machine
end

