-- ==== Sys2Proof/Config.lean ====
section
/-! DEFINITION. What is fixed for the machine and what the manual leaves open: the free values are opaque
constants with no body, so no proof can see what they are (assumption log, entries 5 and 7). -/

namespace Sys2Proof.Config

/-- A fresh value for each read of what the manual leaves open; the argument is the state's counter
`freeCount`, read and advanced by the meaning that uses it (log entry 5). -/
opaque free64 : Nat → BitVec 64
/-- A fresh byte string of the length asked for, the second argument (contents the manual leaves open). -/
opaque freeBytes : Nat → Nat → List (BitVec 8)
/-- SHA-512 of a byte string (16: IMAGE_ID and measurements name the standard; log entry 7). -/
opaque sha512 : List (BitVec 8) → BitVec 512
/-- Does the Ed25519ph signature of a firmware image verify under the image key of the boot ROM (R559)? -/
opaque imageSigOk : List (BitVec 8) → Bool
/-- Does the Ed25519ph signature of a licence verify under the licence key of the boot ROM (R571)? -/
opaque licenceSigOk : List (BitVec 8) → Bool
/-- The 32 bytes of the secret that the SRAM PUF gives this device (R566). -/
opaque pufSecret : List (BitVec 8)
/-- The public key that Ed25519 derives from a seed, byte 0 lowest (RFC 8032; log entry 7). -/
opaque ed25519Public : List (BitVec 8) → BitVec 256
/-- The Ed25519 signature that the key of a seed makes over a message, byte 0 lowest. -/
opaque ed25519Sign : List (BitVec 8) → List (BitVec 8) → BitVec 512
/-- The identity certificate chain of the factory records (R567). -/
opaque certChain : List (BitVec 8)
/-- The factory defect map as it is measured (R570). -/
opaque factoryDefects : List (BitVec 8)
/-- The output power of a laser module's wavelength in the factory record (R46), by module, output fibre and wavelength
index; the record gives no unit. -/
opaque laserPower : Nat → Nat → Nat → Nat
/-- The factory weight of a unit's activity in the governor's estimate (R528), by domain, in 0.1 W. -/
opaque govWeight : Nat → Nat
/-- The margin of a scan, from the steps done in each of its two directions (R607). -/
opaque margin : Nat → Nat → BitVec 8
/-- Does what has arrived of a state image, by chunk, name partition k? The image encoding is private (R594). -/
opaque xferNames : List (Nat × List (BitVec 8)) → Nat → Bool
/-- An SPDM response: the encoding of the DMTF standard that the manual names (R568), from the response code, the
request and what the response carries. -/
opaque spdmMessage : Nat → List (BitVec 8) → List (BitVec 8) → List (BitVec 8)

end Sys2Proof.Config
end

