-- ==== Sys2Proof/Machine/Tbl.lean ====
section
/-! DEFINITION. Sparse tables: the instances of a unit (ports, tiles, contexts, registers, bytes of
memory) as a list of (key, value) pairs in one canonical form: keys strictly rising, and no entry equal
to what an unlisted key reads as. Equal contents are equal lists. -/

namespace Sys2Proof.Machine

/-- A sparse table over natural-number keys. -/
abbrev Tbl (α : Type) := List (Nat × α)

/-- What the table holds at key k; d is what an unlisted key reads as. -/
def tblGet {α : Type} (d : α) : Tbl α → Nat → α
  | [], _ => d
  | (k', v) :: t, k => if k' = k then v else tblGet d t k

/-- The table with every entry of key k removed. -/
def tblErase {α : Type} (k : Nat) : Tbl α → Tbl α
  | [] => []
  | (k', v) :: t => if k' = k then tblErase k t else (k', v) :: tblErase k t

/-- The table with v entered at key k, in order. -/
def tblInsert {α : Type} (k : Nat) (v : α) : Tbl α → Tbl α
  | [] => [(k, v)]
  | (k', v') :: t =>
    if k < k' then (k, v) :: (k', v') :: t
    else if k = k' then (k, v) :: t
    else (k', v') :: tblInsert k v t

/-- The table with v at key k, in canonical form: writing the default d removes the entry. -/
def tblPut {α : Type} [DecidableEq α] (d : α) (k : Nat) (v : α) (t : Tbl α) : Tbl α :=
  if v = d then tblErase k t else tblInsert k v t

/-- The table with every entry dropped whose key satisfies p: those keys read as the default again. -/
def tblDrop {α : Type} (p : Nat → Bool) (t : Tbl α) : Tbl α := t.filter fun e => !(p e.1)

/-- The table with f applied to every listed entry, in canonical form (unlisted keys keep the default). -/
def tblMap {α : Type} [DecidableEq α] (d : α) (f : Nat → α → α) (t : Tbl α) : Tbl α :=
  t.foldr (fun e acc => tblPut d e.1 (f e.1 e.2) acc) []

/-- Every key of t lies above lo. -/
def tblAbove {α : Type} (lo : Nat) : Tbl α → Bool
  | [] => true
  | (k, _) :: t => decide (lo < k) && tblAbove k t

/-- Keys strictly rising. -/
def tblRising {α : Type} : Tbl α → Bool
  | [] => true
  | (k, _) :: t => tblAbove k t

/-- The canonical form: keys strictly rising and no entry equal to the default. -/
def tblWf {α : Type} [DecidableEq α] (d : α) (t : Tbl α) : Bool :=
  tblRising t && t.all fun e => !(decide (e.2 = d))

end Sys2Proof.Machine
end

