-- ==== Sys2Proof/Machine/RegMap.lean ====
section
/-! DEFINITION. The register map: every register the manual gives a field map, with its offset and
strides in BAR0 (R618, R627-R635), its scope (R624), its width (R620) and its fields with their
accesses (R7, R8) and reset values (R626). -/

namespace Sys2Proof.Machine

/-- The registers of the manual, by their manual names. -/
inductive RegName where
  | CORE_D2D_STAT
  | PWR_D2D_MW
  | OPT_ELS_STAT
  | PORT_BER_CFG
  | PORT_MODE
  | PORT_CTRL
  | PORT_OSTAT
  | PORT_LANEMAP
  | PORT_STEER_CNT
  | PORT_RESTRIPE_CNT
  | PORT_TRAIN_FAIL_CNT
  | PORT_LOS_CNT
  | OPT_CUT_CNT
  | OPT_PROBE_CNT
  | PORT_LSTAT
  | PORT_VL_CREDIT
  | PORT_VL_AVAIL
  | PORT_PROTO_CAP
  | PORT_FEC_CORR_CNT
  | PORT_FEC_UNCORR_CNT
  | PORT_LANE_SYMERR_CNT
  | PORT_CRC_ERR_CNT
  | PORT_STOMP_RX_CNT
  | PORT_STOMP_TX_CNT
  | PORT_NAK_TX_CNT
  | PORT_NAK_RX_CNT
  | PORT_REPLAY_CNT
  | PORT_DUP_CNT
  | PORT_PROTO_ERR_CNT
  | PORT_REPLAY_LOST_CNT
  | PORT_LC_BAD_CNT
  | CORE_FWD
  | CORE_PSET
  | CORE_MCG
  | CORE_CTX
  | CORE_PORT_PART
  | CORE_CTRL
  | CORE_SELF
  | CORE_LB_CFG
  | CORE_RESEQ_CFG
  | CORE_EXP_CFG
  | CORE_PORT_DELAY
  | CORE_SLOT_STAT
  | CORE_TBL_CFG
  | CORE_TBL_STAT
  | CORE_NOROUTE_CNT
  | CORE_PART_DROP_CNT
  | CORE_CTX_DROP_CNT
  | CORE_EXP_ONSLOT_CNT
  | CORE_EXP_OFFSLOT_CNT
  | CORE_EXP_DENIED_CNT
  | CORE_LB_DYN_CNT
  | CORE_RESEQ_GAP_CNT
  | CORE_RESEQ_LATE_CNT
  | CORE_RESEQ_FULL_CNT
  | CORE_SLOT_ADJ_CNT
  | CORE_TBL_TIMEOUT_CNT
  | CORE_TBL_WR_IGN_CNT
  | CORE_INT_DROP_CNT
  | QOS_CLASS
  | QOS_QCFG
  | QOS_SHAPE
  | QOS_METER
  | QOS_TELE_CFG
  | QOS_TELE_PMASK
  | MIRR_CTRL
  | MIRR_BASE
  | MIRR_WPTR
  | MIRR_RPTR
  | MIRR_FLT_CFG
  | MIRR_FLT_MATCH
  | MIRR_FLT_MASK
  | MIRR_FLT_PORTS
  | QOS_PDN_CFG
  | QOS_PDN_CTRL
  | QOS_PDN_STAT
  | QOS_BUF_CFG
  | QOS_BUF_STAT
  | QOS_PUSHOUT_CNT
  | QOS_CREDIT_WAIT_CNT
  | QOS_POLICE_CNT
  | QOS_POLICE_DEMOTE_CNT
  | QOS_POLICE_DROP_CNT
  | QOS_PDN_DROP_CNT
  | QOS_TELE_DROP_CNT
  | MIRR_DROP_CNT
  | TILE_PART
  | TILE_CTX_STAT
  | CORE_PEER
  | CORE_TIME_CFG
  | CORE_TIME_STAT
  | CORE_TIME_NOW
  | CORE_BAR
  | CORE_BAR_CHILD
  | CORE_BAR_STAT
  | CORE_BAR_CFG
  | CORE_BAR_ARRIVE
  | TILE_CFG_IGN_CNT
  | TILE_CTX_DROP_CNT
  | TILE_RESIDENT_WAIT_CNT
  | TILE_SPILL_CNT
  | TILE_RESTORE_CNT
  | CORE_TIME_STEP_CNT
  | CORE_BAR_LATE_CNT
  | CORE_BAR_PROTO_CNT
  | SEQ_CFG
  | SEQ_STAT
  | SEQ_HALT
  | SEQ_PMEM_ADDR
  | SEQ_PMEM_DATA
  | SEQ_HALT_CNT
  | SEQ_HAZ_CNT
  | SEQ_YIELD_CNT
  | SEQ_STALL_CNT
  | SEQ_PMEM_CORR_CNT
  | SEQ_LOAD_CNT
  | TILE_ENG_FAULT
  | TILE_ENG_FAULT_ITEM
  | TILE_ENG_STAT
  | SUM_LANE_STAT
  | SUM_CMD_CNT
  | MOVE_CMD_CNT
  | SORT_CMD_CNT
  | SIFT_CMD_CNT
  | MOVE_OOB_CNT
  | SIFT_NAN_CNT
  | TILE_MEM_CORR_CNT
  | TILE_EXC_CFG
  | TILE_CTX_EXC
  | TILE_CTX_EXCCAP
  | TILE_CTX_EXCPOS
  | TILE_CTX_ENC
  | TILE_FORM_CAP
  | TILE_FORM_CAP_OFS
  | TILE_SPARSE_TX_CNT
  | TILE_SPARSE_RX_CNT
  | TILE_P4F_FALLBACK_CNT
  | TILE_FORM_FAULT_CNT
  | SIFT_LENS_SLICE_CNT
  | SIFT_LENS_SEL_CNT
  | SIFT_LENS_AUDIT_CNT
  | SIFT_LENS_CHECK_CNT
  | SIFT_LENS_MISS_CNT
  | TILE_CTX_FA
  | TILE_NDET_CNT
  | TILE_FA_LATE_CNT
  | MEM_GRANT
  | MEM_LAYOUT
  | POOL_CFG
  | POOL_CTRL
  | POOL_STAT
  | MEM_SVC_EXC
  | MEM_ERR_CAP
  | MEM_CORR_CNT
  | MEM_UNCORR_CNT
  | MEM_REFRESH_WAIT_CNT
  | MEM_SVC_REQ_CNT
  | MEM_SVC_ERR_CNT
  | MEM_ACCESS_DENY_CNT
  | POOL_ALLOC_CNT
  | POOL_FREE_CNT
  | POOL_EMPTY_CNT
  | POOL_FREE_ERR_CNT
  | HOST_CR_BASE
  | HOST_CR_CFG
  | HOST_CR_START
  | HOST_CR_CTRL
  | HOST_CR_SEQ
  | HOST_CR_STAT
  | HOST_JSEQ
  | HOST_CQ_BASE
  | HOST_EQ_BASE
  | HOST_CQ_CFG
  | HOST_EQ_CFG
  | HOST_EVT_MAP
  | HOST_KICK
  | HOST_DB_BASE
  | HOST_DB_CFG
  | HOST_SB_BASE
  | HOST_TELE_BASE
  | HOST_TELE_CFG
  | HOST_WIN_CFG
  | HOST_EPOCH
  | HOST_OWN
  | HOST_OWN_CTRL
  | HOST_PART_OWN
  | HOST_LEVEL
  | HOST_QMR_STAT
  | HOST_KICK_CNT
  | HOST_POLL_CNT
  | HOST_DESC_CNT
  | HOST_CQ_FULL_CNT
  | HOST_EVT_DROP_CNT
  | HOST_WIN_DENY_CNT
  | HOST_WR_IGN_CNT
  | HOST_OWN_REFUSE_CNT
  | PWR_STAT
  | PWR_CFG
  | PWR_DOM_STAT
  | PWR_DOM_CTRL
  | PWR_DOZE_EN
  | PWR_GOV_CFG
  | PWR_GOV_FLOOR
  | PWR_GOV_STAT
  | PWR_REFUSE_CAP
  | PWR_REFUSE_CNT
  | PWR_SUPERSEDE_CNT
  | PWR_DOZE_NAK_CNT
  | PWR_REG_MISS_CNT
  | PWR_WAKE_CNT
  | BOOT_STAT
  | BOOT_CFG
  | BOOT_TILE_MAP
  | BOOT_BCAST_STAT
  | CORE_PART_RST_DROP_CNT
  | BOOT_BCAST_DUP_CNT
  | SEC_STAT
  | SEC_ID_PUB
  | SEC_STAGE_STAT
  | SEC_JRNL_STAT
  | SEC_SIG_FAIL_CNT
  | SEC_SPDM_ERR_CNT
  | SEC_JRNL_TORN_CNT
  | SEC_JRNL_SKIP_CNT
  | LOUPE_CTRL
  | LOUPE_BASE
  | LOUPE_WPTR
  | LOUPE_RPTR
  | LOUPE_FILT
  | FLT_STATUS
  | FLT_FM_CFG
  | FLT_FM_PORTS
  | FLT_FM_STAT
  | FLT_FENCE
  | FLT_XFER_CFG
  | FLT_SC_CFG
  | FLT_SC_STAT
  | FLT_MAINT_STAT
  | FLT_LINK_ERR_CNT
  | FLT_FM_REJ_CNT
  | FLT_FENCE_DROP_CNT
  | FLT_XFER_REJ_CNT
  | FLT_MAINT_REFUSE_CNT
  | LOUPE_DROP_CNT
  | CORE_D2D_RETRY_CNT
  | CORE_D2D_CRC_CNT
  | PORT_BER_ERR
  | QOS_QSTAT
  | TILE_EXC_CAP_CNT
  | HOST_ACC_ERR_CNT
  | CORE_DROP_CAP
  deriving DecidableEq, Repr

/-- The access types of the field maps (R7). -/
inductive Acc where
  | ro | rw | rc | w1c | wo
  deriving DecidableEq, Repr

/-- The scopes of R624: device-wide, partition-scoped, per function. -/
inductive RegScope where
  | dev | part | fn
  deriving DecidableEq, Repr

/-- One field of a field map: its bits, its access and its reset value. -/
structure FieldInfo where
  hi : Nat
  lo : Nat
  acc : Acc
  rst : Nat
  deriving DecidableEq, Repr

/-- Where a register lies (base + s1 * i + s2 * j in BAR0, i below n1 and j below n2), whether it is 64
bits wide, its scope and its fields; reserved bits are no field. -/
structure RegInfo where
  base : Nat
  s1 : Nat
  n1 : Nat
  s2 : Nat
  n2 : Nat
  wide : Bool
  scope : RegScope
  fields : List FieldInfo
  deriving DecidableEq, Repr

/-- The register map (R627-R635 and the field maps). A reset value that depends on the index, on the
part or on the journal stands as 0 here and is given by `regReset`. -/
def regInfo : RegName → RegInfo
  | .CORE_D2D_STAT => ⟨0x20710, 4, 3, 0, 1, false, .dev,
      [⟨23, 16, .ro, 0⟩, ⟨15, 8, .ro, 0⟩, ⟨2, 2, .w1c, 0⟩, ⟨1, 0, .ro, 0⟩]⟩
  | .PWR_D2D_MW => ⟨0x20700, 4, 3, 0, 1, false, .dev,
      [⟨15, 0, .ro, 0⟩]⟩
  | .OPT_ELS_STAT => ⟨0x120000, 4, 16, 0, 1, false, .dev,
      [⟨26, 26, .ro, 0⟩, ⟨25, 25, .ro, 0⟩, ⟨24, 24, .w1c, 0⟩, ⟨23, 20, .ro, 0⟩, ⟨19, 0, .ro, 0⟩]⟩
  | .PORT_BER_CFG => ⟨0x10a000, 0, 1, 0, 1, false, .dev,
      [⟨23, 20, .rw, 5⟩, ⟨19, 16, .rw, 1⟩, ⟨7, 0, .rw, 0xa⟩]⟩
  | .PORT_MODE => ⟨0x100000, 4, 256, 0, 1, false, .dev,
      [⟨5, 5, .rw, 1⟩, ⟨4, 3, .rw, 1⟩, ⟨2, 1, .rw, 3⟩, ⟨0, 0, .rw, 0⟩]⟩
  | .PORT_CTRL => ⟨0x100400, 4, 256, 0, 1, false, .dev,
      [⟨0, 0, .wo, 0⟩]⟩
  | .PORT_OSTAT => ⟨0x100800, 4, 256, 0, 1, false, .dev,
      [⟨31, 24, .ro, 0⟩, ⟨23, 20, .ro, 1⟩, ⟨19, 18, .ro, 0⟩, ⟨17, 17, .ro, 0⟩, ⟨16, 16, .ro, 0⟩, ⟨15, 11, .ro, 0⟩, ⟨10, 6, .ro, 0⟩, ⟨5, 5, .ro, 0⟩, ⟨4, 4, .ro, 0⟩]⟩
  | .PORT_LANEMAP => ⟨0x100c00, 4, 256, 0, 1, false, .dev,
      [⟨27, 16, .ro, 0xfff⟩, ⟨11, 0, .ro, 0xfff⟩]⟩
  | .PORT_STEER_CNT => ⟨0x110000, 4, 256, 0, 1, false, .dev,
      [⟨31, 0, .rc, 0⟩]⟩
  | .PORT_RESTRIPE_CNT => ⟨0x110400, 4, 256, 0, 1, false, .dev,
      [⟨31, 0, .rc, 0⟩]⟩
  | .PORT_TRAIN_FAIL_CNT => ⟨0x110800, 4, 256, 0, 1, false, .dev,
      [⟨31, 0, .rc, 0⟩]⟩
  | .PORT_LOS_CNT => ⟨0x110c00, 4, 256, 0, 1, false, .dev,
      [⟨31, 0, .rc, 0⟩]⟩
  | .OPT_CUT_CNT => ⟨0x120100, 4, 64, 0, 1, false, .dev,
      [⟨31, 0, .rc, 0⟩]⟩
  | .OPT_PROBE_CNT => ⟨0x120200, 4, 64, 0, 1, false, .dev,
      [⟨31, 0, .rc, 0⟩]⟩
  | .PORT_LSTAT => ⟨0x101000, 4, 256, 0, 1, false, .dev,
      [⟨31, 29, .ro, 0⟩, ⟨28, 28, .ro, 0⟩, ⟨27, 24, .ro, 0⟩, ⟨23, 12, .ro, 0⟩, ⟨11, 0, .ro, 0⟩]⟩
  | .PORT_VL_CREDIT => ⟨0x102000, 0x20, 256, 4, 8, false, .dev,
      [⟨11, 0, .rw, 0⟩]⟩
  | .PORT_VL_AVAIL => ⟨0x104000, 0x20, 256, 4, 8, false, .dev,
      [⟨11, 0, .ro, 0⟩]⟩
  | .PORT_PROTO_CAP => ⟨0x101400, 4, 256, 0, 1, false, .dev,
      [⟨31, 24, .ro, 0⟩, ⟨23, 20, .ro, 0⟩, ⟨19, 17, .ro, 0⟩, ⟨16, 16, .ro, 0⟩, ⟨15, 15, .w1c, 0⟩, ⟨11, 0, .ro, 0⟩]⟩
  | .PORT_FEC_CORR_CNT => ⟨0x111000, 4, 256, 0, 1, false, .dev,
      [⟨31, 0, .rc, 0⟩]⟩
  | .PORT_FEC_UNCORR_CNT => ⟨0x111400, 4, 256, 0, 1, false, .dev,
      [⟨31, 0, .rc, 0⟩]⟩
  | .PORT_LANE_SYMERR_CNT => ⟨0x108000, 0x14, 256, 4, 5, false, .dev,
      [⟨31, 0, .rc, 0⟩]⟩
  | .PORT_CRC_ERR_CNT => ⟨0x111800, 4, 256, 0, 1, false, .dev,
      [⟨31, 0, .rc, 0⟩]⟩
  | .PORT_STOMP_RX_CNT => ⟨0x111c00, 4, 256, 0, 1, false, .dev,
      [⟨31, 0, .rc, 0⟩]⟩
  | .PORT_STOMP_TX_CNT => ⟨0x112000, 4, 256, 0, 1, false, .dev,
      [⟨31, 0, .rc, 0⟩]⟩
  | .PORT_NAK_TX_CNT => ⟨0x112400, 4, 256, 0, 1, false, .dev,
      [⟨31, 0, .rc, 0⟩]⟩
  | .PORT_NAK_RX_CNT => ⟨0x112800, 4, 256, 0, 1, false, .dev,
      [⟨31, 0, .rc, 0⟩]⟩
  | .PORT_REPLAY_CNT => ⟨0x112c00, 4, 256, 0, 1, false, .dev,
      [⟨31, 0, .rc, 0⟩]⟩
  | .PORT_DUP_CNT => ⟨0x113000, 4, 256, 0, 1, false, .dev,
      [⟨31, 0, .rc, 0⟩]⟩
  | .PORT_PROTO_ERR_CNT => ⟨0x113400, 4, 256, 0, 1, false, .dev,
      [⟨31, 0, .rc, 0⟩]⟩
  | .PORT_REPLAY_LOST_CNT => ⟨0x113800, 4, 256, 0, 1, false, .dev,
      [⟨31, 0, .rc, 0⟩]⟩
  | .PORT_LC_BAD_CNT => ⟨0x113c00, 4, 256, 0, 1, false, .dev,
      [⟨31, 0, .rc, 0⟩]⟩
  | .CORE_FWD => ⟨0x800000, 8, 65536, 0, 1, true, .dev,
      [⟨63, 48, .rw, 0⟩, ⟨31, 31, .rw, 0⟩, ⟨30, 29, .rw, 0⟩, ⟨11, 0, .rw, 0⟩]⟩
  | .CORE_PSET => ⟨0x8a8000, 8, 256, 0, 1, true, .dev,
      [⟨34, 32, .rw, 0⟩, ⟨31, 24, .rw, 0⟩, ⟨23, 16, .rw, 0⟩, ⟨15, 8, .rw, 0⟩, ⟨7, 0, .rw, 0⟩]⟩
  | .CORE_MCG => ⟨0x880000, 0x20, 4096, 8, 4, true, .dev,
      [⟨63, 0, .rw, 0⟩]⟩
  | .CORE_CTX => ⟨0x8a0000, 8, 4096, 0, 1, true, .dev,
      [⟨63, 48, .rw, 0⟩, ⟨47, 47, .rw, 0⟩, ⟨46, 43, .rw, 0⟩, ⟨42, 41, .rw, 0⟩, ⟨40, 39, .rw, 0⟩, ⟨38, 34, .rw, 0⟩, ⟨11, 0, .rw, 0⟩]⟩
  | .CORE_PORT_PART => ⟨0x8a8800, 8, 256, 0, 1, true, .dev,
      [⟨15, 0, .rw, 1⟩]⟩
  | .CORE_CTRL => ⟨0x200000, 0, 1, 0, 1, false, .dev,
      [⟨0, 0, .rw, 0⟩]⟩
  | .CORE_SELF => ⟨0x200004, 0, 1, 0, 1, false, .dev,
      [⟨15, 0, .rw, 0⟩]⟩
  | .CORE_LB_CFG => ⟨0x200008, 0, 1, 0, 1, false, .dev,
      [⟨31, 16, .rw, 0⟩, ⟨15, 8, .rw, 0x10⟩, ⟨2, 0, .rw, 0⟩]⟩
  | .CORE_RESEQ_CFG => ⟨0x20000c, 0, 1, 0, 1, false, .dev,
      [⟨15, 0, .rw, 0x800⟩]⟩
  | .CORE_EXP_CFG => ⟨0x201000, 4, 256, 0, 1, false, .dev,
      [⟨0, 0, .rw, 1⟩]⟩
  | .CORE_PORT_DELAY => ⟨0x201400, 4, 256, 0, 1, false, .dev,
      [⟨31, 31, .ro, 0⟩, ⟨23, 0, .ro, 0⟩]⟩
  | .CORE_SLOT_STAT => ⟨0x200010, 0, 1, 0, 1, false, .dev,
      [⟨31, 31, .ro, 0⟩, ⟨30, 30, .w1c, 0⟩, ⟨4, 0, .ro, 0⟩]⟩
  | .CORE_TBL_CFG => ⟨0x200014, 0, 1, 0, 1, false, .dev,
      [⟨15, 0, .rw, 0x64⟩]⟩
  | .CORE_TBL_STAT => ⟨0x200018, 0, 1, 0, 1, false, .dev,
      [⟨3, 0, .ro, 0⟩]⟩
  | .CORE_NOROUTE_CNT => ⟨0x202000, 4, 256, 0, 1, false, .dev,
      [⟨31, 0, .rc, 0⟩]⟩
  | .CORE_PART_DROP_CNT => ⟨0x202400, 4, 256, 0, 1, false, .dev,
      [⟨31, 0, .rc, 0⟩]⟩
  | .CORE_CTX_DROP_CNT => ⟨0x202800, 4, 256, 0, 1, false, .dev,
      [⟨31, 0, .rc, 0⟩]⟩
  | .CORE_EXP_ONSLOT_CNT => ⟨0x202c00, 4, 256, 0, 1, false, .dev,
      [⟨31, 0, .rc, 0⟩]⟩
  | .CORE_EXP_OFFSLOT_CNT => ⟨0x203000, 4, 256, 0, 1, false, .dev,
      [⟨31, 0, .rc, 0⟩]⟩
  | .CORE_EXP_DENIED_CNT => ⟨0x203400, 4, 256, 0, 1, false, .dev,
      [⟨31, 0, .rc, 0⟩]⟩
  | .CORE_LB_DYN_CNT => ⟨0x200080, 0, 1, 0, 1, false, .dev,
      [⟨31, 0, .rc, 0⟩]⟩
  | .CORE_RESEQ_GAP_CNT => ⟨0x204000, 4, 32, 0, 1, false, .dev,
      [⟨31, 0, .rc, 0⟩]⟩
  | .CORE_RESEQ_LATE_CNT => ⟨0x204080, 4, 32, 0, 1, false, .dev,
      [⟨31, 0, .rc, 0⟩]⟩
  | .CORE_RESEQ_FULL_CNT => ⟨0x204100, 4, 32, 0, 1, false, .dev,
      [⟨31, 0, .rc, 0⟩]⟩
  | .CORE_SLOT_ADJ_CNT => ⟨0x200084, 0, 1, 0, 1, false, .dev,
      [⟨31, 0, .rc, 0⟩]⟩
  | .CORE_TBL_TIMEOUT_CNT => ⟨0x200088, 0, 1, 0, 1, false, .dev,
      [⟨31, 0, .rc, 0⟩]⟩
  | .CORE_TBL_WR_IGN_CNT => ⟨0x20008c, 0, 1, 0, 1, false, .dev,
      [⟨31, 0, .rc, 0⟩]⟩
  | .CORE_INT_DROP_CNT => ⟨0x20009c, 0, 1, 0, 1, false, .dev,
      [⟨31, 0, .rc, 0⟩]⟩
  | .QOS_CLASS => ⟨0x326000, 4, 128, 0, 1, false, .dev,
      [⟨8, 8, .rw, 0⟩, ⟨7, 4, .rw, 0⟩, ⟨3, 0, .rw, 0⟩]⟩
  | .QOS_QCFG => ⟨0x300000, 0x40, 256, 4, 16, false, .dev,
      [⟨16, 16, .rw, 0⟩, ⟨15, 12, .rw, 0⟩, ⟨7, 0, .rw, 1⟩]⟩
  | .QOS_SHAPE => ⟨0x304000, 0x40, 256, 4, 16, false, .dev,
      [⟨26, 16, .rw, 0x400⟩, ⟨15, 0, .rw, 0⟩]⟩
  | .QOS_METER => ⟨0x310000, 0x80, 256, 8, 16, true, .dev,
      [⟨37, 36, .rw, 0⟩, ⟨35, 32, .rw, 0⟩, ⟨26, 16, .rw, 0x400⟩, ⟨15, 0, .rw, 0⟩]⟩
  | .QOS_TELE_CFG => ⟨0x326210, 0, 1, 0, 1, false, .dev,
      [⟨31, 31, .rw, 0⟩, ⟨4, 0, .rw, 0x10⟩]⟩
  | .QOS_TELE_PMASK => ⟨0x326220, 8, 4, 0, 1, true, .dev,
      [⟨63, 0, .rw, 0⟩]⟩
  | .MIRR_CTRL => ⟨0x330000, 0, 1, 0, 1, false, .dev,
      [⟨31, 31, .rw, 0⟩, ⟨30, 30, .rw, 0⟩, ⟨29, 29, .rw, 0⟩, ⟨5, 0, .rw, 0x14⟩]⟩
  | .MIRR_BASE => ⟨0x330008, 0, 1, 0, 1, true, .dev,
      [⟨63, 0, .rw, 0⟩]⟩
  | .MIRR_WPTR => ⟨0x330010, 0, 1, 0, 1, true, .dev,
      [⟨63, 0, .ro, 0⟩]⟩
  | .MIRR_RPTR => ⟨0x330018, 0, 1, 0, 1, true, .dev,
      [⟨63, 0, .rw, 0⟩]⟩
  | .MIRR_FLT_CFG => ⟨0x330100, 0x80, 8, 0, 1, false, .dev,
      [⟨31, 31, .rw, 0⟩, ⟨30, 29, .rw, 0⟩, ⟨28, 25, .rw, 0⟩]⟩
  | .MIRR_FLT_MATCH => ⟨0x330120, 0x80, 8, 4, 8, false, .dev,
      [⟨31, 0, .rw, 0⟩]⟩
  | .MIRR_FLT_MASK => ⟨0x330140, 0x80, 8, 4, 8, false, .dev,
      [⟨31, 0, .rw, 0⟩]⟩
  | .MIRR_FLT_PORTS => ⟨0x330160, 0x80, 8, 8, 4, true, .dev,
      [⟨63, 0, .rw, 0⟩]⟩
  | .QOS_PDN_CFG => ⟨0x324000, 4, 256, 0, 1, false, .dev,
      [⟨31, 16, .rw, 0xc00⟩, ⟨15, 0, .rw, 0xc8⟩]⟩
  | .QOS_PDN_CTRL => ⟨0x324400, 4, 256, 0, 1, false, .dev,
      [⟨0, 0, .wo, 0⟩]⟩
  | .QOS_PDN_STAT => ⟨0x324800, 4, 256, 0, 1, false, .dev,
      [⟨31, 30, .ro, 0⟩, ⟨19, 0, .ro, 0⟩]⟩
  | .QOS_BUF_CFG => ⟨0x326200, 0, 1, 0, 1, false, .dev,
      [⟨19, 0, .rw, 0x8000⟩]⟩
  | .QOS_BUF_STAT => ⟨0x326208, 0, 1, 0, 1, true, .dev,
      [⟨59, 40, .ro, 0⟩, ⟨39, 20, .ro, 0⟩, ⟨19, 0, .ro, 0xc0000⟩]⟩
  | .QOS_PUSHOUT_CNT => ⟨0x30c000, 0x40, 256, 4, 16, false, .dev,
      [⟨31, 0, .rc, 0⟩]⟩
  | .QOS_CREDIT_WAIT_CNT => ⟨0x324c00, 4, 256, 0, 1, false, .dev,
      [⟨31, 0, .rc, 0⟩]⟩
  | .QOS_POLICE_CNT => ⟨0x318000, 0x40, 256, 4, 16, false, .dev,
      [⟨31, 0, .rc, 0⟩]⟩
  | .QOS_POLICE_DEMOTE_CNT => ⟨0x31c000, 0x40, 256, 4, 16, false, .dev,
      [⟨31, 0, .rc, 0⟩]⟩
  | .QOS_POLICE_DROP_CNT => ⟨0x320000, 0x40, 256, 4, 16, false, .dev,
      [⟨31, 0, .rc, 0⟩]⟩
  | .QOS_PDN_DROP_CNT => ⟨0x325000, 4, 256, 0, 1, false, .dev,
      [⟨31, 0, .rc, 0⟩]⟩
  | .QOS_TELE_DROP_CNT => ⟨0x326214, 0, 1, 0, 1, false, .dev,
      [⟨31, 0, .rc, 0⟩]⟩
  | .MIRR_DROP_CNT => ⟨0x330020, 0, 1, 0, 1, false, .dev,
      [⟨31, 0, .rc, 0⟩]⟩
  | .TILE_PART => ⟨0x400000, 0x10000, 32, 0, 1, false, .dev,
      [⟨3, 0, .rw, 0⟩]⟩
  | .TILE_CTX_STAT => ⟨0x600000, 8, 4096, 0, 1, true, .part,
      [⟨63, 56, .ro, 0⟩, ⟨55, 40, .ro, 0⟩, ⟨39, 37, .ro, 0⟩, ⟨36, 36, .ro, 0⟩, ⟨35, 31, .ro, 0⟩, ⟨15, 0, .ro, 0⟩]⟩
  | .CORE_PEER => ⟨0x201800, 4, 256, 0, 1, false, .dev,
      [⟨31, 31, .ro, 0⟩, ⟨15, 0, .ro, 0⟩]⟩
  | .CORE_TIME_CFG => ⟨0x20001c, 0, 1, 0, 1, false, .dev,
      [⟨31, 31, .rw, 0⟩, ⟨15, 8, .rw, 0x80⟩, ⟨7, 0, .rw, 0xa⟩]⟩
  | .CORE_TIME_STAT => ⟨0x200020, 0, 1, 0, 1, true, .dev,
      [⟨63, 63, .ro, 0⟩, ⟨62, 62, .w1c, 0⟩, ⟨55, 48, .ro, 0xff⟩, ⟨47, 40, .ro, 0⟩, ⟨31, 0, .ro, 0⟩]⟩
  | .CORE_TIME_NOW => ⟨0x200028, 0, 1, 0, 1, true, .dev,
      [⟨63, 0, .ro, 0⟩]⟩
  | .CORE_BAR => ⟨0x208000, 0x40, 256, 0, 1, false, .part,
      [⟨31, 31, .rw, 0⟩, ⟨30, 30, .rw, 0⟩, ⟨29, 29, .rw, 0⟩, ⟨27, 24, .rw, 0⟩, ⟨23, 16, .rw, 0⟩]⟩
  | .CORE_BAR_CHILD => ⟨0x208008, 0x40, 256, 8, 4, true, .part,
      [⟨63, 0, .rw, 0⟩]⟩
  | .CORE_BAR_STAT => ⟨0x208004, 0x40, 256, 0, 1, false, .part,
      [⟨31, 31, .ro, 0⟩, ⟨30, 29, .ro, 0⟩, ⟨23, 16, .ro, 0⟩, ⟨15, 0, .ro, 0⟩]⟩
  | .CORE_BAR_CFG => ⟨0x200038, 0, 1, 0, 1, false, .dev,
      [⟨31, 16, .rw, 0x64⟩, ⟨15, 0, .rw, 0x14⟩]⟩
  | .CORE_BAR_ARRIVE => ⟨0x20003c, 0, 1, 0, 1, false, .part,
      [⟨7, 0, .wo, 0⟩]⟩
  | .TILE_CFG_IGN_CNT => ⟨0x400100, 0x10000, 32, 0, 1, false, .part,
      [⟨31, 0, .rc, 0⟩]⟩
  | .TILE_CTX_DROP_CNT => ⟨0x400104, 0x10000, 32, 0, 1, false, .part,
      [⟨31, 0, .rc, 0⟩]⟩
  | .TILE_RESIDENT_WAIT_CNT => ⟨0x400108, 0x10000, 32, 0, 1, false, .part,
      [⟨31, 0, .rc, 0⟩]⟩
  | .TILE_SPILL_CNT => ⟨0x40010c, 0x10000, 32, 0, 1, false, .part,
      [⟨31, 0, .rc, 0⟩]⟩
  | .TILE_RESTORE_CNT => ⟨0x400110, 0x10000, 32, 0, 1, false, .part,
      [⟨31, 0, .rc, 0⟩]⟩
  | .CORE_TIME_STEP_CNT => ⟨0x200090, 0, 1, 0, 1, false, .dev,
      [⟨31, 0, .rc, 0⟩]⟩
  | .CORE_BAR_LATE_CNT => ⟨0x200094, 0, 1, 0, 1, false, .dev,
      [⟨31, 0, .rc, 0⟩]⟩
  | .CORE_BAR_PROTO_CNT => ⟨0x200098, 0, 1, 0, 1, false, .dev,
      [⟨31, 0, .rc, 0⟩]⟩
  | .SEQ_CFG => ⟨0x400004, 0x10000, 32, 0, 1, false, .part,
      [⟨31, 16, .rw, 0⟩, ⟨1, 0, .rw, 0⟩]⟩
  | .SEQ_STAT => ⟨0x400008, 0x10000, 32, 0, 1, false, .part,
      [⟨31, 31, .ro, 0⟩, ⟨30, 30, .ro, 0⟩, ⟨29, 26, .ro, 0⟩, ⟨25, 25, .ro, 0⟩, ⟨23, 12, .ro, 0⟩, ⟨11, 0, .ro, 0⟩]⟩
  | .SEQ_HALT => ⟨0x400010, 0x10000, 32, 0, 1, true, .part,
      [⟨63, 56, .ro, 0⟩, ⟨55, 40, .ro, 0⟩, ⟨39, 28, .ro, 0⟩, ⟨27, 16, .ro, 0⟩, ⟨15, 15, .w1c, 0⟩, ⟨14, 12, .ro, 0⟩]⟩
  | .SEQ_PMEM_ADDR => ⟨0x400018, 0x10000, 32, 0, 1, false, .part,
      [⟨11, 0, .rw, 0⟩]⟩
  | .SEQ_PMEM_DATA => ⟨0x400020, 0x10000, 32, 4, 4, false, .part,
      [⟨31, 0, .ro, 0⟩]⟩
  | .SEQ_HALT_CNT => ⟨0x400114, 0x10000, 32, 0, 1, false, .part,
      [⟨31, 0, .rc, 0⟩]⟩
  | .SEQ_HAZ_CNT => ⟨0x400118, 0x10000, 32, 0, 1, false, .part,
      [⟨31, 0, .rc, 0⟩]⟩
  | .SEQ_YIELD_CNT => ⟨0x40011c, 0x10000, 32, 0, 1, false, .part,
      [⟨31, 0, .rc, 0⟩]⟩
  | .SEQ_STALL_CNT => ⟨0x400120, 0x10000, 32, 0, 1, false, .part,
      [⟨31, 0, .rc, 0⟩]⟩
  | .SEQ_PMEM_CORR_CNT => ⟨0x400124, 0x10000, 32, 0, 1, false, .part,
      [⟨31, 0, .rc, 0⟩]⟩
  | .SEQ_LOAD_CNT => ⟨0x400128, 0x10000, 32, 0, 1, false, .part,
      [⟨31, 0, .rc, 0⟩]⟩
  | .TILE_ENG_FAULT => ⟨0x400038, 0x10000, 32, 0, 1, true, .part,
      [⟨63, 56, .ro, 0⟩, ⟨55, 40, .ro, 0⟩, ⟨39, 28, .ro, 0⟩, ⟨27, 16, .ro, 0⟩, ⟨15, 15, .w1c, 0⟩, ⟨14, 14, .ro, 0⟩, ⟨13, 12, .ro, 0⟩, ⟨11, 4, .ro, 0⟩]⟩
  | .TILE_ENG_FAULT_ITEM => ⟨0x400040, 0x10000, 32, 0, 1, false, .part,
      [⟨31, 0, .ro, 0⟩]⟩
  | .TILE_ENG_STAT => ⟨0x400034, 0x10000, 32, 0, 1, false, .part,
      [⟨31, 26, .ro, 0⟩, ⟨25, 20, .ro, 0⟩, ⟨19, 14, .ro, 0⟩, ⟨13, 8, .ro, 0⟩, ⟨7, 4, .ro, 0⟩]⟩
  | .SUM_LANE_STAT => ⟨0x400044, 0x10000, 32, 0, 1, false, .part,
      [⟨7, 0, .ro, 0⟩]⟩
  | .SUM_CMD_CNT => ⟨0x40012c, 0x10000, 32, 0, 1, false, .part,
      [⟨31, 0, .rc, 0⟩]⟩
  | .MOVE_CMD_CNT => ⟨0x400130, 0x10000, 32, 0, 1, false, .part,
      [⟨31, 0, .rc, 0⟩]⟩
  | .SORT_CMD_CNT => ⟨0x400134, 0x10000, 32, 0, 1, false, .part,
      [⟨31, 0, .rc, 0⟩]⟩
  | .SIFT_CMD_CNT => ⟨0x400138, 0x10000, 32, 0, 1, false, .part,
      [⟨31, 0, .rc, 0⟩]⟩
  | .MOVE_OOB_CNT => ⟨0x40013c, 0x10000, 32, 0, 1, false, .part,
      [⟨31, 0, .rc, 0⟩]⟩
  | .SIFT_NAN_CNT => ⟨0x400140, 0x10000, 32, 0, 1, false, .part,
      [⟨31, 0, .rc, 0⟩]⟩
  | .TILE_MEM_CORR_CNT => ⟨0x400144, 0x10000, 32, 0, 1, false, .part,
      [⟨31, 0, .rc, 0⟩]⟩
  | .TILE_EXC_CFG => ⟨0x400030, 0x10000, 32, 0, 1, false, .part,
      [⟨4, 4, .rw, 0⟩, ⟨3, 0, .rw, 0xc⟩]⟩
  | .TILE_CTX_EXC => ⟨0x608000, 4, 4096, 0, 1, false, .part,
      [⟨7, 4, .w1c, 0⟩, ⟨3, 0, .w1c, 0⟩]⟩
  | .TILE_CTX_EXCCAP => ⟨0x620000, 0x10, 4096, 8, 2, true, .part,
      [⟨63, 48, .ro, 0⟩, ⟨47, 40, .ro, 0⟩, ⟨31, 16, .ro, 0⟩, ⟨15, 15, .w1c, 0⟩, ⟨14, 14, .ro, 0⟩, ⟨11, 8, .ro, 0⟩]⟩
  | .TILE_CTX_EXCPOS => ⟨0x630000, 0x10, 4096, 8, 2, true, .part,
      [⟨63, 32, .ro, 0⟩, ⟨31, 0, .ro, 0⟩]⟩
  | .TILE_CTX_ENC => ⟨0x60c000, 4, 4096, 0, 1, false, .part,
      [⟨3, 2, .rw, 0⟩, ⟨1, 0, .rw, 0⟩]⟩
  | .TILE_FORM_CAP => ⟨0x400048, 0x10000, 32, 0, 1, true, .part,
      [⟨63, 56, .ro, 0⟩, ⟨55, 44, .ro, 0⟩, ⟨43, 28, .ro, 0⟩, ⟨27, 26, .ro, 0⟩, ⟨15, 15, .w1c, 0⟩, ⟨7, 0, .ro, 0⟩]⟩
  | .TILE_FORM_CAP_OFS => ⟨0x400050, 0x10000, 32, 0, 1, false, .part,
      [⟨31, 0, .ro, 0⟩]⟩
  | .TILE_SPARSE_TX_CNT => ⟨0x400180, 0x10000, 32, 4, 3, false, .part,
      [⟨31, 0, .rc, 0⟩]⟩
  | .TILE_SPARSE_RX_CNT => ⟨0x400190, 0x10000, 32, 4, 3, false, .part,
      [⟨31, 0, .rc, 0⟩]⟩
  | .TILE_P4F_FALLBACK_CNT => ⟨0x40014c, 0x10000, 32, 0, 1, false, .part,
      [⟨31, 0, .rc, 0⟩]⟩
  | .TILE_FORM_FAULT_CNT => ⟨0x400150, 0x10000, 32, 0, 1, false, .part,
      [⟨31, 0, .rc, 0⟩]⟩
  | .SIFT_LENS_SLICE_CNT => ⟨0x400154, 0x10000, 32, 0, 1, false, .part,
      [⟨31, 0, .rc, 0⟩]⟩
  | .SIFT_LENS_SEL_CNT => ⟨0x400158, 0x10000, 32, 0, 1, false, .part,
      [⟨31, 0, .rc, 0⟩]⟩
  | .SIFT_LENS_AUDIT_CNT => ⟨0x40015c, 0x10000, 32, 0, 1, false, .part,
      [⟨31, 0, .rc, 0⟩]⟩
  | .SIFT_LENS_CHECK_CNT => ⟨0x400160, 0x10000, 32, 0, 1, false, .part,
      [⟨31, 0, .rc, 0⟩]⟩
  | .SIFT_LENS_MISS_CNT => ⟨0x400164, 0x10000, 32, 0, 1, false, .part,
      [⟨31, 0, .rc, 0⟩]⟩
  | .TILE_CTX_FA => ⟨0x610000, 4, 4096, 0, 1, false, .part,
      [⟨31, 16, .ro, 0⟩, ⟨14, 8, .rw, 0⟩, ⟨1, 0, .rw, 0⟩]⟩
  | .TILE_NDET_CNT => ⟨0x400168, 0x10000, 32, 0, 1, false, .part,
      [⟨31, 0, .rc, 0⟩]⟩
  | .TILE_FA_LATE_CNT => ⟨0x40016c, 0x10000, 32, 0, 1, false, .part,
      [⟨31, 0, .rc, 0⟩]⟩
  | .MEM_GRANT => ⟨0x700200, 0x80000, 2, 8, 64, true, .dev,
      [⟨63, 48, .rw, 0⟩, ⟨47, 47, .rw, 0⟩, ⟨46, 46, .rw, 0⟩, ⟨45, 45, .rw, 0⟩, ⟨29, 16, .rw, 0⟩, ⟨13, 0, .rw, 0⟩]⟩
  | .MEM_LAYOUT => ⟨0x700000, 0x80000, 2, 0, 1, false, .dev,
      [⟨5, 0, .rw, 0x10⟩]⟩
  | .POOL_CFG => ⟨0x700010, 0x80000, 2, 4, 4, false, .dev,
      [⟨20, 0, .rw, 0⟩]⟩
  | .POOL_CTRL => ⟨0x700004, 0x80000, 2, 0, 1, false, .dev,
      [⟨0, 0, .rw, 0⟩]⟩
  | .POOL_STAT => ⟨0x700020, 0x80000, 2, 4, 5, false, .dev,
      [⟨31, 30, .ro, 0⟩, ⟨20, 0, .ro, 0⟩]⟩
  | .MEM_SVC_EXC => ⟨0x700080, 0x80000, 2, 4, 16, false, .part,
      [⟨3, 0, .w1c, 0⟩]⟩
  | .MEM_ERR_CAP => ⟨0x700040, 0x80000, 2, 0, 1, true, .dev,
      [⟨63, 32, .ro, 0⟩, ⟨31, 28, .ro, 0⟩, ⟨27, 25, .ro, 0⟩, ⟨24, 24, .ro, 0⟩, ⟨23, 16, .ro, 0⟩, ⟨15, 15, .w1c, 0⟩]⟩
  | .MEM_CORR_CNT => ⟨0x700060, 0x80000, 2, 4, 2, false, .dev,
      [⟨31, 0, .rc, 0⟩]⟩
  | .MEM_UNCORR_CNT => ⟨0x700068, 0x80000, 2, 4, 2, false, .dev,
      [⟨31, 0, .rc, 0⟩]⟩
  | .MEM_REFRESH_WAIT_CNT => ⟨0x700048, 0x80000, 2, 0, 1, false, .dev,
      [⟨31, 0, .rc, 0⟩]⟩
  | .MEM_SVC_REQ_CNT => ⟨0x70004c, 0x80000, 2, 0, 1, false, .dev,
      [⟨31, 0, .rc, 0⟩]⟩
  | .MEM_SVC_ERR_CNT => ⟨0x700050, 0x80000, 2, 0, 1, false, .dev,
      [⟨31, 0, .rc, 0⟩]⟩
  | .MEM_ACCESS_DENY_CNT => ⟨0x700054, 0x80000, 2, 0, 1, false, .dev,
      [⟨31, 0, .rc, 0⟩]⟩
  | .POOL_ALLOC_CNT => ⟨0x700100, 0x80000, 2, 4, 5, false, .dev,
      [⟨31, 0, .rc, 0⟩]⟩
  | .POOL_FREE_CNT => ⟨0x700120, 0x80000, 2, 4, 5, false, .dev,
      [⟨31, 0, .rc, 0⟩]⟩
  | .POOL_EMPTY_CNT => ⟨0x700140, 0x80000, 2, 4, 5, false, .dev,
      [⟨31, 0, .rc, 0⟩]⟩
  | .POOL_FREE_ERR_CNT => ⟨0x700058, 0x80000, 2, 0, 1, false, .dev,
      [⟨31, 0, .rc, 0⟩]⟩
  | .HOST_CR_BASE => ⟨0, 0x40, 64, 0, 1, true, .fn,
      [⟨63, 0, .rw, 0⟩]⟩
  | .HOST_CR_CFG => ⟨0x8, 0x40, 64, 0, 1, false, .fn,
      [⟨31, 31, .rw, 0⟩, ⟨20, 16, .rw, 6⟩, ⟨5, 0, .rw, 0⟩]⟩
  | .HOST_CR_START => ⟨0x10, 0x40, 64, 0, 1, true, .fn,
      [⟨63, 32, .rw, 0⟩, ⟨31, 0, .rw, 0⟩]⟩
  | .HOST_CR_CTRL => ⟨0xc, 0x40, 64, 0, 1, false, .fn,
      [⟨1, 1, .wo, 0⟩, ⟨0, 0, .wo, 0⟩]⟩
  | .HOST_CR_SEQ => ⟨0x18, 0x40, 64, 0, 1, true, .fn,
      [⟨63, 32, .ro, 0xffffffff⟩, ⟨31, 0, .ro, 0xffffffff⟩]⟩
  | .HOST_CR_STAT => ⟨0x20, 0x40, 64, 0, 1, true, .fn,
      [⟨63, 32, .ro, 0⟩, ⟨31, 29, .ro, 0⟩, ⟨23, 16, .ro, 0⟩]⟩
  | .HOST_JSEQ => ⟨0x28, 0x40, 64, 0, 1, false, .fn,
      [⟨31, 0, .ro, 0xffffffff⟩]⟩
  | .HOST_CQ_BASE => ⟨0x1000, 0x20, 64, 0, 1, true, .fn,
      [⟨63, 0, .rw, 0⟩]⟩
  | .HOST_EQ_BASE => ⟨0x1800, 0x20, 4, 0, 1, true, .fn,
      [⟨63, 0, .rw, 0⟩]⟩
  | .HOST_CQ_CFG => ⟨0x1008, 0x20, 64, 0, 1, false, .fn,
      [⟨31, 31, .rw, 0⟩, ⟨28, 24, .rw, 6⟩, ⟨23, 16, .rw, 0⟩, ⟨15, 8, .rw, 1⟩, ⟨7, 0, .rw, 0⟩]⟩
  | .HOST_EQ_CFG => ⟨0x1808, 0x20, 4, 0, 1, false, .fn,
      [⟨31, 31, .rw, 0⟩, ⟨28, 24, .rw, 6⟩, ⟨23, 16, .rw, 0⟩, ⟨15, 8, .rw, 1⟩, ⟨7, 0, .rw, 0⟩]⟩
  | .HOST_EVT_MAP => ⟨0x1900, 0, 1, 0, 1, false, .fn,
      [⟨31, 0, .rw, 0⟩]⟩
  | .HOST_KICK => ⟨0, 0, 1, 0, 1, false, .fn,
      [⟨31, 0, .wo, 0⟩]⟩
  | .HOST_DB_BASE => ⟨0x1908, 0, 1, 0, 1, true, .fn,
      [⟨63, 0, .rw, 0⟩]⟩
  | .HOST_DB_CFG => ⟨0x1910, 0, 1, 0, 1, false, .fn,
      [⟨31, 31, .rw, 1⟩, ⟨30, 30, .rw, 0⟩, ⟨25, 16, .rw, 0x280⟩, ⟨9, 0, .rw, 0xa⟩]⟩
  | .HOST_SB_BASE => ⟨0x1918, 0, 1, 0, 1, true, .fn,
      [⟨63, 0, .rw, 0⟩]⟩
  | .HOST_TELE_BASE => ⟨0x1920, 0, 1, 0, 1, true, .fn,
      [⟨63, 0, .rw, 0⟩]⟩
  | .HOST_TELE_CFG => ⟨0x1928, 0, 1, 0, 1, false, .fn,
      [⟨31, 31, .rw, 0⟩, ⟨4, 0, .rw, 6⟩]⟩
  | .HOST_WIN_CFG => ⟨0x1930, 0, 1, 0, 1, false, .fn,
      [⟨31, 31, .rw, 0⟩, ⟨30, 30, .rw, 0⟩, ⟨29, 29, .rw, 0⟩, ⟨19, 16, .rw, 0⟩, ⟨6, 0, .rw, 0⟩]⟩
  | .HOST_EPOCH => ⟨0x1934, 0, 1, 0, 1, false, .fn,
      [⟨31, 0, .ro, 0⟩]⟩
  | .HOST_OWN => ⟨0x1a00, 0, 1, 0, 1, false, .dev,
      [⟨9, 8, .ro, 0⟩, ⟨0, 0, .ro, 0⟩]⟩
  | .HOST_OWN_CTRL => ⟨0x1a04, 0, 1, 0, 1, false, .dev,
      [⟨2, 0, .wo, 0⟩]⟩
  | .HOST_PART_OWN => ⟨0x1a08, 0, 1, 0, 1, false, .dev,
      [⟨31, 0, .rw, 0⟩]⟩
  | .HOST_LEVEL => ⟨0x1a0c, 0, 1, 0, 1, false, .dev,
      [⟨6, 1, .rw, 0⟩]⟩
  | .HOST_QMR_STAT => ⟨0x1a40, 4, 16, 0, 1, false, .dev,
      [⟨31, 30, .ro, 0⟩, ⟨29, 29, .ro, 0⟩, ⟨23, 16, .ro, 0⟩, ⟨15, 0, .ro, 0⟩]⟩
  | .HOST_KICK_CNT => ⟨0x1b00, 0, 1, 0, 1, false, .fn,
      [⟨31, 0, .rc, 0⟩]⟩
  | .HOST_POLL_CNT => ⟨0x1b04, 0, 1, 0, 1, false, .fn,
      [⟨31, 0, .rc, 0⟩]⟩
  | .HOST_DESC_CNT => ⟨0x1b08, 0, 1, 0, 1, false, .fn,
      [⟨31, 0, .rc, 0⟩]⟩
  | .HOST_CQ_FULL_CNT => ⟨0x1c00, 4, 64, 0, 1, false, .fn,
      [⟨31, 0, .rc, 0⟩]⟩
  | .HOST_EVT_DROP_CNT => ⟨0x1d00, 4, 4, 0, 1, false, .fn,
      [⟨31, 0, .rc, 0⟩]⟩
  | .HOST_WIN_DENY_CNT => ⟨0x1b0c, 0, 1, 0, 1, false, .fn,
      [⟨31, 0, .rc, 0⟩]⟩
  | .HOST_WR_IGN_CNT => ⟨0x1b10, 0, 1, 0, 1, false, .fn,
      [⟨31, 0, .rc, 0⟩]⟩
  | .HOST_OWN_REFUSE_CNT => ⟨0x1b14, 0, 1, 0, 1, false, .dev,
      [⟨31, 0, .rc, 0⟩]⟩
  | .PWR_STAT => ⟨0x20000, 0, 1, 0, 1, false, .dev,
      [⟨9, 9, .ro, 0⟩, ⟨8, 8, .ro, 0⟩, ⟨7, 6, .ro, 0⟩, ⟨5, 4, .ro, 0⟩, ⟨1, 0, .ro, 0⟩]⟩
  | .PWR_CFG => ⟨0x20004, 0, 1, 0, 1, false, .dev,
      [⟨31, 24, .rw, 0xa⟩, ⟨23, 12, .rw, 0x64⟩, ⟨11, 0, .rw, 0x32⟩]⟩
  | .PWR_DOM_STAT => ⟨0x20100, 4, 87, 0, 1, false, .dev,
      [⟨7, 7, .ro, 0⟩, ⟨6, 6, .ro, 0⟩, ⟨2, 0, .ro, 2⟩]⟩
  | .PWR_DOM_CTRL => ⟨0x20300, 4, 87, 0, 1, false, .dev,
      [⟨0, 0, .wo, 0⟩]⟩
  | .PWR_DOZE_EN => ⟨0x20040, 8, 4, 0, 1, true, .dev,
      [⟨63, 0, .rw, 0⟩]⟩
  | .PWR_GOV_CFG => ⟨0x20008, 0, 1, 0, 1, false, .dev,
      [⟨31, 31, .rw, 1⟩, ⟨25, 20, .rw, 4⟩, ⟨19, 10, .rw, 0xa⟩, ⟨9, 0, .rw, 0xa⟩]⟩
  | .PWR_GOV_FLOOR => ⟨0x2000c, 0, 1, 0, 1, false, .dev,
      [⟨7, 0, .rw, 0⟩]⟩
  | .PWR_GOV_STAT => ⟨0x20010, 0, 1, 0, 1, false, .dev,
      [⟨31, 16, .ro, 0⟩, ⟨15, 0, .ro, 0⟩]⟩
  | .PWR_REFUSE_CAP => ⟨0x20014, 0, 1, 0, 1, false, .dev,
      [⟨31, 24, .ro, 0⟩, ⟨23, 21, .ro, 0⟩, ⟨20, 20, .ro, 0⟩, ⟨19, 18, .ro, 0⟩, ⟨17, 17, .w1c, 0⟩, ⟨15, 0, .ro, 0⟩]⟩
  | .PWR_REFUSE_CNT => ⟨0x20060, 4, 6, 0, 1, false, .dev,
      [⟨31, 0, .rc, 0⟩]⟩
  | .PWR_SUPERSEDE_CNT => ⟨0x20018, 0, 1, 0, 1, false, .dev,
      [⟨31, 0, .rc, 0⟩]⟩
  | .PWR_DOZE_NAK_CNT => ⟨0x2001c, 0, 1, 0, 1, false, .dev,
      [⟨31, 0, .rc, 0⟩]⟩
  | .PWR_REG_MISS_CNT => ⟨0x20020, 0, 1, 0, 1, false, .dev,
      [⟨31, 0, .rc, 0⟩]⟩
  | .PWR_WAKE_CNT => ⟨0x20500, 4, 87, 0, 1, false, .dev,
      [⟨31, 0, .rc, 0⟩]⟩
  | .BOOT_STAT => ⟨0x10000, 0, 1, 0, 1, false, .dev,
      [⟨31, 31, .ro, 0⟩, ⟨30, 30, .ro, 0⟩, ⟨29, 29, .ro, 0⟩, ⟨28, 28, .ro, 0⟩, ⟨27, 24, .ro, 0⟩, ⟨23, 16, .ro, 0⟩, ⟨15, 8, .ro, 0⟩]⟩
  | .BOOT_CFG => ⟨0x10004, 0, 1, 0, 1, false, .dev,
      [⟨15, 8, .rw, 0xa⟩, ⟨0, 0, .rw, 1⟩]⟩
  | .BOOT_TILE_MAP => ⟨0x10008, 0, 1, 0, 1, true, .dev,
      [⟨63, 32, .ro, 0⟩, ⟨13, 13, .ro, 0⟩, ⟨12, 8, .ro, 0⟩, ⟨5, 5, .ro, 0⟩, ⟨4, 0, .ro, 0⟩]⟩
  | .BOOT_BCAST_STAT => ⟨0x10010, 0, 1, 0, 1, true, .dev,
      [⟨63, 32, .ro, 0⟩, ⟨31, 30, .ro, 0⟩, ⟨23, 0, .ro, 0⟩]⟩
  | .CORE_PART_RST_DROP_CNT => ⟨0x203800, 4, 256, 0, 1, false, .dev,
      [⟨31, 0, .rc, 0⟩]⟩
  | .BOOT_BCAST_DUP_CNT => ⟨0x10018, 0, 1, 0, 1, false, .dev,
      [⟨31, 0, .rc, 0⟩]⟩
  | .SEC_STAT => ⟨0x10100, 0, 1, 0, 1, false, .dev,
      [⟨31, 28, .ro, 0xf⟩, ⟨27, 27, .ro, 0⟩, ⟨26, 26, .ro, 0⟩, ⟨25, 25, .ro, 0⟩, ⟨24, 24, .ro, 0⟩, ⟨23, 18, .ro, 0⟩, ⟨17, 12, .ro, 0⟩]⟩
  | .SEC_ID_PUB => ⟨0x10120, 4, 8, 0, 1, false, .dev,
      [⟨31, 0, .ro, 0⟩]⟩
  | .SEC_STAGE_STAT => ⟨0x10104, 0, 1, 0, 1, false, .dev,
      [⟨31, 29, .ro, 0⟩, ⟨25, 0, .ro, 0⟩]⟩
  | .SEC_JRNL_STAT => ⟨0x10108, 0, 1, 0, 1, true, .dev,
      [⟨63, 32, .ro, 0⟩, ⟨31, 31, .ro, 0⟩, ⟨30, 30, .ro, 0⟩, ⟨29, 15, .ro, 0⟩, ⟨14, 0, .ro, 0⟩]⟩
  | .SEC_SIG_FAIL_CNT => ⟨0x10140, 0, 1, 0, 1, false, .dev,
      [⟨31, 0, .rc, 0⟩]⟩
  | .SEC_SPDM_ERR_CNT => ⟨0x10144, 0, 1, 0, 1, false, .dev,
      [⟨31, 0, .rc, 0⟩]⟩
  | .SEC_JRNL_TORN_CNT => ⟨0x10148, 0, 1, 0, 1, false, .dev,
      [⟨31, 0, .rc, 0⟩]⟩
  | .SEC_JRNL_SKIP_CNT => ⟨0x1014c, 0, 1, 0, 1, false, .dev,
      [⟨31, 0, .rc, 0⟩]⟩
  | .LOUPE_CTRL => ⟨0x331000, 0, 1, 0, 1, false, .dev,
      [⟨31, 31, .rw, 0⟩, ⟨30, 30, .rw, 0⟩, ⟨29, 29, .rw, 0⟩, ⟨13, 6, .rw, 0xff⟩, ⟨5, 0, .rw, 0x14⟩]⟩
  | .LOUPE_BASE => ⟨0x331008, 0, 1, 0, 1, true, .dev,
      [⟨63, 0, .rw, 0⟩]⟩
  | .LOUPE_WPTR => ⟨0x331010, 0, 1, 0, 1, true, .dev,
      [⟨63, 0, .ro, 0⟩]⟩
  | .LOUPE_RPTR => ⟨0x331018, 0, 1, 0, 1, true, .dev,
      [⟨63, 0, .rw, 0⟩]⟩
  | .LOUPE_FILT => ⟨0x331020, 0, 1, 0, 1, true, .dev,
      [⟨63, 32, .rw, 0⟩, ⟨31, 16, .rw, 0⟩, ⟨15, 0, .rw, 0⟩]⟩
  | .FLT_STATUS => ⟨0x30000, 0, 1, 0, 1, false, .dev,
      [⟨6, 6, .w1c, 0⟩, ⟨5, 5, .w1c, 0⟩, ⟨4, 4, .w1c, 0⟩, ⟨3, 3, .w1c, 0⟩, ⟨2, 2, .w1c, 0⟩, ⟨1, 1, .w1c, 0⟩, ⟨0, 0, .w1c, 0⟩]⟩
  | .FLT_FM_CFG => ⟨0x30004, 0, 1, 0, 1, false, .dev,
      [⟨31, 31, .rw, 0⟩, ⟨30, 30, .rw, 0⟩, ⟨29, 29, .rw, 0⟩, ⟨15, 0, .rw, 0⟩]⟩
  | .FLT_FM_PORTS => ⟨0x30040, 8, 4, 0, 1, true, .dev,
      [⟨63, 0, .rw, 0⟩]⟩
  | .FLT_FM_STAT => ⟨0x30008, 0, 1, 0, 1, true, .dev,
      [⟨63, 32, .ro, 0⟩, ⟨31, 0, .ro, 0⟩]⟩
  | .FLT_FENCE => ⟨0x30400, 4, 256, 0, 1, false, .dev,
      [⟨31, 30, .rw, 0⟩, ⟨23, 16, .rw, 0⟩, ⟨15, 0, .rw, 0⟩]⟩
  | .FLT_XFER_CFG => ⟨0x30010, 0, 1, 0, 1, true, .dev,
      [⟨63, 63, .rw, 0⟩, ⟨47, 32, .rw, 0⟩, ⟨15, 0, .rw, 0⟩]⟩
  | .FLT_SC_CFG => ⟨0x30018, 0, 1, 0, 1, false, .dev,
      [⟨31, 31, .rw, 1⟩, ⟨30, 30, .rw, 1⟩, ⟨29, 29, .rw, 1⟩, ⟨23, 20, .rw, 4⟩, ⟨19, 16, .rw, 3⟩, ⟨15, 0, .rw, 0x64⟩]⟩
  | .FLT_SC_STAT => ⟨0x30100, 4, 34, 0, 1, false, .dev,
      [⟨15, 8, .ro, 0⟩, ⟨1, 1, .ro, 0⟩, ⟨0, 0, .ro, 0⟩]⟩
  | .FLT_MAINT_STAT => ⟨0x30080, 8, 16, 0, 1, true, .dev,
      [⟨63, 48, .ro, 0⟩, ⟨47, 40, .ro, 0⟩, ⟨39, 38, .ro, 0⟩, ⟨31, 0, .ro, 0⟩]⟩
  | .FLT_LINK_ERR_CNT => ⟨0x3001c, 0, 1, 0, 1, false, .dev,
      [⟨31, 0, .rc, 0⟩]⟩
  | .FLT_FM_REJ_CNT => ⟨0x30020, 0, 1, 0, 1, false, .dev,
      [⟨31, 0, .rc, 0⟩]⟩
  | .FLT_FENCE_DROP_CNT => ⟨0x30800, 4, 256, 0, 1, false, .dev,
      [⟨31, 0, .rc, 0⟩]⟩
  | .FLT_XFER_REJ_CNT => ⟨0x30024, 0, 1, 0, 1, false, .dev,
      [⟨31, 0, .rc, 0⟩]⟩
  | .FLT_MAINT_REFUSE_CNT => ⟨0x30060, 4, 7, 0, 1, false, .dev,
      [⟨31, 0, .rc, 0⟩]⟩
  | .LOUPE_DROP_CNT => ⟨0x331028, 0, 1, 0, 1, false, .dev,
      [⟨31, 0, .rc, 0⟩]⟩
  | .CORE_D2D_RETRY_CNT => ⟨0x20720, 4, 3, 0, 1, false, .dev,
      [⟨31, 0, .rc, 0⟩]⟩
  | .CORE_D2D_CRC_CNT => ⟨0x20730, 4, 3, 0, 1, false, .dev,
      [⟨31, 0, .rc, 0⟩]⟩
  | .PORT_BER_ERR => ⟨0x106000, 0x14, 256, 4, 5, false, .dev,
      [⟨31, 0, .ro, 0⟩]⟩
  | .QOS_QSTAT => ⟨0x308000, 0x40, 256, 4, 16, false, .dev,
      [⟨19, 0, .ro, 0⟩]⟩
  | .TILE_EXC_CAP_CNT => ⟨0x400148, 0x10000, 32, 0, 1, false, .part,
      [⟨31, 0, .rc, 0⟩]⟩
  | .HOST_ACC_ERR_CNT => ⟨0x1b18, 0, 1, 0, 1, false, .fn,
      [⟨31, 0, .rc, 0⟩]⟩
  | .CORE_DROP_CAP => ⟨0x200030, 0, 1, 0, 1, true, .dev,
      [⟨63, 48, .ro, 0⟩, ⟨47, 32, .ro, 0⟩, ⟨31, 24, .ro, 0⟩, ⟨23, 16, .ro, 0⟩, ⟨15, 15, .w1c, 0⟩, ⟨14, 11, .ro, 0⟩, ⟨10, 7, .ro, 0⟩, ⟨6, 4, .ro, 0⟩, ⟨3, 3, .ro, 0⟩]⟩

/-- All registers, part 0. -/
def regList0 : List RegName :=
  [RegName.CORE_D2D_STAT, RegName.PWR_D2D_MW, RegName.OPT_ELS_STAT, RegName.PORT_BER_CFG, RegName.PORT_MODE, RegName.PORT_CTRL, RegName.PORT_OSTAT, RegName.PORT_LANEMAP, RegName.PORT_STEER_CNT, RegName.PORT_RESTRIPE_CNT, RegName.PORT_TRAIN_FAIL_CNT, RegName.PORT_LOS_CNT, RegName.OPT_CUT_CNT, RegName.OPT_PROBE_CNT, RegName.PORT_LSTAT, RegName.PORT_VL_CREDIT, RegName.PORT_VL_AVAIL, RegName.PORT_PROTO_CAP, RegName.PORT_FEC_CORR_CNT, RegName.PORT_FEC_UNCORR_CNT, RegName.PORT_LANE_SYMERR_CNT, RegName.PORT_CRC_ERR_CNT, RegName.PORT_STOMP_RX_CNT, RegName.PORT_STOMP_TX_CNT, RegName.PORT_NAK_TX_CNT, RegName.PORT_NAK_RX_CNT, RegName.PORT_REPLAY_CNT, RegName.PORT_DUP_CNT, RegName.PORT_PROTO_ERR_CNT, RegName.PORT_REPLAY_LOST_CNT, RegName.PORT_LC_BAD_CNT, RegName.CORE_FWD, RegName.CORE_PSET, RegName.CORE_MCG, RegName.CORE_CTX, RegName.CORE_PORT_PART, RegName.CORE_CTRL, RegName.CORE_SELF, RegName.CORE_LB_CFG, RegName.CORE_RESEQ_CFG]

/-- All registers, part 1. -/
def regList1 : List RegName :=
  [RegName.CORE_EXP_CFG, RegName.CORE_PORT_DELAY, RegName.CORE_SLOT_STAT, RegName.CORE_TBL_CFG, RegName.CORE_TBL_STAT, RegName.CORE_NOROUTE_CNT, RegName.CORE_PART_DROP_CNT, RegName.CORE_CTX_DROP_CNT, RegName.CORE_EXP_ONSLOT_CNT, RegName.CORE_EXP_OFFSLOT_CNT, RegName.CORE_EXP_DENIED_CNT, RegName.CORE_LB_DYN_CNT, RegName.CORE_RESEQ_GAP_CNT, RegName.CORE_RESEQ_LATE_CNT, RegName.CORE_RESEQ_FULL_CNT, RegName.CORE_SLOT_ADJ_CNT, RegName.CORE_TBL_TIMEOUT_CNT, RegName.CORE_TBL_WR_IGN_CNT, RegName.CORE_INT_DROP_CNT, RegName.QOS_CLASS, RegName.QOS_QCFG, RegName.QOS_SHAPE, RegName.QOS_METER, RegName.QOS_TELE_CFG, RegName.QOS_TELE_PMASK, RegName.MIRR_CTRL, RegName.MIRR_BASE, RegName.MIRR_WPTR, RegName.MIRR_RPTR, RegName.MIRR_FLT_CFG, RegName.MIRR_FLT_MATCH, RegName.MIRR_FLT_MASK, RegName.MIRR_FLT_PORTS, RegName.QOS_PDN_CFG, RegName.QOS_PDN_CTRL, RegName.QOS_PDN_STAT, RegName.QOS_BUF_CFG, RegName.QOS_BUF_STAT, RegName.QOS_PUSHOUT_CNT, RegName.QOS_CREDIT_WAIT_CNT]

/-- All registers, part 2. -/
def regList2 : List RegName :=
  [RegName.QOS_POLICE_CNT, RegName.QOS_POLICE_DEMOTE_CNT, RegName.QOS_POLICE_DROP_CNT, RegName.QOS_PDN_DROP_CNT, RegName.QOS_TELE_DROP_CNT, RegName.MIRR_DROP_CNT, RegName.TILE_PART, RegName.TILE_CTX_STAT, RegName.CORE_PEER, RegName.CORE_TIME_CFG, RegName.CORE_TIME_STAT, RegName.CORE_TIME_NOW, RegName.CORE_BAR, RegName.CORE_BAR_CHILD, RegName.CORE_BAR_STAT, RegName.CORE_BAR_CFG, RegName.CORE_BAR_ARRIVE, RegName.TILE_CFG_IGN_CNT, RegName.TILE_CTX_DROP_CNT, RegName.TILE_RESIDENT_WAIT_CNT, RegName.TILE_SPILL_CNT, RegName.TILE_RESTORE_CNT, RegName.CORE_TIME_STEP_CNT, RegName.CORE_BAR_LATE_CNT, RegName.CORE_BAR_PROTO_CNT, RegName.SEQ_CFG, RegName.SEQ_STAT, RegName.SEQ_HALT, RegName.SEQ_PMEM_ADDR, RegName.SEQ_PMEM_DATA, RegName.SEQ_HALT_CNT, RegName.SEQ_HAZ_CNT, RegName.SEQ_YIELD_CNT, RegName.SEQ_STALL_CNT, RegName.SEQ_PMEM_CORR_CNT, RegName.SEQ_LOAD_CNT, RegName.TILE_ENG_FAULT, RegName.TILE_ENG_FAULT_ITEM, RegName.TILE_ENG_STAT, RegName.SUM_LANE_STAT]

/-- All registers, part 3. -/
def regList3 : List RegName :=
  [RegName.SUM_CMD_CNT, RegName.MOVE_CMD_CNT, RegName.SORT_CMD_CNT, RegName.SIFT_CMD_CNT, RegName.MOVE_OOB_CNT, RegName.SIFT_NAN_CNT, RegName.TILE_MEM_CORR_CNT, RegName.TILE_EXC_CFG, RegName.TILE_CTX_EXC, RegName.TILE_CTX_EXCCAP, RegName.TILE_CTX_EXCPOS, RegName.TILE_CTX_ENC, RegName.TILE_FORM_CAP, RegName.TILE_FORM_CAP_OFS, RegName.TILE_SPARSE_TX_CNT, RegName.TILE_SPARSE_RX_CNT, RegName.TILE_P4F_FALLBACK_CNT, RegName.TILE_FORM_FAULT_CNT, RegName.SIFT_LENS_SLICE_CNT, RegName.SIFT_LENS_SEL_CNT, RegName.SIFT_LENS_AUDIT_CNT, RegName.SIFT_LENS_CHECK_CNT, RegName.SIFT_LENS_MISS_CNT, RegName.TILE_CTX_FA, RegName.TILE_NDET_CNT, RegName.TILE_FA_LATE_CNT, RegName.MEM_GRANT, RegName.MEM_LAYOUT, RegName.POOL_CFG, RegName.POOL_CTRL, RegName.POOL_STAT, RegName.MEM_SVC_EXC, RegName.MEM_ERR_CAP, RegName.MEM_CORR_CNT, RegName.MEM_UNCORR_CNT, RegName.MEM_REFRESH_WAIT_CNT, RegName.MEM_SVC_REQ_CNT, RegName.MEM_SVC_ERR_CNT, RegName.MEM_ACCESS_DENY_CNT, RegName.POOL_ALLOC_CNT]

/-- All registers, part 4. -/
def regList4 : List RegName :=
  [RegName.POOL_FREE_CNT, RegName.POOL_EMPTY_CNT, RegName.POOL_FREE_ERR_CNT, RegName.HOST_CR_BASE, RegName.HOST_CR_CFG, RegName.HOST_CR_START, RegName.HOST_CR_CTRL, RegName.HOST_CR_SEQ, RegName.HOST_CR_STAT, RegName.HOST_JSEQ, RegName.HOST_CQ_BASE, RegName.HOST_EQ_BASE, RegName.HOST_CQ_CFG, RegName.HOST_EQ_CFG, RegName.HOST_EVT_MAP, RegName.HOST_KICK, RegName.HOST_DB_BASE, RegName.HOST_DB_CFG, RegName.HOST_SB_BASE, RegName.HOST_TELE_BASE, RegName.HOST_TELE_CFG, RegName.HOST_WIN_CFG, RegName.HOST_EPOCH, RegName.HOST_OWN, RegName.HOST_OWN_CTRL, RegName.HOST_PART_OWN, RegName.HOST_LEVEL, RegName.HOST_QMR_STAT, RegName.HOST_KICK_CNT, RegName.HOST_POLL_CNT, RegName.HOST_DESC_CNT, RegName.HOST_CQ_FULL_CNT, RegName.HOST_EVT_DROP_CNT, RegName.HOST_WIN_DENY_CNT, RegName.HOST_WR_IGN_CNT, RegName.HOST_OWN_REFUSE_CNT, RegName.PWR_STAT, RegName.PWR_CFG, RegName.PWR_DOM_STAT, RegName.PWR_DOM_CTRL]

/-- All registers, part 5. -/
def regList5 : List RegName :=
  [RegName.PWR_DOZE_EN, RegName.PWR_GOV_CFG, RegName.PWR_GOV_FLOOR, RegName.PWR_GOV_STAT, RegName.PWR_REFUSE_CAP, RegName.PWR_REFUSE_CNT, RegName.PWR_SUPERSEDE_CNT, RegName.PWR_DOZE_NAK_CNT, RegName.PWR_REG_MISS_CNT, RegName.PWR_WAKE_CNT, RegName.BOOT_STAT, RegName.BOOT_CFG, RegName.BOOT_TILE_MAP, RegName.BOOT_BCAST_STAT, RegName.CORE_PART_RST_DROP_CNT, RegName.BOOT_BCAST_DUP_CNT, RegName.SEC_STAT, RegName.SEC_ID_PUB, RegName.SEC_STAGE_STAT, RegName.SEC_JRNL_STAT, RegName.SEC_SIG_FAIL_CNT, RegName.SEC_SPDM_ERR_CNT, RegName.SEC_JRNL_TORN_CNT, RegName.SEC_JRNL_SKIP_CNT, RegName.LOUPE_CTRL, RegName.LOUPE_BASE, RegName.LOUPE_WPTR, RegName.LOUPE_RPTR, RegName.LOUPE_FILT, RegName.FLT_STATUS, RegName.FLT_FM_CFG, RegName.FLT_FM_PORTS, RegName.FLT_FM_STAT, RegName.FLT_FENCE, RegName.FLT_XFER_CFG, RegName.FLT_SC_CFG, RegName.FLT_SC_STAT, RegName.FLT_MAINT_STAT, RegName.FLT_LINK_ERR_CNT, RegName.FLT_FM_REJ_CNT]

/-- All registers, part 6. -/
def regList6 : List RegName :=
  [RegName.FLT_FENCE_DROP_CNT, RegName.FLT_XFER_REJ_CNT, RegName.FLT_MAINT_REFUSE_CNT, RegName.LOUPE_DROP_CNT, RegName.CORE_D2D_RETRY_CNT, RegName.CORE_D2D_CRC_CNT, RegName.PORT_BER_ERR, RegName.QOS_QSTAT, RegName.TILE_EXC_CAP_CNT, RegName.HOST_ACC_ERR_CNT, RegName.CORE_DROP_CAP]

/-- All registers, in the order of the chapters. -/
def allRegs : List RegName :=
  regList0 ++ regList1 ++ regList2 ++ regList3 ++ regList4 ++ regList5 ++ regList6

/-- A named field of a register. -/
structure Fld where
  reg : RegName
  hi : Nat
  lo : Nat
  deriving DecidableEq, Repr

end Sys2Proof.Machine

/-! The fields by their manual names. -/
namespace Sys2Proof.Machine.F

/-- CORE_D2D_STAT FAIL_REASON[23:16] (R21). -/
def CORE_D2D_STAT_FAIL_REASON : Fld := ⟨.CORE_D2D_STAT, 23, 16⟩
/-- CORE_D2D_STAT MAX_CONSEC[15:8] (R21). -/
def CORE_D2D_STAT_MAX_CONSEC : Fld := ⟨.CORE_D2D_STAT, 15, 8⟩
/-- CORE_D2D_STAT RETRY_SEEN[2:2] (R21). -/
def CORE_D2D_STAT_RETRY_SEEN : Fld := ⟨.CORE_D2D_STAT, 2, 2⟩
/-- CORE_D2D_STAT STATE[1:0] (R21). -/
def CORE_D2D_STAT_STATE : Fld := ⟨.CORE_D2D_STAT, 1, 0⟩
/-- PWR_D2D_MW MW[15:0] (R23). -/
def PWR_D2D_MW_MW : Fld := ⟨.PWR_D2D_MW, 15, 0⟩
/-- OPT_ELS_STAT PRESENT[26:26] (R47). -/
def OPT_ELS_STAT_PRESENT : Fld := ⟨.OPT_ELS_STAT, 26, 26⟩
/-- OPT_ELS_STAT SUPPORTED[25:25] (R47). -/
def OPT_ELS_STAT_SUPPORTED : Fld := ⟨.OPT_ELS_STAT, 25, 25⟩
/-- OPT_ELS_STAT FAULT[24:24] (R47). -/
def OPT_ELS_STAT_FAULT : Fld := ⟨.OPT_ELS_STAT, 24, 24⟩
/-- OPT_ELS_STAT CUT[23:20] (R47). -/
def OPT_ELS_STAT_CUT : Fld := ⟨.OPT_ELS_STAT, 23, 20⟩
/-- OPT_ELS_STAT LINE_OK[19:0] (R47). -/
def OPT_ELS_STAT_LINE_OK : Fld := ⟨.OPT_ELS_STAT, 19, 0⟩
/-- PORT_BER_CFG THR_E[23:20] (R59). -/
def PORT_BER_CFG_THR_E : Fld := ⟨.PORT_BER_CFG, 23, 20⟩
/-- PORT_BER_CFG THR_M[19:16] (R59). -/
def PORT_BER_CFG_THR_M : Fld := ⟨.PORT_BER_CFG, 19, 16⟩
/-- PORT_BER_CFG LEN_GBIT[7:0] (R59). -/
def PORT_BER_CFG_LEN_GBIT : Fld := ⟨.PORT_BER_CFG, 7, 0⟩
/-- PORT_MODE SPARE_EN[5:5] (R77). -/
def PORT_MODE_SPARE_EN : Fld := ⟨.PORT_MODE, 5, 5⟩
/-- PORT_MODE MIN_WIDTH[4:3] (R77). -/
def PORT_MODE_MIN_WIDTH : Fld := ⟨.PORT_MODE, 4, 3⟩
/-- PORT_MODE MAX_WIDTH[2:1] (R77). -/
def PORT_MODE_MAX_WIDTH : Fld := ⟨.PORT_MODE, 2, 1⟩
/-- PORT_MODE EN[0:0] (R77). -/
def PORT_MODE_EN : Fld := ⟨.PORT_MODE, 0, 0⟩
/-- PORT_CTRL RETRAIN[0:0] (R78). -/
def PORT_CTRL_RETRAIN : Fld := ⟨.PORT_CTRL, 0, 0⟩
/-- PORT_OSTAT REASON[31:24] (R79). -/
def PORT_OSTAT_REASON : Fld := ⟨.PORT_OSTAT, 31, 24⟩
/-- PORT_OSTAT STATE[23:20] (R79). -/
def PORT_OSTAT_STATE : Fld := ⟨.PORT_OSTAT, 23, 20⟩
/-- PORT_OSTAT WIDTH[19:18] (R79). -/
def PORT_OSTAT_WIDTH : Fld := ⟨.PORT_OSTAT, 19, 18⟩
/-- PORT_OSTAT SPARE_TX[17:17] (R79). -/
def PORT_OSTAT_SPARE_TX : Fld := ⟨.PORT_OSTAT, 17, 17⟩
/-- PORT_OSTAT SPARE_RX[16:16] (R79). -/
def PORT_OSTAT_SPARE_RX : Fld := ⟨.PORT_OSTAT, 16, 16⟩
/-- PORT_OSTAT TX_FAIL[15:11] (R79). -/
def PORT_OSTAT_TX_FAIL : Fld := ⟨.PORT_OSTAT, 15, 11⟩
/-- PORT_OSTAT RX_FAIL[10:6] (R79). -/
def PORT_OSTAT_RX_FAIL : Fld := ⟨.PORT_OSTAT, 10, 6⟩
/-- PORT_OSTAT LOS[5:5] (R79). -/
def PORT_OSTAT_LOS : Fld := ⟨.PORT_OSTAT, 5, 5⟩
/-- PORT_OSTAT CUT[4:4] (R79). -/
def PORT_OSTAT_CUT : Fld := ⟨.PORT_OSTAT, 4, 4⟩
/-- PORT_LANEMAP TX_MAP[27:16] (R80). -/
def PORT_LANEMAP_TX_MAP : Fld := ⟨.PORT_LANEMAP, 27, 16⟩
/-- PORT_LANEMAP RX_MAP[11:0] (R80). -/
def PORT_LANEMAP_RX_MAP : Fld := ⟨.PORT_LANEMAP, 11, 0⟩
/-- PORT_LSTAT LSTATE[31:29] (R127). -/
def PORT_LSTAT_LSTATE : Fld := ⟨.PORT_LSTAT, 31, 29⟩
/-- PORT_LSTAT RESUMED[28:28] (R127). -/
def PORT_LSTAT_RESUMED : Fld := ⟨.PORT_LSTAT, 28, 28⟩
/-- PORT_LSTAT CONSEC_REPLAY[27:24] (R127). -/
def PORT_LSTAT_CONSEC_REPLAY : Fld := ⟨.PORT_LSTAT, 27, 24⟩
/-- PORT_LSTAT TX_NEXT[23:12] (R127). -/
def PORT_LSTAT_TX_NEXT : Fld := ⟨.PORT_LSTAT, 23, 12⟩
/-- PORT_LSTAT RX_EXPECT[11:0] (R127). -/
def PORT_LSTAT_RX_EXPECT : Fld := ⟨.PORT_LSTAT, 11, 0⟩
/-- PORT_VL_CREDIT ADV[11:0] (R128). -/
def PORT_VL_CREDIT_ADV : Fld := ⟨.PORT_VL_CREDIT, 11, 0⟩
/-- PORT_VL_AVAIL AVAIL[11:0] (R129). -/
def PORT_VL_AVAIL_AVAIL : Fld := ⟨.PORT_VL_AVAIL, 11, 0⟩
/-- PORT_PROTO_CAP SUB[31:24] (R130). -/
def PORT_PROTO_CAP_SUB : Fld := ⟨.PORT_PROTO_CAP, 31, 24⟩
/-- PORT_PROTO_CAP TYPE[23:20] (R130). -/
def PORT_PROTO_CAP_TYPE : Fld := ⟨.PORT_PROTO_CAP, 23, 20⟩
/-- PORT_PROTO_CAP VL[19:17] (R130). -/
def PORT_PROTO_CAP_VL : Fld := ⟨.PORT_PROTO_CAP, 19, 17⟩
/-- PORT_PROTO_CAP EXP[16:16] (R130). -/
def PORT_PROTO_CAP_EXP : Fld := ⟨.PORT_PROTO_CAP, 16, 16⟩
/-- PORT_PROTO_CAP VALID[15:15] (R130). -/
def PORT_PROTO_CAP_VALID : Fld := ⟨.PORT_PROTO_CAP, 15, 15⟩
/-- PORT_PROTO_CAP LSEQ[11:0] (R130). -/
def PORT_PROTO_CAP_LSEQ : Fld := ⟨.PORT_PROTO_CAP, 11, 0⟩
/-- CORE_FWD PMASK[63:48] (R167). -/
def CORE_FWD_PMASK : Fld := ⟨.CORE_FWD, 63, 48⟩
/-- CORE_FWD VALID[31:31] (R167). -/
def CORE_FWD_VALID : Fld := ⟨.CORE_FWD, 31, 31⟩
/-- CORE_FWD MODE[30:29] (R167). -/
def CORE_FWD_MODE : Fld := ⟨.CORE_FWD, 30, 29⟩
/-- CORE_FWD TARGET[11:0] (R167). -/
def CORE_FWD_TARGET : Fld := ⟨.CORE_FWD, 11, 0⟩
/-- CORE_PSET COUNT[34:32] (R168). -/
def CORE_PSET_COUNT : Fld := ⟨.CORE_PSET, 34, 32⟩
/-- CORE_PSET P3[31:24] (R168). -/
def CORE_PSET_P3 : Fld := ⟨.CORE_PSET, 31, 24⟩
/-- CORE_PSET P2[23:16] (R168). -/
def CORE_PSET_P2 : Fld := ⟨.CORE_PSET, 23, 16⟩
/-- CORE_PSET P1[15:8] (R168). -/
def CORE_PSET_P1 : Fld := ⟨.CORE_PSET, 15, 8⟩
/-- CORE_PSET P0[7:0] (R168). -/
def CORE_PSET_P0 : Fld := ⟨.CORE_PSET, 7, 0⟩
/-- CORE_MCG PORTS[63:0] (R169). -/
def CORE_MCG_PORTS : Fld := ⟨.CORE_MCG, 63, 0⟩
/-- CORE_CTX PARENT[63:48] (R170). -/
def CORE_CTX_PARENT : Fld := ⟨.CORE_CTX, 63, 48⟩
/-- CORE_CTX VALID[47:47] (R170). -/
def CORE_CTX_VALID : Fld := ⟨.CORE_CTX, 47, 47⟩
/-- CORE_CTX PART[46:43] (R170). -/
def CORE_CTX_PART : Fld := ⟨.CORE_CTX, 46, 43⟩
/-- CORE_CTX C_MODE[42:41] (R170). -/
def CORE_CTX_C_MODE : Fld := ⟨.CORE_CTX, 42, 41⟩
/-- CORE_CTX R_MODE[40:39] (R170). -/
def CORE_CTX_R_MODE : Fld := ⟨.CORE_CTX, 40, 39⟩
/-- CORE_CTX TILE[38:34] (R170). -/
def CORE_CTX_TILE : Fld := ⟨.CORE_CTX, 38, 34⟩
/-- CORE_CTX MCG[11:0] (R170). -/
def CORE_CTX_MCG : Fld := ⟨.CORE_CTX, 11, 0⟩
/-- CORE_PORT_PART MASK[15:0] (R171). -/
def CORE_PORT_PART_MASK : Fld := ⟨.CORE_PORT_PART, 15, 0⟩
/-- CORE_CTRL FWD_EN[0:0] (R178). -/
def CORE_CTRL_FWD_EN : Fld := ⟨.CORE_CTRL, 0, 0⟩
/-- CORE_SELF ID[15:0] (R178). -/
def CORE_SELF_ID : Fld := ⟨.CORE_SELF, 15, 0⟩
/-- CORE_LB_CFG SEED[31:16] (R178). -/
def CORE_LB_CFG_SEED : Fld := ⟨.CORE_LB_CFG, 31, 16⟩
/-- CORE_LB_CFG DYN_THR[15:8] (R178). -/
def CORE_LB_CFG_DYN_THR : Fld := ⟨.CORE_LB_CFG, 15, 8⟩
/-- CORE_LB_CFG DYN_VL[2:0] (R178). -/
def CORE_LB_CFG_DYN_VL : Fld := ⟨.CORE_LB_CFG, 2, 0⟩
/-- CORE_RESEQ_CFG TIMEOUT[15:0] (R178). -/
def CORE_RESEQ_CFG_TIMEOUT : Fld := ⟨.CORE_RESEQ_CFG, 15, 0⟩
/-- CORE_EXP_CFG EN[0:0] (R178). -/
def CORE_EXP_CFG_EN : Fld := ⟨.CORE_EXP_CFG, 0, 0⟩
/-- CORE_PORT_DELAY VALID[31:31] (R178). -/
def CORE_PORT_DELAY_VALID : Fld := ⟨.CORE_PORT_DELAY, 31, 31⟩
/-- CORE_PORT_DELAY DELAY[23:0] (R178). -/
def CORE_PORT_DELAY_DELAY : Fld := ⟨.CORE_PORT_DELAY, 23, 0⟩
/-- CORE_SLOT_STAT LOCKED[31:31] (R178). -/
def CORE_SLOT_STAT_LOCKED : Fld := ⟨.CORE_SLOT_STAT, 31, 31⟩
/-- CORE_SLOT_STAT LOCK_LOST[30:30] (R178). -/
def CORE_SLOT_STAT_LOCK_LOST : Fld := ⟨.CORE_SLOT_STAT, 30, 30⟩
/-- CORE_SLOT_STAT SLOT[4:0] (R178). -/
def CORE_SLOT_STAT_SLOT : Fld := ⟨.CORE_SLOT_STAT, 4, 0⟩
/-- CORE_TBL_CFG DRAIN_TO[15:0] (R178). -/
def CORE_TBL_CFG_DRAIN_TO : Fld := ⟨.CORE_TBL_CFG, 15, 0⟩
/-- CORE_TBL_STAT DRAINING[3:0] (R178). -/
def CORE_TBL_STAT_DRAINING : Fld := ⟨.CORE_TBL_STAT, 3, 0⟩
/-- QOS_CLASS MET_EN[8:8] (R193). -/
def QOS_CLASS_MET_EN : Fld := ⟨.QOS_CLASS, 8, 8⟩
/-- QOS_CLASS METER[7:4] (R193). -/
def QOS_CLASS_METER : Fld := ⟨.QOS_CLASS, 7, 4⟩
/-- QOS_CLASS WQ[3:0] (R193). -/
def QOS_CLASS_WQ : Fld := ⟨.QOS_CLASS, 3, 0⟩
/-- QOS_QCFG NOPUSH[16:16] (R195). -/
def QOS_QCFG_NOPUSH : Fld := ⟨.QOS_QCFG, 16, 16⟩
/-- QOS_QCFG RANK[15:12] (R195). -/
def QOS_QCFG_RANK : Fld := ⟨.QOS_QCFG, 15, 12⟩
/-- QOS_QCFG WEIGHT[7:0] (R195). -/
def QOS_QCFG_WEIGHT : Fld := ⟨.QOS_QCFG, 7, 0⟩
/-- QOS_SHAPE BURST[26:16] (R199). -/
def QOS_SHAPE_BURST : Fld := ⟨.QOS_SHAPE, 26, 16⟩
/-- QOS_SHAPE RATE[15:0] (R199). -/
def QOS_SHAPE_RATE : Fld := ⟨.QOS_SHAPE, 15, 0⟩
/-- QOS_METER ACT[37:36] (R201). -/
def QOS_METER_ACT : Fld := ⟨.QOS_METER, 37, 36⟩
/-- QOS_METER DQ[35:32] (R201). -/
def QOS_METER_DQ : Fld := ⟨.QOS_METER, 35, 32⟩
/-- QOS_METER BURST[26:16] (R201). -/
def QOS_METER_BURST : Fld := ⟨.QOS_METER, 26, 16⟩
/-- QOS_METER RATE[15:0] (R201). -/
def QOS_METER_RATE : Fld := ⟨.QOS_METER, 15, 0⟩
/-- QOS_TELE_CFG EN[31:31] (R206). -/
def QOS_TELE_CFG_EN : Fld := ⟨.QOS_TELE_CFG, 31, 31⟩
/-- QOS_TELE_CFG K[4:0] (R206). -/
def QOS_TELE_CFG_K : Fld := ⟨.QOS_TELE_CFG, 4, 0⟩
/-- QOS_TELE_PMASK PORTS[63:0] (R206). -/
def QOS_TELE_PMASK_PORTS : Fld := ⟨.QOS_TELE_PMASK, 63, 0⟩
/-- MIRR_CTRL EN[31:31] (R211). -/
def MIRR_CTRL_EN : Fld := ⟨.MIRR_CTRL, 31, 31⟩
/-- MIRR_CTRL DEST[30:30] (R211). -/
def MIRR_CTRL_DEST : Fld := ⟨.MIRR_CTRL, 30, 30⟩
/-- MIRR_CTRL MODE[29:29] (R211). -/
def MIRR_CTRL_MODE : Fld := ⟨.MIRR_CTRL, 29, 29⟩
/-- MIRR_CTRL SIZE_LOG2[5:0] (R211). -/
def MIRR_CTRL_SIZE_LOG2 : Fld := ⟨.MIRR_CTRL, 5, 0⟩
/-- MIRR_BASE BASE[63:0] (R211). -/
def MIRR_BASE_BASE : Fld := ⟨.MIRR_BASE, 63, 0⟩
/-- MIRR_WPTR WPTR[63:0] (R211). -/
def MIRR_WPTR_WPTR : Fld := ⟨.MIRR_WPTR, 63, 0⟩
/-- MIRR_RPTR RPTR[63:0] (R211). -/
def MIRR_RPTR_RPTR : Fld := ⟨.MIRR_RPTR, 63, 0⟩
/-- MIRR_FLT_CFG EN[31:31] (R211). -/
def MIRR_FLT_CFG_EN : Fld := ⟨.MIRR_FLT_CFG, 31, 31⟩
/-- MIRR_FLT_CFG POINT[30:29] (R211). -/
def MIRR_FLT_CFG_POINT : Fld := ⟨.MIRR_FLT_CFG, 30, 29⟩
/-- MIRR_FLT_CFG SAMPLE[28:25] (R211). -/
def MIRR_FLT_CFG_SAMPLE : Fld := ⟨.MIRR_FLT_CFG, 28, 25⟩
/-- MIRR_FLT_MATCH MATCH[31:0] (R211). -/
def MIRR_FLT_MATCH_MATCH : Fld := ⟨.MIRR_FLT_MATCH, 31, 0⟩
/-- MIRR_FLT_MASK MASK[31:0] (R211). -/
def MIRR_FLT_MASK_MASK : Fld := ⟨.MIRR_FLT_MASK, 31, 0⟩
/-- MIRR_FLT_PORTS PORTS[63:0] (R211). -/
def MIRR_FLT_PORTS_PORTS : Fld := ⟨.MIRR_FLT_PORTS, 63, 0⟩
/-- QOS_PDN_CFG HOLD_CAP[31:16] (R216). -/
def QOS_PDN_CFG_HOLD_CAP : Fld := ⟨.QOS_PDN_CFG, 31, 16⟩
/-- QOS_PDN_CFG HOLD[15:0] (R216). -/
def QOS_PDN_CFG_HOLD : Fld := ⟨.QOS_PDN_CFG, 15, 0⟩
/-- QOS_PDN_CTRL FLUSH[0:0] (R216). -/
def QOS_PDN_CTRL_FLUSH : Fld := ⟨.QOS_PDN_CTRL, 0, 0⟩
/-- QOS_PDN_STAT STATE[31:30] (R216). -/
def QOS_PDN_STAT_STATE : Fld := ⟨.QOS_PDN_STAT, 31, 30⟩
/-- QOS_PDN_STAT HELD[19:0] (R216). -/
def QOS_PDN_STAT_HELD : Fld := ⟨.QOS_PDN_STAT, 19, 0⟩
/-- QOS_BUF_CFG INT_RSV[19:0] (R217). -/
def QOS_BUF_CFG_INT_RSV : Fld := ⟨.QOS_BUF_CFG, 19, 0⟩
/-- QOS_BUF_STAT INT_USED[59:40] (R217). -/
def QOS_BUF_STAT_INT_USED : Fld := ⟨.QOS_BUF_STAT, 59, 40⟩
/-- QOS_BUF_STAT BACKED[39:20] (R217). -/
def QOS_BUF_STAT_BACKED : Fld := ⟨.QOS_BUF_STAT, 39, 20⟩
/-- QOS_BUF_STAT FREE[19:0] (R217). -/
def QOS_BUF_STAT_FREE : Fld := ⟨.QOS_BUF_STAT, 19, 0⟩
/-- TILE_PART PART[3:0] (R222). -/
def TILE_PART_PART : Fld := ⟨.TILE_PART, 3, 0⟩
/-- TILE_CTX_STAT REASON[63:56] (R263). -/
def TILE_CTX_STAT_REASON : Fld := ⟨.TILE_CTX_STAT, 63, 56⟩
/-- TILE_CTX_STAT INSTANCE[55:40] (R263). -/
def TILE_CTX_STAT_INSTANCE : Fld := ⟨.TILE_CTX_STAT, 55, 40⟩
/-- TILE_CTX_STAT STATE[39:37] (R263). -/
def TILE_CTX_STAT_STATE : Fld := ⟨.TILE_CTX_STAT, 39, 37⟩
/-- TILE_CTX_STAT RESIDENT[36:36] (R263). -/
def TILE_CTX_STAT_RESIDENT : Fld := ⟨.TILE_CTX_STAT, 36, 36⟩
/-- TILE_CTX_STAT TILE[35:31] (R263). -/
def TILE_CTX_STAT_TILE : Fld := ⟨.TILE_CTX_STAT, 35, 31⟩
/-- TILE_CTX_STAT MISSING[15:0] (R263). -/
def TILE_CTX_STAT_MISSING : Fld := ⟨.TILE_CTX_STAT, 15, 0⟩
/-- CORE_PEER VALID[31:31] (R264). -/
def CORE_PEER_VALID : Fld := ⟨.CORE_PEER, 31, 31⟩
/-- CORE_PEER ID[15:0] (R264). -/
def CORE_PEER_ID : Fld := ⟨.CORE_PEER, 15, 0⟩
/-- CORE_TIME_CFG MASTER_EN[31:31] (R264). -/
def CORE_TIME_CFG_MASTER_EN : Fld := ⟨.CORE_TIME_CFG, 31, 31⟩
/-- CORE_TIME_CFG PRIO[15:8] (R264). -/
def CORE_TIME_CFG_PRIO : Fld := ⟨.CORE_TIME_CFG, 15, 8⟩
/-- CORE_TIME_CFG PERIOD[7:0] (R264). -/
def CORE_TIME_CFG_PERIOD : Fld := ⟨.CORE_TIME_CFG, 7, 0⟩
/-- CORE_TIME_STAT LOCKED[63:63] (R264). -/
def CORE_TIME_STAT_LOCKED : Fld := ⟨.CORE_TIME_STAT, 63, 63⟩
/-- CORE_TIME_STAT LOCK_LOST[62:62] (R264). -/
def CORE_TIME_STAT_LOCK_LOST : Fld := ⟨.CORE_TIME_STAT, 62, 62⟩
/-- CORE_TIME_STAT HOPS[55:48] (R264). -/
def CORE_TIME_STAT_HOPS : Fld := ⟨.CORE_TIME_STAT, 55, 48⟩
/-- CORE_TIME_STAT UPPORT[47:40] (R264). -/
def CORE_TIME_STAT_UPPORT : Fld := ⟨.CORE_TIME_STAT, 47, 40⟩
/-- CORE_TIME_STAT THETA[31:0] (R264). -/
def CORE_TIME_STAT_THETA : Fld := ⟨.CORE_TIME_STAT, 31, 0⟩
/-- CORE_TIME_NOW TIME[63:0] (R264). -/
def CORE_TIME_NOW_TIME : Fld := ⟨.CORE_TIME_NOW, 63, 0⟩
/-- CORE_BAR VALID[31:31] (R265). -/
def CORE_BAR_VALID : Fld := ⟨.CORE_BAR, 31, 31⟩
/-- CORE_BAR ROOT[30:30] (R265). -/
def CORE_BAR_ROOT : Fld := ⟨.CORE_BAR, 30, 30⟩
/-- CORE_BAR LOCAL[29:29] (R265). -/
def CORE_BAR_LOCAL : Fld := ⟨.CORE_BAR, 29, 29⟩
/-- CORE_BAR PART[27:24] (R265). -/
def CORE_BAR_PART : Fld := ⟨.CORE_BAR, 27, 24⟩
/-- CORE_BAR PARENT[23:16] (R265). -/
def CORE_BAR_PARENT : Fld := ⟨.CORE_BAR, 23, 16⟩
/-- CORE_BAR_CHILD PORTS[63:0] (R265). -/
def CORE_BAR_CHILD_PORTS : Fld := ⟨.CORE_BAR_CHILD, 63, 0⟩
/-- CORE_BAR_STAT FAILED[31:31] (R265). -/
def CORE_BAR_STAT_FAILED : Fld := ⟨.CORE_BAR_STAT, 31, 31⟩
/-- CORE_BAR_STAT STATE[30:29] (R265). -/
def CORE_BAR_STAT_STATE : Fld := ⟨.CORE_BAR_STAT, 30, 29⟩
/-- CORE_BAR_STAT REASON[23:16] (R265). -/
def CORE_BAR_STAT_REASON : Fld := ⟨.CORE_BAR_STAT, 23, 16⟩
/-- CORE_BAR_STAT EPOCH[15:0] (R265). -/
def CORE_BAR_STAT_EPOCH : Fld := ⟨.CORE_BAR_STAT, 15, 0⟩
/-- CORE_BAR_CFG TMO[31:16] (R265). -/
def CORE_BAR_CFG_TMO : Fld := ⟨.CORE_BAR_CFG, 31, 16⟩
/-- CORE_BAR_CFG LEAD[15:0] (R265). -/
def CORE_BAR_CFG_LEAD : Fld := ⟨.CORE_BAR_CFG, 15, 0⟩
/-- CORE_BAR_ARRIVE BAR[7:0] (R265). -/
def CORE_BAR_ARRIVE_BAR : Fld := ⟨.CORE_BAR_ARRIVE, 7, 0⟩
/-- SEQ_CFG WDOG[31:16] (R311). -/
def SEQ_CFG_WDOG : Fld := ⟨.SEQ_CFG, 31, 16⟩
/-- SEQ_CFG HAZ[1:0] (R311). -/
def SEQ_CFG_HAZ : Fld := ⟨.SEQ_CFG, 1, 0⟩
/-- SEQ_STAT RUN[31:31] (R312). -/
def SEQ_STAT_RUN : Fld := ⟨.SEQ_STAT, 31, 31⟩
/-- SEQ_STAT WAITING[30:30] (R312). -/
def SEQ_STAT_WAITING : Fld := ⟨.SEQ_STAT, 30, 30⟩
/-- SEQ_STAT WSEL[29:26] (R312). -/
def SEQ_STAT_WSEL : Fld := ⟨.SEQ_STAT, 29, 26⟩
/-- SEQ_STAT LOADING[25:25] (R312). -/
def SEQ_STAT_LOADING : Fld := ⟨.SEQ_STAT, 25, 25⟩
/-- SEQ_STAT CTX[23:12] (R312). -/
def SEQ_STAT_CTX : Fld := ⟨.SEQ_STAT, 23, 12⟩
/-- SEQ_STAT PC[11:0] (R312). -/
def SEQ_STAT_PC : Fld := ⟨.SEQ_STAT, 11, 0⟩
/-- SEQ_HALT REASON[63:56] (R313). -/
def SEQ_HALT_REASON : Fld := ⟨.SEQ_HALT, 63, 56⟩
/-- SEQ_HALT TAG[55:40] (R313). -/
def SEQ_HALT_TAG : Fld := ⟨.SEQ_HALT, 55, 40⟩
/-- SEQ_HALT CTX[39:28] (R313). -/
def SEQ_HALT_CTX : Fld := ⟨.SEQ_HALT, 39, 28⟩
/-- SEQ_HALT PC[27:16] (R313). -/
def SEQ_HALT_PC : Fld := ⟨.SEQ_HALT, 27, 16⟩
/-- SEQ_HALT VALID[15:15] (R313). -/
def SEQ_HALT_VALID : Fld := ⟨.SEQ_HALT, 15, 15⟩
/-- SEQ_HALT SLOT[14:12] (R313). -/
def SEQ_HALT_SLOT : Fld := ⟨.SEQ_HALT, 14, 12⟩
/-- SEQ_PMEM_ADDR ADDR[11:0] (R314). -/
def SEQ_PMEM_ADDR_ADDR : Fld := ⟨.SEQ_PMEM_ADDR, 11, 0⟩
/-- SEQ_PMEM_DATA DATA[31:0] (R314). -/
def SEQ_PMEM_DATA_DATA : Fld := ⟨.SEQ_PMEM_DATA, 31, 0⟩
/-- TILE_ENG_FAULT REASON[63:56] (R358). -/
def TILE_ENG_FAULT_REASON : Fld := ⟨.TILE_ENG_FAULT, 63, 56⟩
/-- TILE_ENG_FAULT TAG[55:40] (R358). -/
def TILE_ENG_FAULT_TAG : Fld := ⟨.TILE_ENG_FAULT, 55, 40⟩
/-- TILE_ENG_FAULT CTX[39:28] (R358). -/
def TILE_ENG_FAULT_CTX : Fld := ⟨.TILE_ENG_FAULT, 39, 28⟩
/-- TILE_ENG_FAULT PC[27:16] (R358). -/
def TILE_ENG_FAULT_PC : Fld := ⟨.TILE_ENG_FAULT, 27, 16⟩
/-- TILE_ENG_FAULT VALID[15:15] (R358). -/
def TILE_ENG_FAULT_VALID : Fld := ⟨.TILE_ENG_FAULT, 15, 15⟩
/-- TILE_ENG_FAULT BUILTIN[14:14] (R358). -/
def TILE_ENG_FAULT_BUILTIN : Fld := ⟨.TILE_ENG_FAULT, 14, 14⟩
/-- TILE_ENG_FAULT ENGINE[13:12] (R358). -/
def TILE_ENG_FAULT_ENGINE : Fld := ⟨.TILE_ENG_FAULT, 13, 12⟩
/-- TILE_ENG_FAULT CODE[11:4] (R358). -/
def TILE_ENG_FAULT_CODE : Fld := ⟨.TILE_ENG_FAULT, 11, 4⟩
/-- TILE_ENG_FAULT_ITEM ITEM[31:0] (R358). -/
def TILE_ENG_FAULT_ITEM_ITEM : Fld := ⟨.TILE_ENG_FAULT_ITEM, 31, 0⟩
/-- TILE_ENG_STAT SUMQ[31:26] (R359). -/
def TILE_ENG_STAT_SUMQ : Fld := ⟨.TILE_ENG_STAT, 31, 26⟩
/-- TILE_ENG_STAT MOVEQ[25:20] (R359). -/
def TILE_ENG_STAT_MOVEQ : Fld := ⟨.TILE_ENG_STAT, 25, 20⟩
/-- TILE_ENG_STAT SORTQ[19:14] (R359). -/
def TILE_ENG_STAT_SORTQ : Fld := ⟨.TILE_ENG_STAT, 19, 14⟩
/-- TILE_ENG_STAT SIFTQ[13:8] (R359). -/
def TILE_ENG_STAT_SIFTQ : Fld := ⟨.TILE_ENG_STAT, 13, 8⟩
/-- TILE_ENG_STAT BUSY[7:4] (R359). -/
def TILE_ENG_STAT_BUSY : Fld := ⟨.TILE_ENG_STAT, 7, 4⟩
/-- SUM_LANE_STAT SPARE_USED[7:0] (R360). -/
def SUM_LANE_STAT_SPARE_USED : Fld := ⟨.SUM_LANE_STAT, 7, 0⟩
/-- TILE_EXC_CFG EVT[4:4] (R385). -/
def TILE_EXC_CFG_EVT : Fld := ⟨.TILE_EXC_CFG, 4, 4⟩
/-- TILE_EXC_CFG CAPMASK[3:0] (R385). -/
def TILE_EXC_CFG_CAPMASK : Fld := ⟨.TILE_EXC_CFG, 3, 0⟩
/-- TILE_CTX_EXC SIFT_FLAGS[7:4] (R386). -/
def TILE_CTX_EXC_SIFT_FLAGS : Fld := ⟨.TILE_CTX_EXC, 7, 4⟩
/-- TILE_CTX_EXC SUM_FLAGS[3:0] (R386). -/
def TILE_CTX_EXC_SUM_FLAGS : Fld := ⟨.TILE_CTX_EXC, 3, 0⟩
/-- TILE_CTX_EXCCAP TAG[63:48] (R387). -/
def TILE_CTX_EXCCAP_TAG : Fld := ⟨.TILE_CTX_EXCCAP, 63, 48⟩
/-- TILE_CTX_EXCCAP CODE[47:40] (R387). -/
def TILE_CTX_EXCCAP_CODE : Fld := ⟨.TILE_CTX_EXCCAP, 47, 40⟩
/-- TILE_CTX_EXCCAP INSTANCE[31:16] (R387). -/
def TILE_CTX_EXCCAP_INSTANCE : Fld := ⟨.TILE_CTX_EXCCAP, 31, 16⟩
/-- TILE_CTX_EXCCAP VALID[15:15] (R387). -/
def TILE_CTX_EXCCAP_VALID : Fld := ⟨.TILE_CTX_EXCCAP, 15, 15⟩
/-- TILE_CTX_EXCCAP BUILTIN[14:14] (R387). -/
def TILE_CTX_EXCCAP_BUILTIN : Fld := ⟨.TILE_CTX_EXCCAP, 14, 14⟩
/-- TILE_CTX_EXCCAP FLAGS[11:8] (R387). -/
def TILE_CTX_EXCCAP_FLAGS : Fld := ⟨.TILE_CTX_EXCCAP, 11, 8⟩
/-- TILE_CTX_EXCPOS OUT[63:32] (R387). -/
def TILE_CTX_EXCPOS_OUT : Fld := ⟨.TILE_CTX_EXCPOS, 63, 32⟩
/-- TILE_CTX_EXCPOS ELEM[31:0] (R387). -/
def TILE_CTX_EXCPOS_ELEM : Fld := ⟨.TILE_CTX_EXCPOS, 31, 0⟩
/-- TILE_CTX_ENC RES_ENC[3:2] (R423). -/
def TILE_CTX_ENC_RES_ENC : Fld := ⟨.TILE_CTX_ENC, 3, 2⟩
/-- TILE_CTX_ENC UP_ENC[1:0] (R423). -/
def TILE_CTX_ENC_UP_ENC : Fld := ⟨.TILE_CTX_ENC, 1, 0⟩
/-- TILE_FORM_CAP REASON[63:56] (R424). -/
def TILE_FORM_CAP_REASON : Fld := ⟨.TILE_FORM_CAP, 63, 56⟩
/-- TILE_FORM_CAP CTX[55:44] (R424). -/
def TILE_FORM_CAP_CTX : Fld := ⟨.TILE_FORM_CAP, 55, 44⟩
/-- TILE_FORM_CAP RANK[43:28] (R424). -/
def TILE_FORM_CAP_RANK : Fld := ⟨.TILE_FORM_CAP, 43, 28⟩
/-- TILE_FORM_CAP FORM[27:26] (R424). -/
def TILE_FORM_CAP_FORM : Fld := ⟨.TILE_FORM_CAP, 27, 26⟩
/-- TILE_FORM_CAP VALID[15:15] (R424). -/
def TILE_FORM_CAP_VALID : Fld := ⟨.TILE_FORM_CAP, 15, 15⟩
/-- TILE_FORM_CAP ITEM[7:0] (R424). -/
def TILE_FORM_CAP_ITEM : Fld := ⟨.TILE_FORM_CAP, 7, 0⟩
/-- TILE_FORM_CAP_OFS OFS[31:0] (R424). -/
def TILE_FORM_CAP_OFS_OFS : Fld := ⟨.TILE_FORM_CAP_OFS, 31, 0⟩
/-- TILE_CTX_FA NDET[31:16] (R434). -/
def TILE_CTX_FA_NDET : Fld := ⟨.TILE_CTX_FA, 31, 16⟩
/-- TILE_CTX_FA Q[14:8] (R434). -/
def TILE_CTX_FA_Q : Fld := ⟨.TILE_CTX_FA, 14, 8⟩
/-- TILE_CTX_FA MODE[1:0] (R434). -/
def TILE_CTX_FA_MODE : Fld := ⟨.TILE_CTX_FA, 1, 0⟩
/-- MEM_GRANT PMASK[63:48] (R450). -/
def MEM_GRANT_PMASK : Fld := ⟨.MEM_GRANT, 63, 48⟩
/-- MEM_GRANT VALID[47:47] (R450). -/
def MEM_GRANT_VALID : Fld := ⟨.MEM_GRANT, 47, 47⟩
/-- MEM_GRANT RD[46:46] (R450). -/
def MEM_GRANT_RD : Fld := ⟨.MEM_GRANT, 46, 46⟩
/-- MEM_GRANT WR[45:45] (R450). -/
def MEM_GRANT_WR : Fld := ⟨.MEM_GRANT, 45, 45⟩
/-- MEM_GRANT LEN[29:16] (R450). -/
def MEM_GRANT_LEN : Fld := ⟨.MEM_GRANT, 29, 16⟩
/-- MEM_GRANT BASE[13:0] (R450). -/
def MEM_GRANT_BASE : Fld := ⟨.MEM_GRANT, 13, 0⟩
/-- MEM_LAYOUT CAP_GIB[5:0] (R470). -/
def MEM_LAYOUT_CAP_GIB : Fld := ⟨.MEM_LAYOUT, 5, 0⟩
/-- POOL_CFG COUNT[20:0] (R470). -/
def POOL_CFG_COUNT : Fld := ⟨.POOL_CFG, 20, 0⟩
/-- POOL_CTRL EN[0:0] (R470). -/
def POOL_CTRL_EN : Fld := ⟨.POOL_CTRL, 0, 0⟩
/-- POOL_STAT STATE[31:30] (R471). -/
def POOL_STAT_STATE : Fld := ⟨.POOL_STAT, 31, 30⟩
/-- POOL_STAT FREE[20:0] (R471). -/
def POOL_STAT_FREE : Fld := ⟨.POOL_STAT, 20, 0⟩
/-- MEM_SVC_EXC FLAGS[3:0] (R472). -/
def MEM_SVC_EXC_FLAGS : Fld := ⟨.MEM_SVC_EXC, 3, 0⟩
/-- MEM_ERR_CAP GRANULE[63:32] (R472). -/
def MEM_ERR_CAP_GRANULE : Fld := ⟨.MEM_ERR_CAP, 63, 32⟩
/-- MEM_ERR_CAP PART[31:28] (R472). -/
def MEM_ERR_CAP_PART : Fld := ⟨.MEM_ERR_CAP, 31, 28⟩
/-- MEM_ERR_CAP SOURCE[27:25] (R472). -/
def MEM_ERR_CAP_SOURCE : Fld := ⟨.MEM_ERR_CAP, 27, 25⟩
/-- MEM_ERR_CAP STACK[24:24] (R472). -/
def MEM_ERR_CAP_STACK : Fld := ⟨.MEM_ERR_CAP, 24, 24⟩
/-- MEM_ERR_CAP TILE[23:16] (R472). -/
def MEM_ERR_CAP_TILE : Fld := ⟨.MEM_ERR_CAP, 23, 16⟩
/-- MEM_ERR_CAP VALID[15:15] (R472). -/
def MEM_ERR_CAP_VALID : Fld := ⟨.MEM_ERR_CAP, 15, 15⟩
/-- HOST_CR_BASE BASE[63:0] (R512). -/
def HOST_CR_BASE_BASE : Fld := ⟨.HOST_CR_BASE, 63, 0⟩
/-- HOST_CR_CFG EN[31:31] (R512). -/
def HOST_CR_CFG_EN : Fld := ⟨.HOST_CR_CFG, 31, 31⟩
/-- HOST_CR_CFG SIZE_LOG2[20:16] (R512). -/
def HOST_CR_CFG_SIZE_LOG2 : Fld := ⟨.HOST_CR_CFG, 20, 16⟩
/-- HOST_CR_CFG CQ[5:0] (R512). -/
def HOST_CR_CFG_CQ : Fld := ⟨.HOST_CR_CFG, 5, 0⟩
/-- HOST_CR_START SEQ[63:32] (R512). -/
def HOST_CR_START_SEQ : Fld := ⟨.HOST_CR_START, 63, 32⟩
/-- HOST_CR_START IDX[31:0] (R512). -/
def HOST_CR_START_IDX : Fld := ⟨.HOST_CR_START, 31, 0⟩
/-- HOST_CR_CTRL RESUME[1:1] (R512). -/
def HOST_CR_CTRL_RESUME : Fld := ⟨.HOST_CR_CTRL, 1, 1⟩
/-- HOST_CR_CTRL STOP[0:0] (R512). -/
def HOST_CR_CTRL_STOP : Fld := ⟨.HOST_CR_CTRL, 0, 0⟩
/-- HOST_CR_SEQ LAST_COMPLETED[63:32] (R512). -/
def HOST_CR_SEQ_LAST_COMPLETED : Fld := ⟨.HOST_CR_SEQ, 63, 32⟩
/-- HOST_CR_SEQ LAST_CONSUMED[31:0] (R512). -/
def HOST_CR_SEQ_LAST_CONSUMED : Fld := ⟨.HOST_CR_SEQ, 31, 0⟩
/-- HOST_CR_STAT CONS_IDX[63:32] (R512). -/
def HOST_CR_STAT_CONS_IDX : Fld := ⟨.HOST_CR_STAT, 63, 32⟩
/-- HOST_CR_STAT STATE[31:29] (R512). -/
def HOST_CR_STAT_STATE : Fld := ⟨.HOST_CR_STAT, 31, 29⟩
/-- HOST_CR_STAT REASON[23:16] (R512). -/
def HOST_CR_STAT_REASON : Fld := ⟨.HOST_CR_STAT, 23, 16⟩
/-- HOST_JSEQ SEQ[31:0] (R512). -/
def HOST_JSEQ_SEQ : Fld := ⟨.HOST_JSEQ, 31, 0⟩
/-- HOST_CQ_BASE BASE[63:0] (R512). -/
def HOST_CQ_BASE_BASE : Fld := ⟨.HOST_CQ_BASE, 63, 0⟩
/-- HOST_EQ_BASE BASE[63:0] (R512). -/
def HOST_EQ_BASE_BASE : Fld := ⟨.HOST_EQ_BASE, 63, 0⟩
/-- HOST_CQ_CFG EN[31:31] (R512). -/
def HOST_CQ_CFG_EN : Fld := ⟨.HOST_CQ_CFG, 31, 31⟩
/-- HOST_CQ_CFG SIZE_LOG2[28:24] (R512). -/
def HOST_CQ_CFG_SIZE_LOG2 : Fld := ⟨.HOST_CQ_CFG, 28, 24⟩
/-- HOST_CQ_CFG VEC[23:16] (R512). -/
def HOST_CQ_CFG_VEC : Fld := ⟨.HOST_CQ_CFG, 23, 16⟩
/-- HOST_CQ_CFG COAL_N[15:8] (R512). -/
def HOST_CQ_CFG_COAL_N : Fld := ⟨.HOST_CQ_CFG, 15, 8⟩
/-- HOST_CQ_CFG COAL_T[7:0] (R512). -/
def HOST_CQ_CFG_COAL_T : Fld := ⟨.HOST_CQ_CFG, 7, 0⟩
/-- HOST_EQ_CFG EN[31:31] (R512). -/
def HOST_EQ_CFG_EN : Fld := ⟨.HOST_EQ_CFG, 31, 31⟩
/-- HOST_EQ_CFG SIZE_LOG2[28:24] (R512). -/
def HOST_EQ_CFG_SIZE_LOG2 : Fld := ⟨.HOST_EQ_CFG, 28, 24⟩
/-- HOST_EQ_CFG VEC[23:16] (R512). -/
def HOST_EQ_CFG_VEC : Fld := ⟨.HOST_EQ_CFG, 23, 16⟩
/-- HOST_EQ_CFG COAL_N[15:8] (R512). -/
def HOST_EQ_CFG_COAL_N : Fld := ⟨.HOST_EQ_CFG, 15, 8⟩
/-- HOST_EQ_CFG COAL_T[7:0] (R512). -/
def HOST_EQ_CFG_COAL_T : Fld := ⟨.HOST_EQ_CFG, 7, 0⟩
/-- HOST_EVT_MAP MAP[31:0] (R512). -/
def HOST_EVT_MAP_MAP : Fld := ⟨.HOST_EVT_MAP, 31, 0⟩
/-- HOST_KICK KICK[31:0] (R513). -/
def HOST_KICK_KICK : Fld := ⟨.HOST_KICK, 31, 0⟩
/-- HOST_DB_BASE BASE[63:0] (R513). -/
def HOST_DB_BASE_BASE : Fld := ⟨.HOST_DB_BASE, 63, 0⟩
/-- HOST_DB_CFG POLL_EN[31:31] (R513). -/
def HOST_DB_CFG_POLL_EN : Fld := ⟨.HOST_DB_CFG, 31, 31⟩
/-- HOST_DB_CFG MODE[30:30] (R513). -/
def HOST_DB_CFG_MODE : Fld := ⟨.HOST_DB_CFG, 30, 30⟩
/-- HOST_DB_CFG POLL_MAX[25:16] (R513). -/
def HOST_DB_CFG_POLL_MAX : Fld := ⟨.HOST_DB_CFG, 25, 16⟩
/-- HOST_DB_CFG POLL_MIN[9:0] (R513). -/
def HOST_DB_CFG_POLL_MIN : Fld := ⟨.HOST_DB_CFG, 9, 0⟩
/-- HOST_SB_BASE BASE[63:0] (R513). -/
def HOST_SB_BASE_BASE : Fld := ⟨.HOST_SB_BASE, 63, 0⟩
/-- HOST_TELE_BASE BASE[63:0] (R513). -/
def HOST_TELE_BASE_BASE : Fld := ⟨.HOST_TELE_BASE, 63, 0⟩
/-- HOST_TELE_CFG EN[31:31] (R513). -/
def HOST_TELE_CFG_EN : Fld := ⟨.HOST_TELE_CFG, 31, 31⟩
/-- HOST_TELE_CFG SIZE_LOG2[4:0] (R513). -/
def HOST_TELE_CFG_SIZE_LOG2 : Fld := ⟨.HOST_TELE_CFG, 4, 0⟩
/-- HOST_WIN_CFG EN[31:31] (R513). -/
def HOST_WIN_CFG_EN : Fld := ⟨.HOST_WIN_CFG, 31, 31⟩
/-- HOST_WIN_CFG UNCHK[30:30] (R513). -/
def HOST_WIN_CFG_UNCHK : Fld := ⟨.HOST_WIN_CFG, 30, 30⟩
/-- HOST_WIN_CFG BAR_EN[29:29] (R513). -/
def HOST_WIN_CFG_BAR_EN : Fld := ⟨.HOST_WIN_CFG, 29, 29⟩
/-- HOST_WIN_CFG PART[19:16] (R513). -/
def HOST_WIN_CFG_PART : Fld := ⟨.HOST_WIN_CFG, 19, 16⟩
/-- HOST_WIN_CFG SLOT[6:0] (R513). -/
def HOST_WIN_CFG_SLOT : Fld := ⟨.HOST_WIN_CFG, 6, 0⟩
/-- HOST_EPOCH EPOCH[31:0] (R513). -/
def HOST_EPOCH_EPOCH : Fld := ⟨.HOST_EPOCH, 31, 0⟩
/-- HOST_OWN STATE[9:8] (R514). -/
def HOST_OWN_STATE : Fld := ⟨.HOST_OWN, 9, 8⟩
/-- HOST_OWN PRIMARY[0:0] (R514). -/
def HOST_OWN_PRIMARY : Fld := ⟨.HOST_OWN, 0, 0⟩
/-- HOST_OWN_CTRL OP[2:0] (R514). -/
def HOST_OWN_CTRL_OP : Fld := ⟨.HOST_OWN_CTRL, 2, 0⟩
/-- HOST_PART_OWN OWNER[31:0] (R514). -/
def HOST_PART_OWN_OWNER : Fld := ⟨.HOST_PART_OWN, 31, 0⟩
/-- HOST_LEVEL EXPERT[6:1] (R514). -/
def HOST_LEVEL_EXPERT : Fld := ⟨.HOST_LEVEL, 6, 1⟩
/-- HOST_QMR_STAT STATE[31:30] (R514). -/
def HOST_QMR_STAT_STATE : Fld := ⟨.HOST_QMR_STAT, 31, 30⟩
/-- HOST_QMR_STAT HOST[29:29] (R514). -/
def HOST_QMR_STAT_HOST : Fld := ⟨.HOST_QMR_STAT, 29, 29⟩
/-- HOST_QMR_STAT FUNC[23:16] (R514). -/
def HOST_QMR_STAT_FUNC : Fld := ⟨.HOST_QMR_STAT, 23, 16⟩
/-- HOST_QMR_STAT INDEX[15:0] (R514). -/
def HOST_QMR_STAT_INDEX : Fld := ⟨.HOST_QMR_STAT, 15, 0⟩
/-- PWR_STAT PEND[9:9] (R532). -/
def PWR_STAT_PEND : Fld := ⟨.PWR_STAT, 9, 9⟩
/-- PWR_STAT BUSY[8:8] (R532). -/
def PWR_STAT_BUSY : Fld := ⟨.PWR_STAT, 8, 8⟩
/-- PWR_STAT PTARGET[7:6] (R532). -/
def PWR_STAT_PTARGET : Fld := ⟨.PWR_STAT, 7, 6⟩
/-- PWR_STAT TARGET[5:4] (R532). -/
def PWR_STAT_TARGET : Fld := ⟨.PWR_STAT, 5, 4⟩
/-- PWR_STAT STATE[1:0] (R532). -/
def PWR_STAT_STATE : Fld := ⟨.PWR_STAT, 1, 0⟩
/-- PWR_CFG ENTRY_TO[31:24] (R532). -/
def PWR_CFG_ENTRY_TO : Fld := ⟨.PWR_CFG, 31, 24⟩
/-- PWR_CFG DOZE_IDLE[23:12] (R532). -/
def PWR_CFG_DOZE_IDLE : Fld := ⟨.PWR_CFG, 23, 12⟩
/-- PWR_CFG GATE_IDLE[11:0] (R532). -/
def PWR_CFG_GATE_IDLE : Fld := ⟨.PWR_CFG, 11, 0⟩
/-- PWR_DOM_STAT HELD[7:7] (R532). -/
def PWR_DOM_STAT_HELD : Fld := ⟨.PWR_DOM_STAT, 7, 7⟩
/-- PWR_DOM_STAT FAIL_PLL[6:6] (R532). -/
def PWR_DOM_STAT_FAIL_PLL : Fld := ⟨.PWR_DOM_STAT, 6, 6⟩
/-- PWR_DOM_STAT STATE[2:0] (R532). -/
def PWR_DOM_STAT_STATE : Fld := ⟨.PWR_DOM_STAT, 2, 0⟩
/-- PWR_DOM_CTRL RESET[0:0] (R532). -/
def PWR_DOM_CTRL_RESET : Fld := ⟨.PWR_DOM_CTRL, 0, 0⟩
/-- PWR_DOZE_EN PORTS[63:0] (R532). -/
def PWR_DOZE_EN_PORTS : Fld := ⟨.PWR_DOZE_EN, 63, 0⟩
/-- PWR_GOV_CFG EN[31:31] (R532). -/
def PWR_GOV_CFG_EN : Fld := ⟨.PWR_GOV_CFG, 31, 31⟩
/-- PWR_GOV_CFG WAVE[25:20] (R532). -/
def PWR_GOV_CFG_WAVE : Fld := ⟨.PWR_GOV_CFG, 25, 20⟩
/-- PWR_GOV_CFG RISE[19:10] (R532). -/
def PWR_GOV_CFG_RISE : Fld := ⟨.PWR_GOV_CFG, 19, 10⟩
/-- PWR_GOV_CFG FALL[9:0] (R532). -/
def PWR_GOV_CFG_FALL : Fld := ⟨.PWR_GOV_CFG, 9, 0⟩
/-- PWR_GOV_FLOOR CORE_FLOOR[7:0] (R532). -/
def PWR_GOV_FLOOR_CORE_FLOOR : Fld := ⟨.PWR_GOV_FLOOR, 7, 0⟩
/-- PWR_GOV_STAT BALLAST[31:16] (R532). -/
def PWR_GOV_STAT_BALLAST : Fld := ⟨.PWR_GOV_STAT, 31, 16⟩
/-- PWR_GOV_STAT EST[15:0] (R532). -/
def PWR_GOV_STAT_EST : Fld := ⟨.PWR_GOV_STAT, 15, 0⟩
/-- PWR_REFUSE_CAP REASON[31:24] (R532). -/
def PWR_REFUSE_CAP_REASON : Fld := ⟨.PWR_REFUSE_CAP, 31, 24⟩
/-- PWR_REFUSE_CAP CLASS[23:21] (R532). -/
def PWR_REFUSE_CAP_CLASS : Fld := ⟨.PWR_REFUSE_CAP, 23, 21⟩
/-- PWR_REFUSE_CAP ABORT[20:20] (R532). -/
def PWR_REFUSE_CAP_ABORT : Fld := ⟨.PWR_REFUSE_CAP, 20, 20⟩
/-- PWR_REFUSE_CAP TARGET[19:18] (R532). -/
def PWR_REFUSE_CAP_TARGET : Fld := ⟨.PWR_REFUSE_CAP, 19, 18⟩
/-- PWR_REFUSE_CAP VALID[17:17] (R532). -/
def PWR_REFUSE_CAP_VALID : Fld := ⟨.PWR_REFUSE_CAP, 17, 17⟩
/-- PWR_REFUSE_CAP INDEX[15:0] (R532). -/
def PWR_REFUSE_CAP_INDEX : Fld := ⟨.PWR_REFUSE_CAP, 15, 0⟩
/-- BOOT_STAT READY[31:31] (R555). -/
def BOOT_STAT_READY : Fld := ⟨.BOOT_STAT, 31, 31⟩
/-- BOOT_STAT DEGRADED[30:30] (R555). -/
def BOOT_STAT_DEGRADED : Fld := ⟨.BOOT_STAT, 30, 30⟩
/-- BOOT_STAT FAST[29:29] (R555). -/
def BOOT_STAT_FAST : Fld := ⟨.BOOT_STAT, 29, 29⟩
/-- BOOT_STAT WARM[28:28] (R555). -/
def BOOT_STAT_WARM : Fld := ⟨.BOOT_STAT, 28, 28⟩
/-- BOOT_STAT STEP[27:24] (R555). -/
def BOOT_STAT_STEP : Fld := ⟨.BOOT_STAT, 27, 24⟩
/-- BOOT_STAT REASON[23:16] (R555). -/
def BOOT_STAT_REASON : Fld := ⟨.BOOT_STAT, 23, 16⟩
/-- BOOT_STAT DETAIL[15:8] (R555). -/
def BOOT_STAT_DETAIL : Fld := ⟨.BOOT_STAT, 15, 8⟩
/-- BOOT_CFG LINK_WAIT[15:8] (R555). -/
def BOOT_CFG_LINK_WAIT : Fld := ⟨.BOOT_CFG, 15, 8⟩
/-- BOOT_CFG FAST[0:0] (R555). -/
def BOOT_CFG_FAST : Fld := ⟨.BOOT_CFG, 0, 0⟩
/-- BOOT_TILE_MAP AVAIL[63:32] (R555). -/
def BOOT_TILE_MAP_AVAIL : Fld := ⟨.BOOT_TILE_MAP, 63, 32⟩
/-- BOOT_TILE_MAP S33_EN[13:13] (R555). -/
def BOOT_TILE_MAP_S33_EN : Fld := ⟨.BOOT_TILE_MAP, 13, 13⟩
/-- BOOT_TILE_MAP S33_TILE[12:8] (R555). -/
def BOOT_TILE_MAP_S33_TILE : Fld := ⟨.BOOT_TILE_MAP, 12, 8⟩
/-- BOOT_TILE_MAP S32_EN[5:5] (R555). -/
def BOOT_TILE_MAP_S32_EN : Fld := ⟨.BOOT_TILE_MAP, 5, 5⟩
/-- BOOT_TILE_MAP S32_TILE[4:0] (R555). -/
def BOOT_TILE_MAP_S32_TILE : Fld := ⟨.BOOT_TILE_MAP, 4, 0⟩
/-- BOOT_BCAST_STAT IMAGE_ID[63:32] (R555). -/
def BOOT_BCAST_STAT_IMAGE_ID : Fld := ⟨.BOOT_BCAST_STAT, 63, 32⟩
/-- BOOT_BCAST_STAT STATE[31:30] (R555). -/
def BOOT_BCAST_STAT_STATE : Fld := ⟨.BOOT_BCAST_STAT, 31, 30⟩
/-- BOOT_BCAST_STAT CHUNKS[23:0] (R555). -/
def BOOT_BCAST_STAT_CHUNKS : Fld := ⟨.BOOT_BCAST_STAT, 23, 0⟩
/-- SEC_STAT PART[31:28] (R577). -/
def SEC_STAT_PART : Fld := ⟨.SEC_STAT, 31, 28⟩
/-- SEC_STAT PUF_OK[27:27] (R577). -/
def SEC_STAT_PUF_OK : Fld := ⟨.SEC_STAT, 27, 27⟩
/-- SEC_STAT SLOT[26:26] (R577). -/
def SEC_STAT_SLOT : Fld := ⟨.SEC_STAT, 26, 26⟩
/-- SEC_STAT PEND[25:25] (R577). -/
def SEC_STAT_PEND : Fld := ⟨.SEC_STAT, 25, 25⟩
/-- SEC_STAT LIC_PEND[24:24] (R577). -/
def SEC_STAT_LIC_PEND : Fld := ⟨.SEC_STAT, 24, 24⟩
/-- SEC_STAT SVN_FLOOR[23:18] (R577). -/
def SEC_STAT_SVN_FLOOR : Fld := ⟨.SEC_STAT, 23, 18⟩
/-- SEC_STAT SVN[17:12] (R577). -/
def SEC_STAT_SVN : Fld := ⟨.SEC_STAT, 17, 12⟩
/-- SEC_ID_PUB KEY[31:0] (R577). -/
def SEC_ID_PUB_KEY : Fld := ⟨.SEC_ID_PUB, 31, 0⟩
/-- SEC_STAGE_STAT STATE[31:29] (R577). -/
def SEC_STAGE_STAT_STATE : Fld := ⟨.SEC_STAGE_STAT, 31, 29⟩
/-- SEC_STAGE_STAT BYTES[25:0] (R577). -/
def SEC_STAGE_STAT_BYTES : Fld := ⟨.SEC_STAGE_STAT, 25, 0⟩
/-- SEC_JRNL_STAT GEN[63:32] (R577). -/
def SEC_JRNL_STAT_GEN : Fld := ⟨.SEC_JRNL_STAT, 63, 32⟩
/-- SEC_JRNL_STAT BANK[31:31] (R577). -/
def SEC_JRNL_STAT_BANK : Fld := ⟨.SEC_JRNL_STAT, 31, 31⟩
/-- SEC_JRNL_STAT COMPACT[30:30] (R577). -/
def SEC_JRNL_STAT_COMPACT : Fld := ⟨.SEC_JRNL_STAT, 30, 30⟩
/-- SEC_JRNL_STAT USED[29:15] (R577). -/
def SEC_JRNL_STAT_USED : Fld := ⟨.SEC_JRNL_STAT, 29, 15⟩
/-- SEC_JRNL_STAT LIVE[14:0] (R577). -/
def SEC_JRNL_STAT_LIVE : Fld := ⟨.SEC_JRNL_STAT, 14, 0⟩
/-- LOUPE_CTRL EN[31:31] (R613). -/
def LOUPE_CTRL_EN : Fld := ⟨.LOUPE_CTRL, 31, 31⟩
/-- LOUPE_CTRL DEST[30:30] (R613). -/
def LOUPE_CTRL_DEST : Fld := ⟨.LOUPE_CTRL, 30, 30⟩
/-- LOUPE_CTRL MODE[29:29] (R613). -/
def LOUPE_CTRL_MODE : Fld := ⟨.LOUPE_CTRL, 29, 29⟩
/-- LOUPE_CTRL EVENTS[13:6] (R613). -/
def LOUPE_CTRL_EVENTS : Fld := ⟨.LOUPE_CTRL, 13, 6⟩
/-- LOUPE_CTRL SIZE_LOG2[5:0] (R613). -/
def LOUPE_CTRL_SIZE_LOG2 : Fld := ⟨.LOUPE_CTRL, 5, 0⟩
/-- LOUPE_BASE BASE[63:0] (R613). -/
def LOUPE_BASE_BASE : Fld := ⟨.LOUPE_BASE, 63, 0⟩
/-- LOUPE_WPTR WPTR[63:0] (R613). -/
def LOUPE_WPTR_WPTR : Fld := ⟨.LOUPE_WPTR, 63, 0⟩
/-- LOUPE_RPTR RPTR[63:0] (R613). -/
def LOUPE_RPTR_RPTR : Fld := ⟨.LOUPE_RPTR, 63, 0⟩
/-- LOUPE_FILT TILES[63:32] (R613). -/
def LOUPE_FILT_TILES : Fld := ⟨.LOUPE_FILT, 63, 32⟩
/-- LOUPE_FILT TAG[31:16] (R613). -/
def LOUPE_FILT_TAG : Fld := ⟨.LOUPE_FILT, 31, 16⟩
/-- LOUPE_FILT TAGMASK[15:0] (R613). -/
def LOUPE_FILT_TAGMASK : Fld := ⟨.LOUPE_FILT, 15, 0⟩
/-- FLT_STATUS HB_SUSP[6:6] (R614). -/
def FLT_STATUS_HB_SUSP : Fld := ⟨.FLT_STATUS, 6, 6⟩
/-- FLT_STATUS FENCE_CHG[5:5] (R614). -/
def FLT_STATUS_FENCE_CHG : Fld := ⟨.FLT_STATUS, 5, 5⟩
/-- FLT_STATUS MAINT_DONE[4:4] (R614). -/
def FLT_STATUS_MAINT_DONE : Fld := ⟨.FLT_STATUS, 4, 4⟩
/-- FLT_STATUS SC_FAIL[3:3] (R614). -/
def FLT_STATUS_SC_FAIL : Fld := ⟨.FLT_STATUS, 3, 3⟩
/-- FLT_STATUS DOM_FAIL[2:2] (R614). -/
def FLT_STATUS_DOM_FAIL : Fld := ⟨.FLT_STATUS, 2, 2⟩
/-- FLT_STATUS CTX_FAULT[1:1] (R614). -/
def FLT_STATUS_CTX_FAULT : Fld := ⟨.FLT_STATUS, 1, 1⟩
/-- FLT_STATUS LINK_ERR[0:0] (R614). -/
def FLT_STATUS_LINK_ERR : Fld := ⟨.FLT_STATUS, 0, 0⟩
/-- FLT_FM_CFG EN[31:31] (R614). -/
def FLT_FM_CFG_EN : Fld := ⟨.FLT_FM_CFG, 31, 31⟩
/-- FLT_FM_CFG HB_EN[30:30] (R614). -/
def FLT_FM_CFG_HB_EN : Fld := ⟨.FLT_FM_CFG, 30, 30⟩
/-- FLT_FM_CFG REP_EN[29:29] (R614). -/
def FLT_FM_CFG_REP_EN : Fld := ⟨.FLT_FM_CFG, 29, 29⟩
/-- FLT_FM_CFG FM_ID[15:0] (R614). -/
def FLT_FM_CFG_FM_ID : Fld := ⟨.FLT_FM_CFG, 15, 0⟩
/-- FLT_FM_PORTS PORTS[63:0] (R614). -/
def FLT_FM_PORTS_PORTS : Fld := ⟨.FLT_FM_PORTS, 63, 0⟩
/-- FLT_FM_STAT CSEQ[63:32] (R614). -/
def FLT_FM_STAT_CSEQ : Fld := ⟨.FLT_FM_STAT, 63, 32⟩
/-- FLT_FM_STAT HBSEQ[31:0] (R614). -/
def FLT_FM_STAT_HBSEQ : Fld := ⟨.FLT_FM_STAT, 31, 0⟩
/-- FLT_FENCE LEVEL[31:30] (R614). -/
def FLT_FENCE_LEVEL : Fld := ⟨.FLT_FENCE, 31, 30⟩
/-- FLT_FENCE BAR[23:16] (R614). -/
def FLT_FENCE_BAR : Fld := ⟨.FLT_FENCE, 23, 16⟩
/-- FLT_FENCE EPOCH[15:0] (R614). -/
def FLT_FENCE_EPOCH : Fld := ⟨.FLT_FENCE, 15, 0⟩
/-- FLT_XFER_CFG ARM[63:63] (R614). -/
def FLT_XFER_CFG_ARM : Fld := ⟨.FLT_XFER_CFG, 63, 63⟩
/-- FLT_XFER_CFG XFER_ID[47:32] (R614). -/
def FLT_XFER_CFG_XFER_ID : Fld := ⟨.FLT_XFER_CFG, 47, 32⟩
/-- FLT_XFER_CFG SRC[15:0] (R614). -/
def FLT_XFER_CFG_SRC : Fld := ⟨.FLT_XFER_CFG, 15, 0⟩
/-- FLT_SC_CFG RES_EN[31:31] (R614). -/
def FLT_SC_CFG_RES_EN : Fld := ⟨.FLT_SC_CFG, 31, 31⟩
/-- FLT_SC_CFG SHADOW_EN[30:30] (R614). -/
def FLT_SC_CFG_SHADOW_EN : Fld := ⟨.FLT_SC_CFG, 30, 30⟩
/-- FLT_SC_CFG CANARY_EN[29:29] (R614). -/
def FLT_SC_CFG_CANARY_EN : Fld := ⟨.FLT_SC_CFG, 29, 29⟩
/-- FLT_SC_CFG SHADOW_K[23:20] (R614). -/
def FLT_SC_CFG_SHADOW_K : Fld := ⟨.FLT_SC_CFG, 23, 20⟩
/-- FLT_SC_CFG RETIRE_N[19:16] (R614). -/
def FLT_SC_CFG_RETIRE_N : Fld := ⟨.FLT_SC_CFG, 19, 16⟩
/-- FLT_SC_CFG CANARY_MS[15:0] (R614). -/
def FLT_SC_CFG_CANARY_MS : Fld := ⟨.FLT_SC_CFG, 15, 0⟩
/-- FLT_SC_STAT FAILS[15:8] (R614). -/
def FLT_SC_STAT_FAILS : Fld := ⟨.FLT_SC_STAT, 15, 8⟩
/-- FLT_SC_STAT SHADOW_OFF[1:1] (R614). -/
def FLT_SC_STAT_SHADOW_OFF : Fld := ⟨.FLT_SC_STAT, 1, 1⟩
/-- FLT_SC_STAT RETIRED[0:0] (R614). -/
def FLT_SC_STAT_RETIRED : Fld := ⟨.FLT_SC_STAT, 0, 0⟩
/-- FLT_MAINT_STAT INDEX[63:48] (R614). -/
def FLT_MAINT_STAT_INDEX : Fld := ⟨.FLT_MAINT_STAT, 63, 48⟩
/-- FLT_MAINT_STAT ACT[47:40] (R614). -/
def FLT_MAINT_STAT_ACT : Fld := ⟨.FLT_MAINT_STAT, 47, 40⟩
/-- FLT_MAINT_STAT STATE[39:38] (R614). -/
def FLT_MAINT_STAT_STATE : Fld := ⟨.FLT_MAINT_STAT, 39, 38⟩
/-- FLT_MAINT_STAT PROGRESS[31:0] (R614). -/
def FLT_MAINT_STAT_PROGRESS : Fld := ⟨.FLT_MAINT_STAT, 31, 0⟩
/-- PORT_BER_ERR ERR[31:0] (R61). -/
def PORT_BER_ERR_ERR : Fld := ⟨.PORT_BER_ERR, 31, 0⟩
/-- QOS_QSTAT DEPTH[19:0] (R218). -/
def QOS_QSTAT_DEPTH : Fld := ⟨.QOS_QSTAT, 19, 0⟩
/-- CORE_DROP_CAP DST[63:48] (R179). -/
def CORE_DROP_CAP_DST : Fld := ⟨.CORE_DROP_CAP, 63, 48⟩
/-- CORE_DROP_CAP SRC[47:32] (R179). -/
def CORE_DROP_CAP_SRC : Fld := ⟨.CORE_DROP_CAP, 47, 32⟩
/-- CORE_DROP_CAP REASON[31:24] (R179). -/
def CORE_DROP_CAP_REASON : Fld := ⟨.CORE_DROP_CAP, 31, 24⟩
/-- CORE_DROP_CAP PORT[23:16] (R179). -/
def CORE_DROP_CAP_PORT : Fld := ⟨.CORE_DROP_CAP, 23, 16⟩
/-- CORE_DROP_CAP VALID[15:15] (R179). -/
def CORE_DROP_CAP_VALID : Fld := ⟨.CORE_DROP_CAP, 15, 15⟩
/-- CORE_DROP_CAP PART[14:11] (R179). -/
def CORE_DROP_CAP_PART : Fld := ⟨.CORE_DROP_CAP, 14, 11⟩
/-- CORE_DROP_CAP TYPE[10:7] (R179). -/
def CORE_DROP_CAP_TYPE : Fld := ⟨.CORE_DROP_CAP, 10, 7⟩
/-- CORE_DROP_CAP VL[6:4] (R179). -/
def CORE_DROP_CAP_VL : Fld := ⟨.CORE_DROP_CAP, 6, 4⟩
/-- CORE_DROP_CAP INTSRC[3:3] (R179). -/
def CORE_DROP_CAP_INTSRC : Fld := ⟨.CORE_DROP_CAP, 3, 3⟩

end Sys2Proof.Machine.F
end

