-- ==== Sys2Proof/Machine/StFabric.lean ====
section
/-! DEFINITION. The state of ports, links, the switch core, the buffer and the capture units that no
register holds (02-05). Registers whose fields are these values are views of them (`regRead`). -/

namespace Sys2Proof.Machine

/-! Optical ports (02) -/

/-- The port states of R74. -/
inductive PortState where
  | absent | disabled | dark | training | measuring | up | degraded | restripe | down | laserCut | peerCut
  deriving DecidableEq, Repr

/-- A Prism steer in progress in one direction (R53, R54, R117): the lane, the failed and the new
wavelength, the slots to the boundary, whether STEER_ACK came, whether the boundary has passed, and the
repeats of the announcement. -/
structure Steer where
  lane : Nat
  fromWave : Nat
  toWave : Nat
  countdown : Nat
  acked : Bool
  switched : Bool
  repeats : Nat
  deriving DecidableEq, Repr

/-- A restripe in progress (R118): the width proposed, the consecutive matching markers accepted on each
lane, the map those markers spell, and the link-control words still to go out before the markers do. -/
structure Restripe where
  width : Nat
  hits : List Nat
  rmap : BitVec 12
  announce : List (BitVec 16)
  deriving DecidableEq, Repr

/-- The optical side of a port (R74-R80) with its training exchange (R62, R120-R123).
minW, maxW and spareEn are the PORT_MODE fields in force since the last full training (R76). noticeAt: the cycle of the
last cut notice (R69). restriped: a restripe is complete and no slot has come since. turn: the word of step 5 that goes out next (R121). retrainOp: the width and transmit map on which
a port that has begun a training tells its peer so (R115). -/
structure PortSt where
  state : PortState
  reason : Nat
  width : Nat
  txFail : BitVec 5
  rxFail : BitVec 5
  txMap : BitVec 12
  rxMap : BitVec 12
  los : Bool
  modOn : Bool
  wake : Bool
  noticeAt : Option Nat
  step : Nat
  minW : Nat
  maxW : Nat
  spareEn : Bool
  peerCap : Option (BitVec 32)
  peerErr : List (Option (BitVec 32))
  peerMap : Option (BitVec 32)
  wantResume : Bool
  txSteer : Option Steer
  rxSteer : Option Steer
  pendFail : List (Bool × Nat)
  steerReq : Option (Nat × Nat)
  restripe : Option Restripe
  retrainAfter : Bool
  restriped : Bool
  turn : Nat
  retrainOp : Option (Nat × BitVec 12)
  deriving DecidableEq, Repr

/-- A port after reset: DISABLED (R74), lane maps unused (R80). -/
def PortSt.reset : PortSt :=
  { state := .disabled, reason := 0, width := 0, txFail := 0, rxFail := 0, txMap := 0xFFF,
    rxMap := 0xFFF, los := false, modOn := false, wake := false, noticeAt := none, step := 0,
    minW := 1, maxW := 4, spareEn := true, peerCap := none, peerErr := [none, none, none, none, none],
    peerMap := none, wantResume := false, txSteer := none, rxSteer := none, pendFail := [],
    steerReq := none, restripe := none, retrainAfter := false, restriped := false, turn := 0, retrainOp := none }

/-- A laser fibre (R66-R72): cut, being cut by a CMIS write, being restored, or in a probe window; want: it is to be
restored when the cut under way is complete (R72); and for each wavelength the consecutive photodiode samples below
power (R43). -/
structure FibreSt where
  cut : Bool
  want : Bool
  cutting : Bool
  restoring : Bool
  probing : Bool
  low : List Nat
  deriving DecidableEq, Repr

def FibreSt.reset : FibreSt :=
  { cut := false, want := false, cutting := false, restoring := false, probing := false, low := [0, 0, 0, 0, 0] }

/-- A laser module (R44, R45, R48): consecutive failed bus transactions, the output fibres that are dark (reported by the
module, or all four while it is absent), and whether its bus runs at 1 MHz. -/
structure ElsSt where
  busFails : Nat
  dark : BitVec 4
  fast : Bool
  deriving DecidableEq, Repr

def ElsSt.reset : ElsSt := { busFails := 0, dark := 0, fast := false }

/-! The link layer (03) -/

/-- The link states of R124. -/
inductive LState where
  | down | init | active | replay | restripe | doze
  deriving DecidableEq, Repr

/-- A flit held for replay (R106, R108): its original bits, whether it was sent stomped, and the
shared-buffer cell it holds (none for an idle flit). -/
structure SentFlit where
  flit : Flit
  stomped : Bool
  cell : Option Nat
  deriving DecidableEq, Repr

/-- A cell waiting in an egress queue (R192): its shared-buffer cell, its flit, the entry cycle (R203), its
push rank, and where it came from. dyn: it crossed in dynamic mode (R151); toPeer: a result copy that takes
its DST from the egress port's peer (R237); early: its ingress has not checked codeword B yet (R156). -/
structure QCell where
  id : Nat
  flit : Flit
  src : Source
  enq : Nat
  rank : Nat
  dyn : Bool
  toPeer : Bool
  early : Bool
  deriving DecidableEq, Repr

/-- A flit selected for a transmit boundary (R141, R194, R156): its egress queue (16: on-slot express),
the cell, and whether the ingress found it bad and it leaves stomped (R112). -/
structure TxSel where
  queue : Nat
  cell : QCell
  stomp : Bool
  deriving DecidableEq, Repr

/-- A flit the link layer has delivered and binding has not taken yet. replayed: accepted through replay or
behind discarded flits (R114); early: delivered from codeword A alone (R112); time: the fabric time and age the cycle of
its delivery; extra: cells it has got for its further copies (R186). -/
structure RxFlit where
  flit : Flit
  replayed : Bool
  early : Bool
  time : Nat
  age : Nat
  extra : List Nat
  deriving DecidableEq, Repr

/-- The link layer of a port (R87-R125). scrTx, scrRx: the scrambler of each lane (R87); blkTx: data blocks sent on a
lane since the last marker (R88); mcountTx: the count of the next marker (R89). early: a slot of which only codeword A
is decoded, whose flit was offered to binding (R112). annVal, annCount: the last STEER_ANN received and the slots in a
row that carried it, spare idle blocks included (R116). nakWait: a NAK that waits for a steer's boundary (R117).
waking: a dozing link relocks (R125). -/
structure LinkSt where
  lstate : LState
  resumed : Bool
  keep : Bool
  consec : Nat
  lackMoved : Bool
  txNext : Nat
  rxExpect : Nat
  rxHigh : Nat
  nakPending : Bool
  nakDue : Option Nat
  replayList : List SentFlit
  cursor : Option Nat
  gotRx : Bool
  gotAck : Bool
  avail : List Nat
  outst : List Nat
  due : List Nat
  initDue : List Nat
  lcVal : BitVec 16
  lcCount : Nat
  cutNotice : Bool
  dozeTries : Nat
  dozeReq : Bool
  dozeAck : Nat
  mcountTx : Nat
  laneMark : List (Option Nat)
  laneGood : List Nat
  laneMiss : List Nat
  aligned : Bool
  txSel : List TxSel
  early : Option RxSlot
  scrTx : List Nat
  scrRx : List Nat
  blkTx : Nat
  annVal : BitVec 16
  annCount : Nat
  nakWait : Option Nat
  waking : Bool
  rx : List RxFlit
  deriving DecidableEq, Repr

def LinkSt.reset : LinkSt :=
  { lstate := .down, resumed := false, keep := false, consec := 0, lackMoved := true, txNext := 0,
    rxExpect := 0, rxHigh := 0, nakPending := false, nakDue := none, replayList := [], cursor := none,
    gotRx := false, gotAck := false, avail := [0, 0, 0, 0, 0, 0, 0, 0],
    outst := [0, 0, 0, 0, 0, 0, 0, 0], due := [0, 0, 0, 0, 0, 0, 0, 0],
    initDue := [0, 0, 0, 0, 0, 0, 0, 0], lcVal := 0, lcCount := 0, cutNotice := false,
    dozeTries := 0, dozeReq := false, dozeAck := 0, mcountTx := 0,
    laneMark := [none, none, none, none], laneGood := [0, 0, 0, 0], laneMiss := [0, 0, 0, 0],
    aligned := false, txSel := [], early := none, scrTx := [0, 0, 0, 0], scrRx := [0, 0, 0, 0], blkTx := 0, annVal := 0,
    annCount := 0, nakWait := none, waking := false, rx := [] }

/-! The switch core (04) -/

/-- A cell in the core: one copy of a flit for one egress group (R166), or for one memory-side die.
id numbers the shared-buffer cell; odst is the DST of its flow (R143); ports are the group's ports that get a copy, with
their push ranks at binding (R188, R197); queue is that of its class (R192); hash is H (R143), and group the intermediate
group of the deterministic mode (R144). -/
structure Cell where
  id : Nat
  flit : Flit
  odst : BitVec 16
  src : Source
  eg : Nat
  ports : List Nat
  tile : Bool
  die : Option Nat
  queue : Nat
  ranks : List Nat
  hash : Nat
  group : Nat
  dyn : Bool
  head : Bool
  toPeer : Bool
  since : Nat
  deriving DecidableEq, Repr

/-- An express flit in S2 of a port (R156), and the cycle in which it crossed the core from its ingress group. -/
structure S2Wait where
  cell : QCell
  group : Nat
  port : Nat
  crossed : Option Nat
  deriving DecidableEq, Repr

/-- An express candidate on its way to its egress port (R153, R155, R156). step: 0 held for one cc, 1 in cc 1, 2 granted
in cc 2, 3 across stage one in cc 3, 7 bound for S2, 8 the same a cc later. bad: codeword B or HCRC proved it wrong
(R112). -/
structure ExpCand where
  cell : QCell
  port : Nat
  out : Nat
  step : Nat
  bad : Bool
  deriving DecidableEq, Repr

/-- A flit of the time and barrier unit or of firmware for a queue of a port, waiting for a cell (R186). -/
structure OwnFlit where
  port : Nat
  queue : Nat
  flit : Flit
  age : Nat
  deriving DecidableEq, Repr

/-- A flow with cells in the core (R143, R148, R150): its mode and hash, and how many cells. -/
structure FlowEnt where
  src : Source
  fsrc : BitVec 16
  fdst : BitVec 16
  part : BitVec 4
  vl : BitVec 3
  ctx : BitVec 12
  dyn : Bool
  hash : Nat
  count : Nat
  deriving DecidableEq, Repr

/-- A resequencer entry of an egress group (R150, R151). -/
structure Reseq where
  src : Source
  fsrc : BitVec 16
  fdst : BitVec 16
  part : BitVec 4
  vl : BitVec 3
  live : Bool
  expect : Nat
  held : List (Nat × Cell)
  holes : List Nat
  since : Option Nat
  deriving DecidableEq, Repr

/-- A checked update (R173-R176): the function, ring and order of its descriptor, the reason it is refused with (0:
none), and, once committed, the cells that must still leave. -/
structure Update where
  fn : Nat
  ring : Nat
  order : Nat
  reason : Nat
  cells : List Nat
  deriving DecidableEq, Repr

/-- An event (R495): CLASS, REASON, the partition it carries (none: it goes to the primary), and body
bytes 8-31. -/
structure Evt where
  cls : Nat
  reason : Nat
  part : Option Nat
  body : List (BitVec 8)
  deriving DecidableEq, Repr

/-- A due credit or a waiting internal source in the arbitration of R190. -/
structure WaitCr where
  port : Nat
  vl : Nat
  rank : Nat
  age : Nat
  counted : Bool
  deriving DecidableEq, Repr

/-- A flit an internal source sends (R186): the flit, the cell it holds and those for its further copies, and the engine
command that sends it (its serial plus one; 0 none). -/
structure SrcFlit where
  flit : Flit
  cell : Option Nat
  extra : List Nat
  age : Nat
  cmd : Nat
  deriving DecidableEq, Repr

/-- A reference-counted shared-buffer cell (R166, R175, R182): copies that still need it, copies not yet
sent for the first time or taken, and whether it counts in INT_USED. -/
structure CellRef where
  copies : Nat
  unsent : Nat
  internal : Bool
  deriving DecidableEq, Repr

/-- The switch core and the shared buffer (R137-R191). In this core cycle: used1, used2: flits each connection has
carried; visited: egress groups whose scheduler has made its visit; arb: what the arbitration of R190 has served. rep:
the depth that intermediate group j last reported to ingress group i toward egress group e, at (32 i + j) 32 + e (R146). tmo: the contexts
that faulted on their TMO in this cc, with the events to post at its end (R412). -/
structure CoreSt where
  slot : Nat
  matched : Nat
  slotLocked : Bool
  used1 : Tbl Nat
  used2 : Tbl Nat
  visited : List Nat
  arb : Nat
  rep : Tbl Nat
  nextCell : Nat
  refs : Tbl CellRef
  free : Nat
  backed : Nat
  intUsed : Nat
  waiting : List WaitCr
  ingressQ : Tbl (List Cell)
  interQ : Tbl (List Cell)
  flows : List FlowEnt
  reseqIn : Tbl (List Cell)
  reseqHole : Tbl (List (FlowEnt × Nat))
  reseq : Tbl (List Reseq)
  express : List ExpCand
  s2wait : List S2Wait
  ownTx : List OwnFlit
  srcQ : Tbl (List SrcFlit)
  txSeq : Tbl Nat
  tileQ : Tbl (List QCell)
  tileRx : Tbl (List QCell)
  ctxWait : List (Nat × QCell × Bool)
  memRx : Tbl (List QCell)
  fmRx : List (Nat × Flit)
  btRx : List (Nat × Flit × Nat)
  updates : List Update
  updWait : List Update
  tmo : List (Nat × Evt)
  deriving DecidableEq, Repr

def CoreSt.reset : CoreSt :=
  { slot := 0, matched := 0, slotLocked := false, used1 := [], used2 := [], visited := [], arb := 0, rep := [],
    nextCell := 0, refs := [], free := 786432, backed := 0, intUsed := 0, waiting := [], ingressQ := [], interQ := [],
    flows := [], reseqIn := [], reseqHole := [], reseq := [], express := [], s2wait := [], ownTx := [], srcQ := [], txSeq := [],
    tileQ := [], tileRx := [], ctxWait := [], memRx := [], fmRx := [], btRx := [], updates := [], updWait := [], tmo := [] }

/-! Queues, capture (05) -/

/-- The port-down states of R212. -/
inductive PdnState where
  | active | held | flushing
  deriving DecidableEq, Repr

/-- The queues of one egress port (R192-R198, R212). spent is how far each shaper's count lies below its
full bucket, in units of 2^-8 byte (R198); mspent the same for the port's meters (R200). -/
structure QueueSt where
  q : Tbl (List QCell)
  spent : Tbl Nat
  mspent : Tbl Nat
  cur : Nat
  deficit : Tbl Nat
  pdn : PdnState
  timer : Bool
  cap : Nat
  noHold : Bool
  deriving DecidableEq, Repr

/-- Queues after a cold reset: empty; every bucket full (R198). -/
def QueueSt.reset : QueueSt :=
  { q := [], spent := [], mspent := [], cur := 0, deficit := [], pdn := .active, timer := false,
    cap := 0, noHold := false }

/-- A pending telemetry record (R202-R205): the port and the record's 128 bytes but the LOST flag. -/
structure TeleRec where
  port : Nat
  bytes : List (BitVec 8)
  deriving DecidableEq, Repr

/-- A queued Mirror record (R210): its 64 bytes but the LOST flag. -/
structure MirrRec where
  bytes : List (BitVec 8)
  deriving DecidableEq, Repr

/-- The event a Mirror filter may capture (R207): its cycle and fabric time, the point, port, flit and queue it
concerns. -/
structure MirrEvt where
  cycle : Nat := 0
  time : Nat := 0
  point : Nat
  port : Nat
  flit : Flit
  iport : Option Nat
  eport : Option Nat
  queue : Nat
  depth : Nat
  reason : Nat
  deriving DecidableEq, Repr

/-- Telemetry and Mirror (R202-R211). took: one more than the cycle of the last Mirror record (R209). -/
structure CaptSt where
  sampleNo : Nat
  tele : List TeleRec
  teleLost : Bool
  filtCnt : List Nat
  evts : List MirrEvt
  took : Nat
  mirrQ : List MirrRec
  mirrLost : Bool
  deriving DecidableEq, Repr

def CaptSt.reset : CaptSt :=
  { sampleNo := 0, tele := [], teleLost := false, filtCnt := [0, 0, 0, 0, 0, 0, 0, 0],
    evts := [], took := 0, mirrQ := [], mirrLost := false }

end Sys2Proof.Machine
end

