-- ==== Sys2Proof/Machine/StHost.lean ====
section
/-! DEFINITION. The state of the host interface that no register holds (13), and what the block sends to
the outside. -/

namespace Sys2Proof.Machine

/-- What the block sends to its surroundings, in the order it sends it (assumption log, entry 2). -/
inductive Output where
  /-- A flit slot on a port: its link-control bits and flit (R100), and what the five wavelengths carry for it: the
  coded symbols on the lanes, spare idle blocks elsewhere (R83-R87, R91). -/
  | flitTx (p : Nat) (lc : BitVec 16) (f : Flit) (sig : Signal)
  /-- One marker block on each wavelength that sends one (R88, R118, R125). -/
  | markers (p : Nat) (sig : Signal)
  /-- A training word, as the block that each of the five wavelengths carries (R120, R121). -/
  | trainWord (p : Nat) (w : TrainWord) (b : Block)
  /-- PRBS31 starts on all five wavelengths for a measurement (R60). -/
  | prbs (p : Nat)
  /-- The wake pattern starts on a port: one period of it by wavelength (R92, R125). -/
  | wakePattern (p : Nat) (sig : Signal)
  /-- A CMIS request for an output power of module k, output fibre f, wavelength i (R46). -/
  | cmisPower (k f i value : Nat)
  /-- A CMIS write that enables or disables output fibre f of module k (R66). -/
  | cmis (k f : Nat) (on : Bool)
  /-- A die-to-die link replays a transfer (R17). -/
  | d2dReplay (n : Nat)
  /-- A PCIe memory write of function fn to host memory. -/
  | hostWrite (fn addr : Nat) (bytes : List (BitVec 8))
  /-- A PCIe 64-bit Swap of function fn, which stores value (R488). -/
  | hostSwap (fn addr : Nat) (value : BitVec 64)
  /-- An MSI-X message of function fn. -/
  | msix (fn vec : Nat)
  /-- PCIe Advanced Error Reporting: an uncorrectable internal error (R20). -/
  | aer (fn : Nat)
  /-- The data of a PCIe read completion to function fn. -/
  | readData (fn : Nat) (value : BitVec 64)
  /-- The data of a window read of function fn; all ones also stand for poisoned data (R478). -/
  | windowData (fn : Nat) (bytes : List (BitVec 8))
  /-- An Unsupported Request completion to function fn (R478). -/
  | unsupported (fn : Nat)
  /-- Bytes returned on the board-management bus (R648). -/
  | bmc (bytes : List (BitVec 8))
  /-- What the JTAG instruction in force selects or returns at TDO (R650). -/
  | jtag (bits : List Bool)
  /-- An SPDM response in the DOE mailbox of function fn (R568). -/
  | spdm (fn : Nat) (bytes : List (BitVec 8))
  deriving DecidableEq, Repr

/-- An event ring of a function (R479, R495, R496): entries written, ESEQ, the host's consumer index, LOST
pending, and events since the last vector (R494). -/
structure EqSt where
  prod : Nat
  eseq : Nat
  cons : Nat
  lost : Bool
  pend : Nat
  deriving DecidableEq, Repr

def EqSt.reset : EqSt := { prod := 0, eseq := 0, cons := 0, lost := false, pend := 0 }

/-- A command descriptor that a ring has accepted (R480, R482). order: its place in the acceptance order of
both functions (R484); prim: its issuer was primary when it was accepted (R505); when it starts, mcast: the committed
CORE_CTX of the context it names has R_MODE multicast (R239), and data: the bytes of BUF (R485). -/
structure Desc where
  fn : Nat
  ring : Nat
  bytes : List (BitVec 8)
  order : Nat
  prim : Bool
  mcast : Bool
  data : List (BitVec 8)
  deriving DecidableEq, Repr

/-- A completion that waits to be written (R492). -/
structure Compl where
  desc : Desc
  status : Nat
  reason : Nat
  result : Nat
  time : Nat
  deriving DecidableEq, Repr

/-- The ring states of R503. -/
inductive RState where
  | disabled | running | stopping | stopped | error
  deriving DecidableEq, Repr

/-- A command ring (R482-R490, R499, R503): prod is the producer index last read; disabling tells whether
STOPPING ends in DISABLED. accepted have not started; active have started; done wait to be written. -/
structure RingSt where
  state : RState
  reason : Nat
  disabling : Bool
  cons : Nat
  prod : Nat
  expSeq : Nat
  lastConsumed : Nat
  lastCompleted : Nat
  accepted : List Desc
  active : List Desc
  done : List Compl
  deriving DecidableEq, Repr

def RingSt.reset : RingSt :=
  { state := .disabled, reason := 0, disabling := false, cons := 0, prod := 0, expSeq := 0,
    lastConsumed := 0xFFFFFFFF, lastCompleted := 0xFFFFFFFF, accepted := [], active := [], done := [] }

/-- A completion ring (R493, R494): entries written, the host's consumer index, completions since the last
vector, and whether a completion is held for room. -/
structure CqSt where
  prod : Nat
  cons : Nat
  pend : Nat
  held : Bool
  deriving DecidableEq, Repr

def CqSt.reset : CqSt := { prod := 0, cons := 0, pend := 0, held := false }

/-- A slot of HOST_QMR_STAT in use (R507-R509): the scope, the function and ring of its QUIESCE, whether it is
QUIESCED, and the staged values by register key. -/
structure Qmr where
  host : Nat
  ring : Nat
  func : Nat
  index : Nat
  quiesced : Bool
  stage : Tbl (Option (BitVec 64))
  deriving DecidableEq, Repr

/-- The fault agent (17): the number of the last report sent (R585). -/
structure FltSt where
  repSeq : Nat
  deriving DecidableEq, Repr

def FltSt.reset : FltSt := { repSeq := 0 }

/-- One PCIe function (13). snapshot: the register key and value that a 4-byte read of a low half has taken
(R621); first: the ring a pass served first (R490); poll: the polling interval in units of 100 ns, none
while polling is off (R491); perst: PCIEh_PERST_N is asserted (R646); absent: its reference clock did not toggle at step
0x1 (R645). -/
structure FnSt where
  perst : Bool
  absent : Bool
  linkUp : Bool
  busMaster : Bool
  flr : Bool
  eq : Tbl EqSt
  teleProd : Nat
  teleCons : Nat
  snapshot : Option (Nat × BitVec 64)
  rings : Tbl RingSt
  cqs : Tbl CqSt
  kick : Bool
  first : Nat
  poll : Option Nat
  beat : Nat
  deriving DecidableEq, Repr

def FnSt.reset : FnSt :=
  { perst := false, absent := false, linkUp := false, busMaster := false, flr := false, eq := [], teleProd := 0, teleCons := 0,
    snapshot := none, rings := [], cqs := [], kick := false, first := 63, poll := none, beat := 0 }

end Sys2Proof.Machine
end

