-- ==== Sys2Proof/Machine/StTile.lean ====
section
/-! DEFINITION. The state of contexts, fabric time and barriers that no register holds (06). -/

namespace Sys2Proof.Machine

/-- An element of an accumulator: (hi, lo), both 32-bit patterns (09). -/
abbrev Elem := BitVec 32 × BitVec 32

/-- The context states of R228. -/
inductive CtxState where
  | free | armed | open_ | faulted
  deriving DecidableEq, Repr

/-- A child record of a tree descriptor (R225): RANK and SRC. -/
structure Child where
  rank : Nat
  src : Nat
  deriving DecidableEq, Repr

/-- A tree descriptor (R225). -/
structure TreeDesc where
  role : Nat
  nchild : Nat
  op : Nat
  inFmt : Nat
  upFmt : Nat
  outFmt : Nat
  round : Nat
  win : Nat
  prog : Nat
  nelem : Nat
  parentId : Nat
  upCtx : Nat
  upRank : Nat
  resBase : Nat
  seed : Nat
  tmo : Nat
  block : Nat
  children : List Child
  deriving DecidableEq, Repr

def TreeDesc.zero : TreeDesc :=
  { role := 0, nchild := 0, op := 0, inFmt := 0, upFmt := 0, outFmt := 0, round := 0, win := 0,
    prog := 0, nelem := 0, parentId := 0, upCtx := 0, upRank := 0, resBase := 0, seed := 0, tmo := 0,
    block := 0, children := [] }

/-- A complete contribution flit that waits for its fold, or for its group memory (R234, R292): its OFS, its
child position, and its dense payload. -/
structure HeldFlit where
  ofs : Nat
  child : Nat
  pay : Payload
  deriving DecidableEq, Repr

/-! The sequencer (07) -/

/-- A source with its writes that are not visible yet, each with its issue cc (R280). -/
structure Lag (α : Type) where
  base : α
  writes : List (Nat × α)
  deriving DecidableEq, Repr

/-- An address generator (R285, R286): its set, its indices and WRAP. -/
structure Gen where
  loaded : Bool
  set : BitVec 256
  i0 : Nat
  i1 : Nat
  i2 : Nat
  wrap : Bool
  deriving DecidableEq, Repr

def Gen.none_ : Gen := { loaded := false, set := 0, i0 := 0, i1 := 0, i2 := 0, wrap := false }

/-- A run of a program (R268, R271-R300). cc counts the run's cycles; branch: the address after the delay
slots, and the slots left; stall: the cc spent at a WAIT; acted: the slots of the word at pc that have acted,
none before the word is presented; rel: releases not yet in effect (cc, new base); ending: an END has issued;
endPc: its address; haz: SEQ_CFG.HAZ at its start or resume (R300). -/
structure RunSt where
  ctx : Nat
  pc : Nat
  cc : Nat
  k : List (Lag (BitVec 32))
  c : List (Lag Bool)
  g : List (Lag Gen)
  lastTag : Nat
  bar : Option (Nat × Nat)
  branch : Option (Nat × Nat)
  stall : Option Nat
  acted : Option (List Nat)
  rel : List (Nat × Nat)
  ending : Bool
  endPc : Nat
  haz : Nat
  deriving DecidableEq, Repr

/-- An engine command (R288, R289, R316): its 256 bits, its place in the tile's push order, whether the
built-in logic pushed it, the address of the pushing word, whether its context has faulted since (its
output is then discarded, R298), and the cc until the engine sees it (R278, R289). -/
structure EngCmd where
  raw : BitVec 256
  serial : Nat
  unseen : Nat
  builtin : Bool
  pc : Nat
  dead : Bool
  deriving DecidableEq, Repr

/-- A program load that waits for a switch point (R305): the function, ring and order of its descriptor, and
the image. -/
structure LoadSt where
  fn : Nat
  ring : Nat
  order : Nat
  image : List (BitVec 8)
  deriving DecidableEq, Repr

/-- A physical tile (R268, R289): stores, the run, the context that has just yielded (R295), the
selected context that is counted as waiting for a slot (R257), the barrier arrivals on their way to the barrier unit
(barrier, context, cc left: R278), the commands (engine, context) whose completion no WAIT sees yet (R278), the engine queues
and executing commands by engine (0 SUM, 1 MOVE, 2 SORT, 3 SIFT), built-in pushes that wait for an entry, the
push counter, the loads that wait, a counter of flits taken, and one of SUM commands started (R600). pbad: program words with an uncorrectable
error (R307). -/
structure TileSt where
  pmem : Tbl (BitVec 128)
  pbad : Tbl Bool
  tmpl : Tbl (BitVec 256)
  pset : Tbl (BitVec 256)
  run : Option RunSt
  yielder : Option Nat
  selWait : Option Nat
  arr : List (Nat × Nat × Nat)
  fresh : List (Nat × Nat)
  q : Tbl (List EngCmd)
  busy : Tbl (Option EngCmd)
  built : List (Nat × EngCmd)
  serial : Nat
  loads : List LoadSt
  takeNo : Nat
  sumStarts : Nat
  deriving DecidableEq, Repr

def TileSt.reset : TileSt :=
  { pmem := [], pbad := [], tmpl := [], pset := [], run := none, yielder := none, selWait := none, arr := [], fresh := [], q := [], busy := [],
    built := [], serial := 0, loads := [], takeNo := 0, sumStarts := 0 }

/-- A context (R225-R234, R256-R262). slot: the resident slot; spilling, restoring: a transfer in progress;
pendFault, pendFree: a fault, or a free, that waits for it (R261); want: a flit or the sequencer needs it while it is
not resident (R257); image: the group memory of a context that
is not resident. lastTaken, firstTaken: places in the tile's order of taking. base: R231; next: children
folded by OFS; cov: covered segments, and part: the payload put together so far, by (child or rank, OFS)
(R405); held: complete flits; acc: accumulators by OFS; ready: positions folded ahead of base; outBuf: folded
elements not yet emitted; outNext: the next output flit; encBuf, encPos: converted payloads the encoder holds
and its position in the stream (R396). enc: UP_ENC or RES_ENC, faMode and faQ: the mode and quorum in effect
for the instance (R434). srCnt: K of R378; excKey: the order of the SUM capture (R383); saved: the 256 bytes of a run
left at YIELD (R296); unfreed: released groups whose memory is in use (OFS, push bound) (R292). -/
structure CtxSt where
  state : CtxState
  part : Nat
  tile : Nat
  desc : TreeDesc
  e : Nat
  slot : Option Nat
  spilling : Bool
  restoring : Bool
  pendFault : Option Nat
  pendFree : Bool
  want : Bool
  image : List Host.Cell
  reason : Nat
  missing : Nat
  lastTaken : Nat
  firstTaken : Nat
  base : Nat
  next : Tbl Nat
  cov : Tbl Nat
  part_ : Tbl Payload
  held : List HeldFlit
  acc : Tbl (List Elem)
  ready : List Nat
  outBuf : List Elem
  outNext : Nat
  encBuf : List Payload
  encPos : Nat
  srCnt : Nat
  enc : Nat
  faMode : Nat
  faQ : Nat
  ndet : Nat
  prevQuorum : Bool
  foldSet : Tbl (List Nat)
  excKey : Nat
  saved : Option (List (BitVec 8))
  unfreed : List (Nat × Nat)
  deriving DecidableEq, Repr

def CtxSt.reset : CtxSt :=
  { state := .free, part := 0, tile := 0, desc := TreeDesc.zero, e := 0, slot := none,
    spilling := false, restoring := false, pendFault := none, pendFree := false, want := false, image := [], reason := 0,
    missing := 0, lastTaken := 0, firstTaken := 0, base := 0, next := [], cov := [], part_ := [],
    held := [], acc := [], ready := [], outBuf := [], outNext := 0, encBuf := [], encPos := 0, srCnt := 0,
    enc := 0, faMode := 0, faQ := 0, ndet := 0, prevQuorum := false, foldSet := [], excKey := 0,
    saved := none, unfreed := [] }

/-! Fabric time and barriers -/

/-- What a port's neighbour last announced (R248). -/
structure Heard where
  prio : Nat
  master : Nat
  hops : Nat
  deriving DecidableEq, Repr

/-- Fabric time (R244-R248). cfg: the CORE_TIME_CFG that the last exchange applied (R264). t19: the time in units of
2^-16 ns, times 19, so that one core cycle of 10/19 ns is exactly 655,360 of them; slewLeft: the correction, in the same
units, still to be slewed in. -/
structure TimeSt where
  cfg : Nat
  t19 : Nat
  slewLeft : Int
  locked : Bool
  streak : Nat
  upport : Option Nat
  seqNo : Nat
  heard : Tbl (Option Heard)
  deriving DecidableEq, Repr

def TimeSt.reset : TimeSt :=
  { cfg := 0x800A, t19 := 0, slewLeft := 0, locked := false, streak := 0, upport := none, seqNo := 0, heard := [] }

/-- The barrier states of R252. -/
inductive BarState where
  | idle | gather | wait | releasing
  deriving DecidableEq, Repr

/-- A barrier (R251, R252). arrived and early: the children of this and of the next epoch that arrived,
256 standing for the local child; tr: the release time; last: the cycle of the last release and its epoch (17: R594). -/
structure BarSt where
  state : BarState
  failed : Bool
  reason : Nat
  epoch : Nat
  arrived : List Nat
  early : List Nat
  tr : Nat
  last : Option (Nat × Nat)
  deriving DecidableEq, Repr

def BarSt.reset : BarSt :=
  { state := .idle, failed := false, reason := 0, epoch := 0, arrived := [], early := [], tr := 0, last := none }

end Sys2Proof.Machine
end

