-- ==== Sys2Proof/Machine/StSys.lean ====
section
/-! DEFINITION. The state of resets, power, trust, maintenance and the package that no register holds
(14-17, 19). -/

namespace Sys2Proof.Machine

/-- A pool (R462, R463): 0 OFF, 1 INIT, 2 READY, 3 FAILED; the global granule of its head (none: empty), the
free count, the state record of each buffer (2 x owner + ALLOC; owner 0 none, k + 1 partition k, 17
firmware), and the buffers freed since threading, whose link lies in HBM; the link of any other free buffer
is the next buffer. -/
structure PoolSt where
  state : Nat
  head : Option Nat
  free : Nat
  recs : Tbl Nat
  freed : Tbl Bool
  deriving DecidableEq, Repr

def PoolSt.reset : PoolSt := { state := 0, head := none, free := 0, recs := [], freed := [] }

/-- HBM: the pools by 8 x die + pool (4: PX), the granules that fail every read (R459), and the banks in
refresh (R457). -/
structure HbmSt where
  pools : Tbl PoolSt
  bad : Tbl Nat
  refresh : List (Nat × Nat)
  deriving DecidableEq, Repr

def HbmSt.reset : HbmSt := { pools := [], bad := [], refresh := [] }

/-- A compute, partition or port reset in progress (R551-R554): its class 2, 3 or 4, its partition or port,
and the descriptors that complete when it finishes. -/
structure ResetOp where
  cls : Nat
  arg : Nat
  descs : List Desc
  deriving DecidableEq, Repr

/-! Power (14) -/

/-- What an access of the host asks of a die beyond link 2: a register at an offset, with its size and the value written
(none: a read), or bytes of the HBM window, with what is written (none: a read) and the errors
a read finds. -/
inductive HostAcc where
  | reg (off size : Nat) (value : Option Nat)
  | win (x n : Nat) (wr : Option (List (BitVec 8))) (e : ReadErr)
  deriving DecidableEq, Repr

/-- Does an access write? -/
def HostAcc.writes : HostAcc → Bool
  | .reg _ _ v => v.isSome
  | .win _ _ w _ => w.isSome

/-- Is it a register access? -/
def HostAcc.isReg : HostAcc → Bool
  | .reg _ _ _ => true
  | .win _ _ _ _ => false

/-- An access that waits (R16, R520): the domain it needs, the function, and the access. -/
structure WaitAcc where
  dom : Nat
  fn : Nat
  acc : HostAcc
  deriving DecidableEq, Repr

/-- Device power states and domains (R519-R531): the request in progress and the one that is pending, the step
of R524 in progress (0: none; 8: waking what the new state keeps on), the domains this change has switched off,
the ones a demand has reached while ENTERING (or, for a SIFT array, while its tile is not ON), those that wait for a
wave slot with the cc of their demand, in the order of R529, those of the wave granted last, likewise; gcfg and gfloor:
PWR_GOV_CFG and PWR_GOV_FLOOR as they apply in this interval (R532); gov: the governor's level in units of 0.1 W; tileBal:
the ballast that tiles hold, in 0.1 W (R530); and host accesses that wait. -/
structure PwrSt where
  cur : Option Desc
  pend : Option Desc
  step : Nat
  off : List Nat
  demanded : List Nat
  held : List (Nat × Nat)
  wave : List (Nat × Nat)
  gcfg : Nat
  gfloor : Nat
  gov : Nat
  tileBal : Nat
  accs : List WaitAcc
  deriving DecidableEq, Repr

def PwrSt.reset : PwrSt :=
  { cur := none, pend := none, step := 0, off := [], demanded := [], held := [], wave := [], gcfg := 0x8040280A, gfloor := 0,
    gov := 0, tileBal := 0, accs := [] }

/-! Bring-up, flash and journal (15, 16) -/

/-- A journal record (R573). -/
structure JRec where
  kind : Nat
  func : Nat
  key : Nat
  value : Nat
  dseq : Nat
  ring : Nat
  rseq : Nat
  deriving DecidableEq, Repr

/-- A group appended whose COMMIT is not durable yet (R574, R575), with its descriptor, none for firmware. -/
structure JGroup where
  recs : List JRec
  desc : Option Desc
  deriving DecidableEq, Repr

/-- An image in a flash slot with a valid tag (R560). -/
structure SlotImage where
  iseq : Nat
  bytes : List (BitVec 8)
  deriving DecidableEq, Repr

/-- The package flash and its journal (R558-R576). tiles, lanes, spares: the failed logical tiles,
SUM lane positions and spares of the factory record (R544); log: the records
of the active bank behind its BANK_DONE that are durable; open_: groups appended that are not; torn: the next record fails its
CRC; rseq: the next record number. -/
structure FlashSt where
  slots : List (Option SlotImage)
  lics : List (Option (List (BitVec 8)))
  tiles : List Nat
  lanes : List (Nat × Nat)
  spares : List Nat
  waves : List (Nat × Bool × Nat)
  log : List JRec
  open_ : List JGroup
  torn : Bool
  rseq : Nat
  gen : Nat
  bank : Nat
  svnFloor : Nat
  deriving DecidableEq, Repr

/-- An erased flash but for an empty journal bank, and no defect (log entry 6). -/
def FlashSt.reset : FlashSt :=
  { slots := [none, none], lics := [none, none], tiles := [], lanes := [], spares := [], waves := [],
    log := [], open_ := [], torn := false, rseq := 0, gen := 0, bank := 0, svnFloor := 0 }

/-- Bring-up (R536-R543): whether it runs; whether a unit was marked (R543); once LINK_WAIT has passed,
the ports whose training step 0xA then still waits for (R538); the port outcomes
that wait to be posted, reason and PORT_OSTAT by port, and whether all of them are there (R64, R542); recovery (R543); a recovered image restarts bring-up (R564); COLD_RST_N is low; a rail fault
lasts (R643); BAR4 as latched at the last cold or full warm reset, by function (R477); the image and the
licence in force. -/
structure BootSt where
  running : Bool
  marked : Bool
  linkWait : Option (List Nat)
  held : Tbl (Option (Nat × Nat))
  holding : Bool
  recovery : Bool
  restart : Bool
  coldLow : Bool
  railBad : Bool
  bar4 : List Bool
  image : List (BitVec 8)
  licence : List (BitVec 8)
  deriving DecidableEq, Repr

def BootSt.reset : BootSt :=
  { running := true, marked := false, linkWait := none, held := [], holding := false, recovery := false
    restart := false, coldLow := false, railBad := false, bar4 := [false, false], image := [], licence := [] }

/-- The IMAGE_STAGE in progress (R563): the bytes received, and the descriptor that is verifying. -/
structure StageSt where
  bytes : List (BitVec 8)
  desc : Option Desc
  deriving DecidableEq, Repr

/-- The firmware broadcast (R545-R547): the port it comes from, chunks received by index, the chunk count, an
install of the received image in progress; the image held to send, and the next chunk of each requesting port,
with the highest it has been sent and the first cycle in which it may be sent another. -/
structure BcastSt where
  port : Nat
  installing : Bool
  chunks : Tbl (List (BitVec 8))
  nchunk : Nat
  image : List (BitVec 8)
  sending : Tbl (Option Nat)
  sent : Tbl Nat
  next : Tbl Nat
  deriving DecidableEq, Repr

def BcastSt.reset : BcastSt := { port := 0, installing := false, chunks := [], nchunk := 0, image := [], sending := [], sent := [], next := [] }

/-- SPDM (R568, R569): requests collected by source endpoint (length and bytes so far), complete requests that
wait (source, message), and the negotiated transcript by requester (0 and 1 the functions, else 2 + endpoint). -/
structure SpdmSt where
  parts : Tbl (Nat × List (BitVec 8))
  ready : List (Nat × List (BitVec 8))
  script : Tbl (List (BitVec 8))
  deriving DecidableEq, Repr

def SpdmSt.reset : SpdmSt := { parts := [], ready := [], script := [] }

/-! Fault manager, maintenance, trace (17) -/

/-- An accepted XFER_START (R588, R594): XFER_ID, the new switch, partition mask, barrier, epoch, table mask,
and the slot of the maintenance queue. -/
structure XferJob where
  xid : Nat
  dst : Nat
  parts : Nat
  bar : Nat
  epoch : Nat
  tables : Nat
  slot : Nat
  deriving DecidableEq, Repr

/-- A context in a state image: its id, its spill state, and the registers that belong to it. -/
structure XferCtx where
  id : Nat
  st : CtxSt
  enc : Nat
  fa : Nat
  exc : Nat
  deriving DecidableEq, Repr

/-- A barrier in a state image, with its registers by key. -/
structure XferBar where
  id : Nat
  st : BarSt
  regs : Tbl (BitVec 64)
  deriving DecidableEq, Repr

/-- What a snapshot holds (R594): the table mask, the tables' registers by key, barriers and contexts. -/
structure XferImage where
  tables : Nat
  regs : Tbl (BitVec 64)
  bars : List XferBar
  ctxs : List XferCtx
  deriving DecidableEq, Repr

/-- The state transfer (R594-R597). On the partner: its job, whether the snapshot has been taken, the image, the next
chunk and the highest sent, and when the last four were sent. On the new switch: chunks by index and their count, and the
image whose tables wait to commit. -/
structure XferSt where
  job : Option XferJob
  taken : Bool
  high : Nat
  image : List (BitVec 8)
  next : Nat
  times : List Nat
  chunks : Tbl (List (BitVec 8))
  nchunk : Nat
  inst : Option XferImage
  deriving DecidableEq, Repr

def XferSt.reset : XferSt := { job := none, taken := false, high := 0, image := [], next := 0, times := [], chunks := [], nchunk := 0, inst := none }

/-- The command in hand of the fault manager (R586-R588): its CSEQ and OP, the port it came on, its fields, and
whether it has been applied, with its status, reason and detail. -/
structure FmCmd where
  cseq : Nat
  op : Nat
  level : Nat
  index : Nat
  arg : Nat
  epoch : Nat
  xid : Nat
  applied : Bool
  status : Nat
  reason : Nat
  detail : Nat
  deriving DecidableEq, Repr

/-- An activity in a slot of the maintenance queue (R605-R608): the parts of FLT_MAINT_STAT that no register
need hold: PARAM, the BUF of its descriptor and its function, the cancel descriptors, the lanes still to scan
(MARGIN, as port and wavelength) with the step in hand and what its steps found, and the two counts of its event. -/
structure Maint where
  param : Nat
  fn : Nat
  buf : Nat
  cancels : List Desc
  lanes : List (Nat × Nat)
  step : Nat
  counts : List Nat
  n1 : Nat
  n2 : Nat
  deriving DecidableEq, Repr

def Maint.reset : Maint :=
  { param := 0, fn := 0, buf := 0, cancels := [], lanes := [], step := 0, counts := [], n1 := 0, n2 := 0 }

/-- A queued Loupe record but for LOST (R611): the cycle in which it fell due, its place among those of that cycle, and
its bytes. -/
structure LoupeRec where
  cycle : Nat
  key : Nat
  bytes : List (BitVec 8)
  deriving DecidableEq, Repr

/-- Loupe (R610-R612): the queued records, the cycle after that of the last write, and whether LOST is pending. -/
structure LoupeSt where
  q : List LoupeRec
  took : Nat
  lost : Bool
  deriving DecidableEq, Repr

/-! The package (19) -/

/-- Sensors and pins (R648, R651-R653): the last temperatures in °C (core, memory-side 0 and 1, host I/O, hottest HBM,
hottest engine EIC, hottest and coldest engine PIC; -128: no reading); the silicon of R651 warning now, one bit each;
the silicon of the last warning or trip; samples since every sensor was 5 °C inside; THERM_ALERT_N, BMC_ALERT_N and
THERMTRIP_N asserted. -/
structure ThermSt where
  temps : List Int
  warn : Nat
  cause : Nat
  calm : Nat
  alert : Bool
  bmcAlert : Bool
  trip : Bool
  deriving DecidableEq, Repr

def ThermSt.reset : ThermSt :=
  { temps := [-128, -128, -128, -128, -128, -128, -128, -128], warn := 0, cause := 0, calm := 0, alert := false
    bmcAlert := false, trip := false }

/-- The JTAG instruction in force (R650). -/
inductive JtagIr where
  | bypass | idcode | sample | extest | highz | clamp
  deriving DecidableEq, Repr

/-- The JTAG port: held in reset by TRST_N, the instruction, and the boundary values preloaded. -/
structure JtagSt where
  held : Bool
  ir : JtagIr
  cells : List Bool
  deriving DecidableEq, Repr

def JtagSt.reset : JtagSt := { held := true, ir := .idcode, cells := [] }

/-- What 14-17 and 19 give the device beside registers. fm: the fault manager's command in hand; fmAck: the
last ACK sent; retry: firmware activities refused and waiting to be retried (R608): ACT and INDEX; canary:
the next pattern; scLanes: the lanes that self-check failures of a physical tile have named (none: a canary);
fmReset: an acknowledged RESET of the fault manager is due (R588). -/
structure SysSt where
  resets : List ResetOp
  pwr : PwrSt
  flash : FlashSt
  boot : BootSt
  stage : StageSt
  bcast : BcastSt
  spdm : SpdmSt
  fm : Option FmCmd
  fmAck : List (BitVec 8)
  xfer : XferSt
  maint : Tbl Maint
  retry : List (Nat × Nat)
  canary : Nat
  scLanes : Tbl (List (Option Nat))
  fmReset : Bool
  loupe : LoupeSt
  therm : ThermSt
  jtag : JtagSt
  deriving DecidableEq, Repr

def SysSt.reset : SysSt :=
  { resets := [], pwr := PwrSt.reset, flash := FlashSt.reset, boot := BootSt.reset
    stage := { bytes := [], desc := none }, bcast := BcastSt.reset, spdm := SpdmSt.reset, fm := none, fmAck := []
    xfer := XferSt.reset, maint := [], retry := [], canary := 0, scLanes := [], fmReset := false, loupe := { q := [], took := 0, lost := false }
    therm := ThermSt.reset, jtag := JtagSt.reset }

end Sys2Proof.Machine
end

