-- ==== Sys2Proof/Machine/State.lean ====
section
/-! DEFINITION. The state of the block: the queue of waiting commands, the memories, and the device. -/

namespace Sys2Proof.Machine

/-- The device but its memories. hot: what hardware has done to registers in this core cycle, by register key: for a
counter its value before the cycle's first event and how many there were (R10), for W1C bits those set (R9). d2d: the
consecutive replays of the transfer in hand on each die-to-die link, by direction (R18). Instances lie in sparse tables; an unlisted instance is as after reset. -/
structure Dev where
  cycle : Nat
  freeCount : Nat
  out : List Output
  regs : Tbl (BitVec 64)
  hot : Tbl (Nat × Nat)
  d2d : Tbl Nat
  ports : Tbl PortSt
  fibres : Tbl FibreSt
  els : Tbl ElsSt
  links : Tbl LinkSt
  core : CoreSt
  queues : Tbl QueueSt
  capt : CaptSt
  ctxs : Tbl CtxSt
  tiles : Tbl TileSt
  time : TimeSt
  bars : Tbl BarSt
  fns : Tbl FnSt
  accOrder : Nat
  qmr : Tbl (Option Qmr)
  flt : FltSt
  hbm : HbmSt
  sys : SysSt
  deriving DecidableEq, Repr

def Dev.reset : Dev :=
  { cycle := 0, freeCount := 0, out := [], regs := [], hot := [], d2d := [], ports := [], fibres := [], els := [],
    links := [], core := CoreSt.reset, queues := [], capt := CaptSt.reset, ctxs := [], tiles := [],
    time := TimeSt.reset, bars := [], fns := [], accOrder := 0, qmr := [], flt := FltSt.reset, hbm := HbmSt.reset, sys := SysSt.reset }

/-- The memories: HBM by byte address (256 x granule + offset, R446) and the memory of each physical tile
(R324), each listing the bytes that are not zero. -/
structure Mem where
  hbm : List Host.Cell
  tile : Tbl (List Host.Cell)
  deriving DecidableEq, Repr

/-- The state: the commands that wait, oldest first; the memories; the device. -/
structure State where
  pending : List Instr
  mem : Mem
  dev : Dev
  deriving DecidableEq, Repr

/-- The block has no fault: no rule of the manual stops it. -/
inductive Fault where
  /-- Raised by nobody: the type's one value, there because an outcome needs it. Safe. -/
  | none_
  deriving DecidableEq, Repr

/-- Refusals. -/
inductive Refusal where
  /-- A command with no meaning yet; raised by the refused arms of `exec` only. Safe: the block stops. -/
  | notModelled (mnemonic : String)
  deriving DecidableEq, Repr

/-- The block right after a cold reset is asserted: every register at its Reset column (R626), every unit
idle, the queue empty. -/
def State.reset : State :=
  { pending := [], mem := { hbm := [], tile := [] }, dev := Dev.reset }

end Sys2Proof.Machine
end

