-- ==== Sys2Proof/Machine/RegOps.lean ====
section
/-! DEFINITION. Registers: their one home in the device, their reset values, fields and counters
(00: R7-R11; 18: R626). -/

namespace Sys2Proof.Machine

/-- The key of an instance of a register: the indices, the function (0 unless per function), and its number. -/
def regKey (r : RegName) (fn i j : Nat) : Nat := ((i * 256 + j) * 2 + fn) * 1024 + r.ctorIdx

/-- The register number of a key. -/
def keyReg (k : Nat) : Nat := k % 1024
/-- The first index of a key. -/
def keyI (k : Nat) : Nat := k / 524288
/-- The second index of a key. -/
def keyJ (k : Nat) : Nat := k / 2048 % 256

/-- The credit allowance of a virtual lane after a cold reset (R109). -/
def vlDefault (v : Nat) : Nat := ([32, 32, 256, 768, 256, 512, 512, 704] : List Nat).getD v 0

/-- The value of a register after a cold reset (R626): its Reset column; what varies with the index as the
field map says. The journal's, the fuses' and the derived values stand at 0 until bring-up gives them. -/
def regReset (r : RegName) (i j : Nat) : Nat :=
  match r with
  | .PORT_MODE => 0x2F
  | .PORT_VL_CREDIT => vlDefault j
  | .QOS_CLASS => match i % 8 with | 3 => 0x8 | 5 => 0x4 | 6 => 0x5 | _ => 0
  | .QOS_QCFG =>
    if j < 4 then 1 <<< 16 ||| 0xF <<< 12 ||| 1
    else if j < 12 then (j - 4) <<< 12 ||| 1
    else 1 <<< 16 ||| (j - 4) <<< 12 ||| 1
  | .POOL_CFG => ([0x40000, 0x4000, 0x800, 0x100] : List Nat).getD j 0
  | _ => (regInfo r).fields.foldl (fun a f => a ||| f.rst <<< f.lo) 0

/-- The value a register holds (function fn for a per-function register). -/
def Dev.rawF (d : Dev) (r : RegName) (fn i j : Nat) : Nat :=
  (tblGet (BitVec.ofNat 64 (regReset r i j)) d.regs (regKey r fn i j)).toNat

/-- The device with a value in a register. -/
def Dev.setRawF (d : Dev) (r : RegName) (fn i j v : Nat) : Dev :=
  { d with regs := tblPut (BitVec.ofNat 64 (regReset r i j)) (regKey r fn i j) (BitVec.ofNat 64 v) d.regs }

/-- A field of a per-function register. -/
def Dev.fdF (d : Dev) (f : Fld) (fn i j : Nat) : Nat := bitsOf (d.rawF f.reg fn i j) f.hi f.lo

/-- The device with a field of a per-function register set. -/
def Dev.fdSetF (d : Dev) (f : Fld) (fn i j v : Nat) : Dev :=
  d.setRawF f.reg fn i j (bitsPut (d.rawF f.reg fn i j) f.hi f.lo v)

/-- A field of a register that both functions share. -/
def Dev.fd (d : Dev) (f : Fld) (i : Nat := 0) (j : Nat := 0) : Nat := d.fdF f 0 i j

/-- The device with a field of a shared register set. -/
def Dev.fdSet (d : Dev) (f : Fld) (i j v : Nat) : Dev := d.fdSetF f 0 i j v

/-- Is a one-bit field 1? -/
def Dev.bit (d : Dev) (f : Fld) (i : Nat := 0) (j : Nat := 0) : Bool := d.fd f i j == 1

/-- What hardware has done to a register in this core cycle. -/
def Dev.hotAt (d : Dev) (k : Nat) : Nat × Nat := tblGet (0, 0) d.hot k
def Dev.setHot (d : Dev) (k : Nat) (v : Nat × Nat) : Dev := { d with hot := tblPut (0, 0) k v d.hot }

/-- W1C bits that hardware sets in this core cycle, whether they were set before or not (R9). -/
def Dev.heatFlag (d : Dev) (f : Fld) (i j fl : Nat) : Dev :=
  let k := regKey f.reg 0 i j
  d.setHot k (0, (d.hotAt k).2 ||| fl <<< f.lo)

/-- Hardware sets bits of a W1C field (R7, R9). -/
def Dev.flagOr (d : Dev) (f : Fld) (i j fl : Nat) : Dev := (d.fdSet f i j (d.fd f i j ||| fl)).heatFlag f i j fl

/-- A counter of a function raised by n, saturating (R11); every counter is 32 bits wide. The value before the first
event of this core cycle is kept for a read that clears (R10). -/
def Dev.countFN (d : Dev) (r : RegName) (fn i j n : Nat) : Dev :=
  let k := regKey r fn i j
  let v := d.rawF r fn i j
  let h := d.hotAt k
  (d.setRawF r fn i j (min (v + n) 0xFFFFFFFF)).setHot k (if h.2 = 0 then v else h.1, h.2 + n)

/-- A counter raised by n. -/
def Dev.countN (d : Dev) (r : RegName) (i j n : Nat) : Dev := d.countFN r 0 i j n

/-- A counter raised by one. -/
def Dev.count (d : Dev) (r : RegName) (i : Nat := 0) (j : Nat := 0) : Dev := d.countN r i j 1

/-- A per-function counter raised by one. -/
def Dev.countF (d : Dev) (r : RegName) (fn : Nat) (i : Nat := 0) : Dev :=
  d.countFN r fn i 0 1

/-- The device with an output appended. -/
def Dev.emit (d : Dev) (o : Output) : Dev := { d with out := d.out ++ [o] }

/-- A fresh free value of 64 bits, and the device that has used it (log entry 5). -/
def Dev.fresh (d : Dev) : BitVec 64 × Dev :=
  (Config.free64 d.freeCount, { d with freeCount := d.freeCount + 1 })

/-- The state with a function applied to the device; memories and the queue stay. -/
def State.onDev (f : Dev → Dev) (s : State) : State := { s with dev := f s.dev }

/-- The state with a function applied to memories and device; the queue stays. -/
def State.onMem (f : Mem → Dev → Mem × Dev) (s : State) : State :=
  { s with mem := (f s.mem s.dev).1, dev := (f s.mem s.dev).2 }

/-- A command that answers the next state with the device changed by f. -/
def done (f : Dev → Dev) (s : State) : Host.Outcome State Fault Refusal := .next (s.onDev f)

/-- A command that answers the next state with memories and device changed by f. -/
def doneMem (f : Mem → Dev → Mem × Dev) (s : State) : Host.Outcome State Fault Refusal :=
  .next (s.onMem f)

end Sys2Proof.Machine
end

