-- ==== Sys2Proof/Machine/Ops.lean ====
section
/-! DEFINITION. The instances of each unit, and the operations over the device that every chapter uses:
ownership, events and reports (13: R495, R496; 17: R585), captures. -/

namespace Sys2Proof.Machine

/-! Instances -/

def Dev.port (d : Dev) (p : Nat) : PortSt := tblGet PortSt.reset d.ports p
def Dev.updPort (d : Dev) (p : Nat) (f : PortSt → PortSt) : Dev :=
  { d with ports := tblPut PortSt.reset p (f (d.port p)) d.ports }
def Dev.link (d : Dev) (p : Nat) : LinkSt := tblGet LinkSt.reset d.links p
def Dev.updLink (d : Dev) (p : Nat) (f : LinkSt → LinkSt) : Dev :=
  { d with links := tblPut LinkSt.reset p (f (d.link p)) d.links }
def Dev.fibre (d : Dev) (m : Nat) : FibreSt := tblGet FibreSt.reset d.fibres m
def Dev.updFibre (d : Dev) (m : Nat) (f : FibreSt → FibreSt) : Dev :=
  { d with fibres := tblPut FibreSt.reset m (f (d.fibre m)) d.fibres }
def Dev.elsOf (d : Dev) (k : Nat) : ElsSt := tblGet ElsSt.reset d.els k
def Dev.updEls (d : Dev) (k : Nat) (f : ElsSt → ElsSt) : Dev :=
  { d with els := tblPut ElsSt.reset k (f (d.elsOf k)) d.els }
def Dev.queue (d : Dev) (p : Nat) : QueueSt := tblGet QueueSt.reset d.queues p
def Dev.updQueue (d : Dev) (p : Nat) (f : QueueSt → QueueSt) : Dev :=
  { d with queues := tblPut QueueSt.reset p (f (d.queue p)) d.queues }
def Dev.ctx (d : Dev) (c : Nat) : CtxSt := tblGet CtxSt.reset d.ctxs c
def Dev.updCtx (d : Dev) (c : Nat) (f : CtxSt → CtxSt) : Dev :=
  { d with ctxs := tblPut CtxSt.reset c (f (d.ctx c)) d.ctxs }
def Dev.tile (d : Dev) (t : Nat) : TileSt := tblGet TileSt.reset d.tiles t
def Dev.updTile (d : Dev) (t : Nat) (f : TileSt → TileSt) : Dev :=
  { d with tiles := tblPut TileSt.reset t (f (d.tile t)) d.tiles }
def Dev.bar (d : Dev) (b : Nat) : BarSt := tblGet BarSt.reset d.bars b
def Dev.updBar (d : Dev) (b : Nat) (f : BarSt → BarSt) : Dev :=
  { d with bars := tblPut BarSt.reset b (f (d.bar b)) d.bars }
def Dev.fn (d : Dev) (h : Nat) : FnSt := tblGet FnSt.reset d.fns h
def Dev.updFn (d : Dev) (h : Nat) (f : FnSt → FnSt) : Dev :=
  { d with fns := tblPut FnSt.reset h (f (d.fn h)) d.fns }
def Dev.updCore (d : Dev) (f : CoreSt → CoreSt) : Dev := { d with core := f d.core }
def Dev.updCapt (d : Dev) (f : CaptSt → CaptSt) : Dev := { d with capt := f d.capt }

/-- f applied for every number of a list, in order. -/
def Dev.forEach (d : Dev) (l : List Nat) (f : Dev → Nat → Dev) : Dev := l.foldl f d

/-! Names and ownership -/

/-- The number a source has among the instances of per-source state: ports, tiles, dies, the host path. -/
def srcKey : Source → Nat
  | .port p => p.val
  | .tile i => 256 + i.val
  | .mem d => 288 + d.val
  | .host => 290

/-- Fabric time in the 48.16 format (R244). -/
def Dev.fabricTime (d : Dev) : Nat := d.time.t19 / 19 % 2 ^ 64

/-- The fabric cycle index floor(1.9 x T) (R159, R202). -/
def Dev.fabricCycle (d : Dev) : Nat := d.time.t19 / 655360

/-- The primary host, none in ORPHAN (R504, R505). -/
def Dev.primary (d : Dev) : Option Nat :=
  if d.fd F.HOST_OWN_STATE == 2 then none else some (d.fd F.HOST_OWN_PRIMARY)

/-- The function that owns partition k (R506, HOST_PART_OWN), if any. -/
def Dev.partOwner (d : Dev) (k : Nat) : Option Nat :=
  match (d.fd F.HOST_PART_OWN_OWNER >>> (2 * k)) % 4 with
  | 0 => some 0
  | 1 => some 1
  | _ => none

/-- This device's endpoint id. -/
def Dev.selfId (d : Dev) : Nat := d.fd F.CORE_SELF_ID

/-- The part of R2 by SEC_STAT.PART: 0 HMD-TD7-256F, 1 HMD-TD7-256N, 2 HMD-TD7-128F, 15 no licence (R577). -/
def Dev.partNo (d : Dev) : Nat := d.fd F.SEC_STAT_PART

/-- Is the port licensed (R2, R4)? Without a licence ports 0-127 are (R572). -/
def Dev.portLicensed (d : Dev) (p : Nat) : Bool := decide (p < 128) || d.partNo == 0 || d.partNo == 1

/-- Are tiles licensed (R2)? Without a licence they are not (R572). -/
def Dev.tilesLicensed (d : Dev) : Bool := d.partNo == 0 || d.partNo == 2

/-- The physical tile that serves logical tile i: a spare of BOOT_TILE_MAP, or the tile itself (R26). -/
def Dev.phys (d : Dev) (i : Nat) : Nat :=
  if d.bit F.BOOT_TILE_MAP_S32_EN && d.fd F.BOOT_TILE_MAP_S32_TILE == i then 32
  else if d.bit F.BOOT_TILE_MAP_S33_EN && d.fd F.BOOT_TILE_MAP_S33_TILE == i then 33
  else i

/-- Has die-to-die link n failed (R18)? -/
def Dev.d2dFailed (d : Dev) (n : Nat) : Bool := d.fd F.CORE_D2D_STAT_STATE n == 3

/-! Internal flits -/

/-- A management flit of the device (R582): RAW, on VL0, from this device. -/
def mgmtFlit (self dst : Nat) (bytes : List (BitVec 8)) : Flit :=
  { Flit.idle with
    type := 6, dst := BitVec.ofNat 16 dst, src := BitVec.ofNat 16 self
    payload := payloadOf bytes }

/-- A barrier/time flit of the device (R246). -/
def timeFlit (self part : Nat) (bytes : List (BitVec 8)) : Flit :=
  { Flit.idle with
    type := 7, vl := 1, part := BitVec.ofNat 4 part, src := BitVec.ofNat 16 self
    payload := payloadOf bytes }

/-- The device with a flit put at the end of an internal source's output queue (R186). -/
def Dev.srcPush (d : Dev) (s : Source) (f : Flit) (cmd : Nat := 0) : Dev :=
  d.updCore fun c => { c with
    srcQ := tblPut [] (srcKey s) (tblGet [] c.srcQ (srcKey s) ++
      [{ flit := f, cell := none, extra := [], age := d.cycle, cmd := cmd }]) c.srcQ }

/-- The MSEQ of the next flit an internal source sends under R149, numbered by DST, PART and VL. -/
def Dev.numberFlit (d : Dev) (s : Source) (f : Flit) : Flit × Dev :=
  let k := ((srcKey s * 65536 + f.dst.toNat) * 16 + f.part.toNat) * 8 + f.vl.toNat
  let n := tblGet 0 d.core.txSeq k
  ({ f with mseq := BitVec.ofNat 16 n },
    d.updCore fun c => { c with txSeq := tblPut 0 k ((n + 1) % 65536) c.txSeq })

/-! Events -/

/-- The 32-byte entry of an event (R495). -/
def evtBytes (e : Evt) (eseq flags : Nat) : List (BitVec 8) :=
  leBytes 4 eseq ++ leBytes 1 e.cls ++ leBytes 1 e.reason ++ leBytes 1 flags ++
    leBytes 1 (e.part.getD 0) ++ padTo 24 e.body

/-- A PCIe memory write of function h, discarded while its link is down, in FLR or with bus mastering off
(R496, R500). -/
def Dev.hostWrite (d : Dev) (h addr : Nat) (bytes : List (BitVec 8)) : Dev :=
  let f := d.fn h
  if f.linkUp && f.busMaster && !f.flr then d.emit (.hostWrite h (addr % 2 ^ 64) bytes) else d

/-- An MSI-X message of function h. -/
def Dev.msixSend (d : Dev) (h vec : Nat) : Dev :=
  let f := d.fn h
  if f.linkUp && f.busMaster && !f.flr then d.emit (.msix h vec) else d

/-- A ring's size exponent: 6-16, out-of-range values used as the nearest limit (R512). -/
def ringExp (n : Nat) : Nat := max 6 (min 16 n)

/-- A ring's base, aligned to the larger of its size and 4 KiB (R479, R512). -/
def ringBase (base bytes : Nat) : Nat := base / max bytes 4096 * max bytes 4096

/-- Bytes written at an offset of the status block of function h (R498); base 0: there is none. -/
def Dev.sbWrite (d : Dev) (h off : Nat) (bytes : List (BitVec 8)) : Dev :=
  let base := d.fdF F.HOST_SB_BASE_BASE h 0 0 / 4096 * 4096
  if base = 0 then d else d.hostWrite h (base + off) bytes

def FnSt.eqOf (f : FnSt) (e : Nat) : EqSt := tblGet EqSt.reset f.eq e

def Dev.updEq (d : Dev) (h e : Nat) (g : EqSt → EqSt) : Dev :=
  d.updFn h fun f => { f with eq := tblPut EqSt.reset e (g (f.eqOf e)) f.eq }

/-- The vector of an event ring is signalled when the pending count reaches COAL_N (R494). -/
def Dev.eqSignal (d : Dev) (h e : Nat) : Dev :=
  if max 1 (d.fdF F.HOST_EQ_CFG_COAL_N h e 0) ≤ ((d.fn h).eqOf e).pend then
    (d.msixSend h (d.fdF F.HOST_EQ_CFG_VEC h e 0)).updEq h e fun q => { q with pend := 0 }
  else d

/-- An event routed to function h: written to its ring with phase and LOST, or lost and counted (R496). A
ring that is not enabled loses it (log entry 20). -/
def Dev.postTo (d : Dev) (h : Nat) (e : Evt) : Dev :=
  let r := (d.fdF F.HOST_EVT_MAP_MAP h 0 0 >>> (2 * e.cls)) % 4
  let q := (d.fn h).eqOf r
  let f := d.fn h
  let size := 2 ^ ringExp (d.fdF F.HOST_EQ_CFG_SIZE_LOG2 h r 0)
  if f.linkUp && f.busMaster && !f.flr && d.fdF F.HOST_EQ_CFG_EN h r 0 == 1 &&
      !(dist32 q.prod q.cons == size) then
    let phase := (q.prod / size + 1) % 2
    let bytes := evtBytes e q.eseq (phase + 2 * b2n q.lost)
    let base := ringBase (d.fdF F.HOST_EQ_BASE_BASE h r 0) (32 * size)
    let d := (d.hostWrite h (base + 32 * (q.prod % size)) bytes).updEq h r fun q => { q with
        prod := (q.prod + 1) % m32, eseq := (q.eseq + 1) % m32, lost := false, pend := q.pend + 1 }
    (d.sbWrite h (1088 + 4 * r) (leBytes 4 q.eseq)).eqSignal h r
  else
    (d.updEq h r fun q => { q with eseq := (q.eseq + 1) % m32, lost := true }).countF
      .HOST_EVT_DROP_CNT h r

/-- Is an event sent to the fault manager as well (R585)? Classes 2, 3, 4 and 6, and power or fault events
of kind 1 or 2. -/
def evtReported (e : Evt) : Bool :=
  e.cls == 2 || e.cls == 3 || e.cls == 4 || e.cls == 6 ||
    ((e.cls == 0xA || e.cls == 0xB) && (byteAt e.body 0 == 1 || byteAt e.body 0 == 2))

/-- A REPORT frame of an event (R582, R585). -/
def Dev.report (d : Dev) (e : Evt) : Dev :=
  if d.bit F.FLT_FM_CFG_REP_EN && evtReported e then
    let n := (d.flt.repSeq + 1) % m32
    ({ d with flt := { d.flt with repSeq := n } }).srcPush .host
      (mgmtFlit d.selfId (d.fd F.FLT_FM_CFG_FM_ID)
        (leBytes 4 0x41 ++ leBytes 4 n ++ evtBytes e 0 0))
  else d

/-- An event is posted (R495): to the owner of its partition, else to the primary. A partition without an
owner is served by the primary (log entry 20). -/
def Dev.post (d : Dev) (e : Evt) : Dev :=
  let target : Option Nat := match e.part with
    | some k => match d.partOwner k with
      | some h => some h
      | none => d.primary
    | none => d.primary
  (match target with
    | some h => d.postTo h e
    | none => d).report e

/-- An ownership event goes to both functions (R505). -/
def Dev.postBoth (d : Dev) (e : Evt) : Dev := (d.postTo 0 e).postTo 1 e

/-- A capture-loss event, reason 0xFA: source 0 telemetry, 1 Mirror, 2 Loupe (R495). -/
def Dev.captureLoss (d : Dev) (source : Nat) : Dev :=
  d.post { cls := 9, reason := 0xFA, part := none, body := leBytes 1 source }

/-- A register capture of fields written only while VALID is 0 (R130, R179, R472); hardware sets VALID either way (R9). -/
def Dev.captureAt (d : Dev) (valid : Fld) (i j v : Nat) : Dev :=
  (if d.bit valid i j then d else d.setRawF valid.reg 0 i j (bitPut v valid.lo true)).heatFlag valid i j 1

def Dev.captureOnce (d : Dev) (valid : Fld) (i v : Nat) : Dev := d.captureAt valid i 0 v

/-- A fault flag of FLT_STATUS set. -/
def Dev.fltSet (d : Dev) (f : Fld) : Dev := d.flagOr f 0 0 1

end Sys2Proof.Machine
end

