-- ==== Sys2Proof/Machine/Domain.lean ====
section
/-! DEFINITION. Power domains as the other units see them (14: R518-R522), whether the device runs at all (15:
R550; 19: R643, R653), and what a die's failure makes unreachable (01: R19, R20). -/

namespace Sys2Proof.Machine

def Dev.updSys (d : Dev) (f : SysSt → SysSt) : Dev := { d with sys := f d.sys }
def Dev.updPwr (d : Dev) (f : PwrSt → PwrSt) : Dev := d.updSys fun s => { s with pwr := f s.pwr }
def Dev.updBoot (d : Dev) (f : BootSt → BootSt) : Dev := d.updSys fun s => { s with boot := f s.boot }
def Dev.updFlash (d : Dev) (f : FlashSt → FlashSt) : Dev := d.updSys fun s => { s with flash := f s.flash }

/-- The domains of R518 by index: tile logic i is domain i. -/
def siftDom (i : Nat) : Nat := 34 + i
def dieDom (k : Nat) : Nat := 68 + k
def engineDom (e : Nat) : Nat := 70 + e
def coreDom : Nat := 86

/-- The granules of die 0, and the end of HBM (12: R445). -/
def dieG : Nat := 0x30000000
def hbmEnd : Nat := 0x60000000

/-- The memory-side die of a granule; one beyond HBM is routed to die 1 (R446). -/
def gDie (g : Nat) : Nat := if g < dieG then 0 else 1

/-- The activities of R606: 1 SCRUB, 2 MARGIN, 3 SPARE_TEST, 4 BCAST, 5 COMPACT, 6 STATE_XFER. -/
def Dev.maintBusy (d : Dev) (n : Nat) : Bool := d.fd F.FLT_MAINT_STAT_STATE n ≠ 0
def Dev.maintAct (d : Dev) (n : Nat) : Nat := d.fd F.FLT_MAINT_STAT_ACT n
def Dev.maintIdx (d : Dev) (n : Nat) : Nat := d.fd F.FLT_MAINT_STAT_INDEX n

/-- The domain whose state spare domain n has (R518): that of the tile the spare stands in for; none while it is not in
use. Other domains have their own. -/
def Dev.domHome (d : Dev) (n : Nat) : Option Nat :=
  let tile := fun (s : Nat) => if s = 32 then
      (if d.bit F.BOOT_TILE_MAP_S32_EN then some (d.fd F.BOOT_TILE_MAP_S32_TILE) else none)
    else if d.bit F.BOOT_TILE_MAP_S33_EN then some (d.fd F.BOOT_TILE_MAP_S33_TILE) else none
  if n = 32 ∨ n = 33 then tile n
  else if n = 66 ∨ n = 67 then (tile (n - 34)).map siftDom
  else some n

/-- The state code of domain n (R519): 0 OFF, 1 WAKING, 2 ON, 3 ENTERING, 4 FAILED. A spare not in use is OFF (R518). -/
def Dev.domState (d : Dev) (n : Nat) : Nat := match d.domHome n with
  | some k => d.fd F.PWR_DOM_STAT_STATE k
  | none => 0

/-- An event of domain n is one of the domain whose state it has; a spare not in use stays OFF, whatever comes (R518). -/
def Dev.atHome (d : Dev) (n : Nat) (f : Nat → Dev) : Dev := match d.domHome n with
  | some k => f k
  | none => d

/-- The same for an event that lets accesses proceed or reaches memory. -/
def memAtHome (n : Nat) (f : Nat → Mem → Dev → Mem × Dev) (m : Mem) (d : Dev) : Mem × Dev := match d.domHome n with
  | some k => f k m d
  | none => (m, d)

def Dev.domOn (d : Dev) (n : Nat) : Bool := d.domState n == 2
def Dev.domFailed (d : Dev) (n : Nat) : Bool := d.domState n == 4

/-- Does COLD_RST_N, or a rail out of tolerance, hold the device in reset (R643, R646)? -/
def Dev.inReset (d : Dev) : Bool := d.sys.boot.coldLow || d.sys.boot.railBad

/-- Does the core die act: not held in reset, not tripped (R653), its domain ON? -/
def Dev.coreUp (d : Dev) : Bool := !d.inReset && !d.sys.therm.trip && d.domOn coreDom

/-- Does tile i act? -/
def Dev.tileUp (d : Dev) (i : Nat) : Bool := d.coreUp && d.domOn i

/-- Is a scope of R507 QUIESCING or QUIESCED? -/
def Dev.scopeHeld (d : Dev) (func index : Nat) : Bool :=
  d.qmr.any fun e => match e.2 with
    | some q => q.func == func && q.index == index
    | none => false

/-- A command the core die carries out while it acts. -/
def coreDone (f : Dev → Dev) (s : State) : Host.Outcome State Fault Refusal :=
  done (fun d => if d.coreUp then f d else d) s

/-- The same for a command that reaches memory. -/
def coreMem (f : Mem → Dev → Mem × Dev) (s : State) : Host.Outcome State Fault Refusal :=
  doneMem (fun m d => if d.coreUp then f m d else (m, d)) s

/-- A command of tile i's logic, carried out while the tile acts. -/
def tileDone (i : Nat) (f : Dev → Dev) (s : State) : Host.Outcome State Fault Refusal :=
  done (fun d => if d.tileUp i then f d else d) s

/-- The same for a command that reaches memory. -/
def tileMem (i : Nat) (f : Mem → Dev → Mem × Dev) (s : State) : Host.Outcome State Fault Refusal :=
  doneMem (fun m d => if d.tileUp i then f m d else (m, d)) s

/-- A command the host I/O die carries out unless the device is held in reset. -/
def hostDone (f : Dev → Dev) (s : State) : Host.Outcome State Fault Refusal :=
  done (fun d => if d.inReset then d else f d) s

/-- The same for a command that reaches memory. -/
def hostMem (f : Mem → Dev → Mem × Dev) (s : State) : Host.Outcome State Fault Refusal :=
  doneMem (fun m d => if d.inReset then (m, d) else f m d) s

end Sys2Proof.Machine
end

