-- ==== Sys2Proof/Machine/Flash.lean ====
section
/-! DEFINITION. The package flash (16: R558), the device's identity (R566), the records of the configuration journal and what counts of them
(R573-R576). -/

namespace Sys2Proof.Machine

/-! Regions (R558) -/

/-- The regions of the flash. -/
inductive FlashRegion where
  | factory | licence (l : Fin 2) | slot (k : Fin 2) | bank (b : Fin 2) | reserved
  deriving DecidableEq, Repr

/-- The address and size of each region but the reserved ones. -/
def flashMap : List (FlashRegion × Nat × Nat) :=
  [(.factory, 0x00000000, 0x00100000), (.licence 0, 0x00100000, 0x00010000), (.licence 1, 0x00110000, 0x00010000),
    (.slot 0, 0x01000000, 0x04000000), (.slot 1, 0x05000000, 0x04000000), (.bank 0, 0x09000000, 0x02000000),
    (.bank 1, 0x0B000000, 0x02000000)]

/-- The region of a flash address. -/
def flashRegion (a : Nat) : FlashRegion :=
  match flashMap.find? fun e => decide (e.2.1 ≤ a) && decide (a < e.2.1 + e.2.2) with
  | some e => e.1
  | none => .reserved

/-- The bytes of a region. -/
def flashSize (r : FlashRegion) : Nat := ((flashMap.find? fun e => e.1 == r).map (·.2.2)).getD 0

/-- Where in its slot the tag stands (R560). -/
def tagOffset : Nat := 0x03FF0000

/-- The tag of a slot with an ISEQ (R560). -/
def tagBytes (iseq : Nat) : List (BitVec 8) :=
  let b := [0x54, 0x41, 0x47, 0x31] ++ leBytes 4 iseq
  b ++ leBytes 4 (crc32 b).toNat

/-! Identity (R566) -/

/-- A SHA-512 digest. -/
def digest (bs : List (BitVec 8)) : List (BitVec 8) := beBytes 64 (Config.sha512 bs).toNat

/-- The ASCII bytes "TD7-IDENTITY". -/
def identityLabel : List (BitVec 8) := [0x54, 0x44, 0x37, 0x2D, 0x49, 0x44, 0x45, 0x4E, 0x54, 0x49, 0x54, 0x59]

/-- The identity seed: bytes 0-31 of SHA-512 of the secret followed by the label. -/
def identitySeed : List (BitVec 8) := (digest (Config.pufSecret ++ identityLabel)).take 32

/-- The identity public key. -/
def identityPub : BitVec 256 := Config.ed25519Public identitySeed

/-- A signature of the identity key. -/
def identitySign (msg : List (BitVec 8)) : List (BitVec 8) := leBytes 64 (Config.ed25519Sign identitySeed msg).toNat

/-! Records (R573) -/

/-- The first 16 bytes of a record. -/
def jrecHead (r : JRec) : List (BitVec 8) :=
  leBytes 2 0x4A52 ++ leBytes 1 r.kind ++ leBytes 1 r.func ++ leBytes 4 r.key ++ leBytes 8 r.value

/-- The 32 bytes of a record. -/
def jrecBytes (r : JRec) : List (BitVec 8) :=
  let b := jrecHead r ++ leBytes 4 r.dseq ++ leBytes 1 r.ring ++ leBytes 3 0 ++ leBytes 4 r.rseq
  b ++ leBytes 4 (crc32 b).toNat

/-- The record that bytes hold, when MAGIC and CRC are right. -/
def jrecOf (bs : List (BitVec 8)) : Option JRec :=
  if bs.length = 32 && leAt bs 0 2 = 0x4A52 && leAt bs 28 4 = (crc32 (bs.take 28)).toNat then
    some { kind := byteAt bs 2, func := byteAt bs 3, key := leAt bs 4 4, value := leAt bs 8 8, dseq := leAt bs 16 4
           ring := byteAt bs 20, rseq := leAt bs 24 4 }
  else none

/-- The COMMIT behind a group (R573-R575), of the function, SEQ and ring of its records. -/
def commitOf (g : List JRec) (rseq : Nat) : JRec :=
  let r := g.headD { kind := 5, func := 0xFF, key := 0, value := 0, dseq := 0, ring := 0, rseq := 0 }
  { kind := 5, func := r.func, key := 0, value := g.length, dseq := r.dseq, ring := r.ring, rseq := rseq % m32 }

/-! What counts (R574) -/

/-- One more record of a counted group: it replaces the record of its (FUNC, KEY); a delete removes it. -/
def addLive (l : List JRec) (r : JRec) : List JRec :=
  let l := l.filter fun x => !(x.func == r.func && x.key == r.key)
  if r.kind = 2 then l else l ++ [r]

/-- The live records of a bank: g is the group that is open where the records l begin. -/
def liveFrom (live g : List JRec) : List JRec → List JRec
  | [] => live
  | r :: t =>
    if r.kind = 5 then liveFrom (if r.value = g.length then g.foldl addLive live else live) [] t
    else liveFrom live (g ++ [r]) t

/-- The live records, in ascending RSEQ. -/
def FlashSt.live (f : FlashSt) : List JRec := liveFrom [] [] f.log

/-- The last durable SEQ of each ring, at 64 x function + ring (R501). -/
def FlashSt.jseq (f : FlashSt) : Tbl Nat :=
  (f.log.filter fun r => decide (r.func < 2)).foldl (fun t r => tblPut 0xFFFFFFFF (64 * r.func + r.ring) r.dseq t) []

/-- Bytes used in the active bank: its BANK_DONE, the records, and those appended that are not durable yet. -/
def FlashSt.used (f : FlashSt) : Nat := 32 * (1 + f.log.length + (f.open_.map fun g => g.recs.length + 1).sum)

/-- Is the active bank 75 % full (R576)? -/
def FlashSt.threeQuarters (f : FlashSt) : Bool := decide (flashSize (.bank 0) / 4 * 3 ≤ f.used)

/-- The first open group becomes durable with its COMMIT: it counts. -/
def FlashSt.commitFirst (f : FlashSt) : FlashSt :=
  match f.open_ with
  | [] => f
  | g :: rest =>
    { f with open_ := rest, log := f.log ++ g.recs ++ [commitOf g.recs ((g.recs.map (·.rseq)).getLastD 0 + 1)] }

/-- Compaction is over (R576): the other bank, one generation on, holds the live records as one group; its COMMIT takes
the next record number. Groups that are not durable yet follow there. -/
def FlashSt.compacted (f : FlashSt) : FlashSt :=
  { f with
    log := f.live ++ [commitOf f.live f.rseq], gen := (f.gen + 1) % m32, bank := 1 - f.bank, rseq := (f.rseq + 1) % m32 }

end Sys2Proof.Machine
end

