-- ==== Sys2Proof/Machine/Journal.lean ====
section
/-! DEFINITION. Appending to the configuration journal (16: R573-R576). -/

namespace Sys2Proof.Machine

/-- A record to append: KIND, FUNC, KEY, VALUE. -/
structure JItem where
  kind : Nat
  func : Nat
  key : Nat
  value : Nat
  deriving DecidableEq, Repr

/-- A group appended: its records and the COMMIT behind them take the next record numbers and 32 bytes each.
Its COMMIT is not durable yet (R573-R575). desc: the JOURNAL_PUT, none for a firmware write. -/
def Dev.appendGroup (d : Dev) (items : List JItem) (desc : Option Desc) : Dev :=
  d.updFlash fun f =>
    let dseq := match desc with
      | some x => leAt x.bytes 4 4
      | none => 0
    let ring := match desc with
      | some x => x.ring
      | none => 0
    { f with
      open_ := f.open_ ++ [{
        recs := items.zipIdx.map fun e => { kind := e.1.kind, func := e.1.func, key := e.1.key, value := e.1.value
                                            dseq := dseq, ring := ring, rseq := (f.rseq + e.2) % m32 }
        desc := desc }]
      rseq := (f.rseq + items.length + 1) % m32 }

/-- A firmware write of one record. -/
def Dev.fwRecord (d : Dev) (kind key value : Nat) : Dev :=
  d.appendGroup [{ kind := kind, func := 0xFF, key := key, value := value }] none

/-- Named items (R575, R587, R592): the fence of port p; the values of HOST_WIN_CFG.BAR_EN have no item number
in the manual (log entry 33). -/
def itemFence (p : Nat) : Nat := 0x1000 + p
def itemBar (h : Nat) : Nat := 0x2000 + h

/-- The value of a live named item. -/
def FlashSt.item (f : FlashSt) (key : Nat) : Option Nat :=
  (f.live.find? fun r => r.kind == 4 && r.func == 0xFF && r.key == key).map (·.value)

/-- Firmware journals the fence of port p (R592). -/
def Dev.journalFence (d : Dev) (p : Nat) : Dev := d.fwRecord 4 (itemFence p) (d.rawF .FLT_FENCE 0 p 0)

/-- The heartbeat is suspended (17: R584, R614, R615): 0 entry into A3, 1 HB_EN cleared, 2 link 2 failed. -/
def Dev.hbSuspend (d : Dev) (cause : Nat) : Dev :=
  (d.fltSet F.FLT_STATUS_HB_SUSP).post
    { cls := 0xB, reason := 0, part := none, body := leBytes 1 3 ++ leBytes 1 cause }

end Sys2Proof.Machine
end

