-- ==== Sys2Proof/Machine/Loupe.lean ====
section
/-! DEFINITION. Loupe: what the tiles do, record by record (17: R610-R612). -/

namespace Sys2Proof.Machine

/-- What a Loupe record tells of its event (R611): tile, kind, engine, BUILTIN, TAG, CTX, E, PC, CODE and
reason. -/
structure LoupeEvt where
  tile : Nat
  kind : Nat
  eng : Nat := 0
  builtin : Bool := false
  tag : Nat := 0
  ctx : Nat := 0
  pc : Nat := 0
  code : Nat := 0
  reason : Nat := 0
  deriving DecidableEq, Repr

/-- Is an event recorded (R610)? -/
def Dev.loupeMatch (d : Dev) (x : LoupeEvt) : Bool :=
  d.bit F.LOUPE_CTRL_EN && bitAt (d.fd F.LOUPE_CTRL_EVENTS) x.kind && bitAt (d.fd F.LOUPE_FILT_TILES) x.tile &&
    (decide (4 ≤ x.kind) || (x.tag ^^^ d.fd F.LOUPE_FILT_TAG) &&& d.fd F.LOUPE_FILT_TAGMASK == 0)

/-- The 32 bytes of a record but for LOST (R611). -/
def Dev.loupeBytes (d : Dev) (x : LoupeEvt) : List (BitVec 8) :=
  leBytes 8 d.fabricTime ++ leBytes 4 d.cycle ++ leBytes 1 x.tile ++ leBytes 1 (d.phys x.tile) ++
    leBytes 1 x.kind ++ leBytes 1 (x.eng <<< 6 ||| b2n x.builtin <<< 5 ||| b2n (!d.time.locked) <<< 3) ++
    leBytes 2 x.tag ++ leBytes 2 x.ctx ++ leBytes 2 (d.ctx x.ctx).e ++ leBytes 2 (if x.builtin then 0 else x.pc) ++
    leBytes 1 x.code ++ leBytes 1 x.reason ++ leBytes 6 0

/-- A record dropped (R612): counted, with a capture-loss event of source 2. -/
def Dev.loupeDrop (d : Dev) : Dev :=
  (((d.count .LOUPE_DROP_CNT).updSys fun s => { s with loupe := { s.loupe with lost := true } }).captureLoss 2)

/-- The place of a record among those that fall due in its cc: by logical tile, then SUM, MOVE, SORT, SIFT, sequencer
(R612). -/
def LoupeEvt.place (x : LoupeEvt) : Nat := 8 * x.tile + (if 1 ≤ x.kind && x.kind ≤ 3 then x.eng else 4)

/-- A record entered behind those of earlier cc, and in its place among those of its own. -/
def loupeInsert (l : List LoupeRec) (r : LoupeRec) : List LoupeRec :=
  let late := fun (x : LoupeRec) => x.cycle = r.cycle && decide (r.key < x.key)
  (l.filter fun x => !(late x)) ++ r :: l.filter late

/-- An event taken into the queue of up to 256 records; the last record of a full queue is dropped (R612). -/
def Dev.loupe (d : Dev) (x : LoupeEvt) : Dev :=
  if d.loupeMatch x then
    let q := loupeInsert d.sys.loupe.q { cycle := d.cycle, key := x.place, bytes := d.loupeBytes x }
    let full := decide (256 < q.length)
    let d := d.updSys fun s => { s with loupe := { s.loupe with q := q.take 256 } }
    if full then d.loupeDrop else d
  else d

end Sys2Proof.Machine
end

