-- ==== Sys2Proof/Machine/Cells.lean ====
section
/-! DEFINITION. Shared-buffer cells, credits, egress queues and capture points (05: R182-R192, R203, R207,
R212-R215; 17: R589, R591): the operations the switch core's commands share. -/

namespace Sys2Proof.Machine

/-! Cells -/

def Dev.cellRef (d : Dev) (id : Nat) : CellRef :=
  tblGet { copies := 0, unsent := 0, internal := false } d.core.refs id

def Dev.setCellRef (d : Dev) (id : Nat) (r : CellRef) : Dev :=
  d.updCore fun c => { c with
    refs := tblPut { copies := 0, unsent := 0, internal := false } id r c.refs }

/-- One copy of a cell has been sent for the first time or taken (R175). -/
def Dev.copyLeft (d : Dev) (id : Nat) : Dev :=
  let r := d.cellRef id
  d.setCellRef id { r with unsent := r.unsent - 1 }

/-- One copy no longer needs its cell; with the last one the cell is freed (R182). -/
def Dev.copyDone (d : Dev) (id : Nat) : Dev :=
  let r := d.cellRef id
  if r.copies ≤ 1 then
    let d := d.setCellRef id { copies := 0, unsent := 0, internal := false }
    if r.copies = 1 then
      d.updCore fun c => { c with
        free := c.free + 1, intUsed := if r.internal then c.intUsed - 1 else c.intUsed }
    else d
  else d.setCellRef id { r with copies := r.copies - 1 }

/-- A copy is discarded, or taken inside the device: it has left, and its cell is done with. -/
def Dev.dropCopy (d : Dev) (id : Nat) : Dev := (d.copyLeft id).copyDone id

/-- INT_RSV in force (R217). -/
def Dev.intRsv (d : Dev) : Nat := min (d.fd F.QOS_BUF_CFG_INT_RSV) 0x10000

/-- SLACK of R184. -/
def Dev.slack (d : Dev) : Int :=
  (d.core.free : Int) - d.core.backed - ((d.intRsv - d.core.intUsed : Nat) : Int)

/-- A new cell of n copies (R37); the caller has checked that one may be taken. -/
def Dev.newCell (d : Dev) (n : Nat) (internal landed : Bool) : Nat × Dev :=
  let id := d.core.nextCell
  (id, (d.updCore fun c => { c with
    nextCell := c.nextCell + 1
    free := if landed then c.free else c.free - 1
    intUsed := if internal then c.intUsed + 1 else c.intUsed }).setCellRef id
      { copies := n, unsent := n, internal := internal })

/-- Updates committed and not yet completed (R178). -/
def Dev.draining (d : Dev) : Nat := (d.core.updates.filter fun u => u.reason = 0).length

/-! Credits -/

/-- A credit of VL v is returned to the peer of port p at once (R185): BACKED rises, and the next slots
carry it. -/
def Dev.returnCredit (d : Dev) (p v : Nat) : Dev :=
  (d.updCore fun c => { c with backed := c.backed + 1 }).updLink p fun l => { l with
    due := updAt l.due v (· + 1) }

/-- A credit falls due and waits for the arbitration of R190. -/
def Dev.dueCredit (d : Dev) (p v rank : Nat) : Dev :=
  d.updCore fun c => { c with
    waiting := c.waiting ++ [{ port := p, vl := v, rank := rank, age := d.cycle, counted := false }] }

/-- A flit that came on a port is taken inside the device (R185): its cell is freed and its credit returned
at once. A flit of an internal source has no credit; that of a flit whose codeword B is not checked waits
for the check (R112). -/
def Dev.taken (d : Dev) (c : QCell) : Dev :=
  let d := d.dropCopy c.id
  match c.src with
  | .port p => if c.early then d else d.returnCredit p.val c.flit.vl.toNat
  | _ => d

/-! Flows in the core (R143, R148) -/

/-- Does a flow entry describe the flow of a flit from a source (R143)? -/
def FlowEnt.covers (e : FlowEnt) (s : Source) (f : Flit) : Bool :=
  e.src == s && e.fsrc == f.src && e.fdst == f.dst && e.part == f.part && e.vl == f.vl && e.ctx == f.ctx

/-- One more cell of a flow is in the core. -/
def Dev.flowEnter (d : Dev) (s : Source) (f : Flit) (dyn : Bool) (hash : Nat) : Dev :=
  d.updCore fun c => { c with
    flows := if c.flows.any fun e => e.covers s f then
        c.flows.map fun e => if e.covers s f then { e with count := e.count + 1 } else e
      else c.flows ++ [{ src := s, fsrc := f.src, fdst := f.dst, part := f.part, vl := f.vl,
                         ctx := f.ctx, dyn := dyn, hash := hash, count := 1 }] }

/-- A cell of a flow has left the core. -/
def Dev.flowLeave (d : Dev) (s : Source) (f : Flit) : Dev :=
  d.updCore fun c => { c with
    flows := (c.flows.map fun e => if e.covers s f then { e with count := e.count - 1 } else e).filter
      fun e => e.count ≠ 0 }

/-! Capture points (R207) -/

/-- An event entered behind those of its core cycle that come before it: by capture point, then port (R209). -/
def putEvt (e : MirrEvt) : List MirrEvt → List MirrEvt
  | [] => [e]
  | x :: t => if x.cycle = e.cycle && (decide (e.point < x.point) || (e.point = x.point && decide (e.port < x.port))) then
      e :: x :: t else x :: putEvt e t

/-- A capture-point event for Mirror, kept while MIRR_CTRL.EN is 1. -/
def Dev.mirror (d : Dev) (e : MirrEvt) : Dev :=
  if d.bit F.MIRR_CTRL_EN && !(d.scopeHeld 5 0) then
    d.updCapt fun c => { c with evts := putEvt { e with cycle := d.cycle, time := d.fabricTime } c.evts }
  else d

/-- The ingress port of a source. -/
def srcPort : Source → Option Nat
  | .port p => some p.val
  | _ => none

/-! Egress queues -/

def QueueSt.cells (t : QueueSt) (q : Nat) : List QCell := tblGet [] t.q q

def Dev.setCells (d : Dev) (p q : Nat) (l : List QCell) : Dev :=
  d.updQueue p fun t => { t with q := tblPut [] q l t.q }

/-- The express flits that wait in S2 of port p, oldest first (R156). -/
def Dev.s2Of (d : Dev) (p : Nat) : List S2Wait := d.core.s2wait.filter fun w => w.port = p

/-- The cells that wait in queue q of port p: queue 2 is S2. -/
def Dev.cellsOf (d : Dev) (p q : Nat) : List QCell := if q = 2 then (d.s2Of p).map (·.cell) else (d.queue p).cells q

/-- The depth of queue q of port p (R203). -/
def Dev.depth (d : Dev) (p q : Nat) : Nat := (d.cellsOf p q).length

/-- Replay-held data cells of a port (R108). -/
def Dev.replayCells (d : Dev) (p : Nat) : List Nat := (d.link p).replayList.filterMap (·.cell)

/-- Cells queued or replay-held for a port (QOS_PDN_STAT.HELD), those selected included. -/
def Dev.heldCells (d : Dev) (p : Nat) : Nat :=
  ((List.range 16).map fun q => d.depth p q).sum + (d.link p).txSel.length + (d.replayCells p).length

/-- Does a fence level pass a flit (R589)? -/
def fencePasses (level : Nat) (f : Flit) : Bool :=
  match level with
  | 0 => true
  | 1 => f.type == 6 || (f.type == 7 && [1, 2, 3].contains (plByte f.payload 0))
  | 2 => f.type == 6 || (f.type == 7 && [1, 2, 3, 0x10, 0x11].contains (plByte f.payload 0))
  | _ => false

/-- The capture-point event of a copy in or for a queue. -/
def Dev.mirrorQ (d : Dev) (point p q : Nat) (c : QCell) (reason : Nat := 0) : Dev :=
  d.mirror { point := point, port := p, flit := c.flit, iport := srcPort c.src, eport := some p, queue := q,
             depth := d.depth p q, reason := reason }

/-- A copy for a port is discarded behind a port that is down or fenced (R214, R591): reason 0xF9. -/
def Dev.pdnDrop (d : Dev) (p q : Nat) (c : QCell) : Dev :=
  ((d.dropCopy c.id).count .QOS_PDN_DROP_CNT p).mirrorQ 3 p q c 0xF9

/-- A dynamic-mode cell discarded in the core sends a hole notice to its egress group (R151). -/
def Dev.holeNotice (d : Dev) (g : Nat) (c : QCell) : Dev :=
  if c.dyn then d.updCore fun k => { k with
      reseqHole := tblPut [] g (tblGet [] k.reseqHole g ++
        [({ src := c.src, fsrc := c.flit.src, fdst := c.flit.dst, part := c.flit.part,
            vl := c.flit.vl, ctx := c.flit.ctx, dyn := true, hash := 0, count := 0 },
          c.flit.mseq.toNat)]) k.reseqHole }
  else d

/-- Is partition k in reset (15: R551, R552)? -/
def Dev.partReset (d : Dev) (k : Nat) : Bool := d.sys.resets.any fun r => r.cls = 3 && r.arg = k

/-- Does a partition reset discard a flit (R552)? Management and time-exchange flits pass. -/
def resetPasses (f : Flit) : Bool := f.type == 6 || (f.type == 7 && [1, 2, 3].contains (plByte f.payload 0))

/-- A copy for a port is discarded by the reset of its partition (R552): reason 0xCF. -/
def Dev.resetDrop (d : Dev) (p q : Nat) (c : QCell) : Dev :=
  ((d.dropCopy c.id).mirrorQ 3 p q c 0xCF).holeNotice (p / 8) c

/-- What becomes of a copy that queue q of port p does not take: fenced (R591), its partition in reset (R552), the queues
flushing or over the hold cap (R214) it is discarded. none: the queue takes it. -/
def Dev.queueDrop (d : Dev) (p q : Nat) (c : QCell) : Option Dev :=
  let t := d.queue p
  if !(fencePasses (d.fd F.FLT_FENCE_LEVEL p) c.flit) then some (d.pdnDrop p q c)
  else if d.partReset c.flit.part.toNat && !(resetPasses c.flit) then some (d.resetDrop p q c)
  else match t.pdn with
    | .flushing => some (d.pdnDrop p q c)
    | .held => if (if t.noHold then 0 else t.cap) ≤ d.heldCells p then some (d.pdnDrop p q c) else none
    | .active => none

/-- A copy reaches its egress queue (R192, R207): it waits at the queue's tail, or is discarded. -/
def Dev.enqueue (d : Dev) (p q : Nat) (c : QCell) : Dev :=
  match d.queueDrop p q c with
  | some d => d
  | none => (d.mirrorQ 1 p q c).setCells p q ((d.queue p).cells q ++ [{ c with enq := d.cycle }])

/-- The flits of S2 that satisfy a test leave it; f says how each ends. One that has not crossed leaves the core too. -/
def Dev.dropS2 (d : Dev) (hit : S2Wait → Bool) (f : Dev → S2Wait → Dev) : Dev :=
  let gone := d.core.s2wait.filter hit
  let d := d.updCore fun c => { c with s2wait := c.s2wait.filter fun w => !hit w }
  gone.foldl (fun d w => f (if w.crossed.isNone then d.flowLeave w.cell.src w.cell.flit else d) w) d

/-! Push-out (R188, R189) -/

/-- The listed ports, in ascending order. -/
def Dev.queuePorts (d : Dev) : List Nat := d.queues.map (·.1)

/-- May a queued copy be pushed out (R188, R189)? Its rank is below 16, and its cell, which is what push-out frees, is
needed by no other copy, one held for replay among them (log entry 128). -/
def Dev.mayPush (d : Dev) (c : QCell) : Bool := decide (c.rank < 16) && (d.cellRef c.id).copies == 1

/-- Every cell of the W queues that may be pushed out, as (rank, port, queue). -/
def Dev.pushable (d : Dev) : List (Nat × Nat × Nat) :=
  (d.queuePorts.map fun p => ((List.range 12).map fun w =>
    (((d.queue p).cells (4 + w)).filter d.mayPush).map fun c => (c.rank, p, 4 + w)).flatten).flatten

/-- The last cell of a list that satisfies a test, and the list without it. -/
def dropLast (p : QCell → Bool) (l : List QCell) : Option (QCell × List QCell) :=
  let r := l.reverse
  match r.find? p with
  | some c => some (c, (r.eraseP p).reverse)
  | none => none

/-- Push-out for a waiting flit or source of rank r (R189): none when no cell of a lower rank is held. -/
def Dev.pushOut (d : Dev) (r : Nat) : Option Dev :=
  let all := d.pushable
  match (all.map (·.1)).min? with
  | none => none
  | some v =>
    if r ≤ v then none
    else
      let cand := all.filter fun e => e.1 = v
      let best := cand.foldl (fun (b : Option (Nat × Nat × Nat)) e =>
        let n := (cand.filter fun x => x.2 = e.2).length
        match b with
        | none => some (n, e.2)
        | some (m, _) => if m < n then some (n, e.2) else b) none
      match best with
      | none => none
      | some (_, p, q) =>
        match dropLast (fun c => c.rank = v && d.mayPush c) ((d.queue p).cells q) with
        | none => none
        | some (c, rest) =>
          some (((((d.setCells p q rest).dropCopy c.id).count .QOS_PUSHOUT_CNT p q).mirrorQ 3 p q c 0xF8).holeNotice
            (p / 8) c)

/-- May an internal source take a cell now without push-out (R186)? -/
def Dev.intCellFree (d : Dev) : Bool :=
  (d.core.backed + 1 ≤ d.core.free && d.core.intUsed < d.intRsv) || decide (1 ≤ d.slack)

/-- Room for an internal cell of a flit of rank r: at once, or by push-out (R186). -/
def Dev.roomInternal (d : Dev) (r : Nat) : Option Dev :=
  if d.intCellFree then some d else d.pushOut r

/-- A flit of the time and barrier unit or of firmware goes to queue q of port p with a cell of its own (R186, R192). -/
def Dev.ownEnqueue (d : Dev) (p q : Nat) (f : Flit) : Dev :=
  let (id, d) := d.newCell 1 true false
  d.enqueue p q { id := id, flit := f, src := .host, enq := d.cycle, rank := 16, dyn := false, toPeer := false, early := false }

/-- The same when it may have to wait for a cell, behind those that wait already (R186). -/
def Dev.sendOwn (d : Dev) (p q : Nat) (f : Flit) : Dev :=
  if d.intCellFree && d.core.ownTx.isEmpty then d.ownEnqueue p q f
  else d.updCore fun c => { c with ownTx := c.ownTx ++ [{ port := p, queue := q, flit := f, age := d.cycle }] }

/-! Ports that go down (R212, R658) -/

/-- A flit selected for a boundary returns to the head of its queue, and what its selection took is restored: shaper
tokens and, in the W group, deficit (R156, R658). -/
def Dev.putBack (d : Dev) (p : Nat) (s : TxSel) : Dev :=
  (d.setCells p s.queue (s.cell :: (d.queue p).cells s.queue)).updQueue p fun t => { t with
    spent := tblPut 0 s.queue (tblGet 0 t.spent s.queue - 288 * 256) t.spent
    deficit := if 4 ≤ s.queue then tblPut 0 (s.queue - 4) (min 255 (tblGet 0 t.deficit (s.queue - 4) + 1)) t.deficit
      else t.deficit }

/-- The flits selected for a boundary and not yet sent go back to their queues; an on-slot express flit enters S2, unless
its ingress has found it bad (R156, R658). -/
def Dev.unselect (d : Dev) (p : Nat) : Dev :=
  let sel := (d.link p).txSel
  let d := d.updLink p fun l => { l with txSel := [] }
  sel.reverse.foldl (fun d s =>
    if s.queue ≠ 16 then d.putBack p s
    else if s.stomp then d.dropCopy s.cell.id
    else d.updCore fun c => { c with
      s2wait := { cell := s.cell, group := p / 8, port := p, crossed := some d.cycle } :: c.s2wait }) d

end Sys2Proof.Machine
end

