-- ==== Sys2Proof/Machine/CtxOps.lean ====
section
/-! DEFINITION. What every chapter does to a context: its table entry, the fault of R229, and which contexts
depend on a port (R215). -/

namespace Sys2Proof.Machine

/-- All context ids that have ever been set up since reset, in ascending order. -/
def Dev.liveCtxs (d : Dev) : List Nat := d.ctxs.map (·.1)

/-- Is the context ARMED or OPEN? -/
def CtxSt.live (c : CtxSt) : Bool := c.state == .armed || c.state == .open_

/-- Is the descriptor that of an all-gather root, which has no child records (R225, R238)? -/
def TreeDesc.gather (t : TreeDesc) : Bool := t.prog == 4

/-- Elements per flit of a format (R96). -/
def epf (fmt : Nat) : Nat :=
  match fmt with
  | 1 => 64 | 2 => 128 | 3 => 128 | 4 => 256 | 5 => 256 | 6 => 320 | 7 => 320 | 8 => 480
  | 9 => 64 | 0xA => 32 | _ => 0

/-- ceil(a / b), 0 when b is 0. -/
def ceilDiv (a b : Nat) : Nat := (a + b - 1) / b

/-- The segments of 32 elements in a dense flit, d of R390. -/
def segsPer (fmt : Nat) : Nat := epf fmt / 32

/-- The key of (child or rank, OFS) in the tables of a context. -/
def covKey (k o : Nat) : Nat := k * 0x100000000 + o

/-- The operand length of an instance (R404): BLOCK at the root of an all-gather, NELEM otherwise. -/
def TreeDesc.len (t : TreeDesc) : Nat := if t.gather then t.block else t.nelem

/-- Is dense flit o of child (or rank) k complete: each of its segments covered, those beyond the operand
counting as covered (R405)? -/
def CtxSt.complete (c : CtxSt) (k o : Nat) : Bool :=
  let n := segsPer c.desc.inFmt
  let m := tblGet 0 c.cov (covKey k o)
  (List.range n).all fun s => bitAt m s || decide (ceilDiv c.desc.len 32 ≤ o * n + s)

/-- The lowest RANK missing at fault (R229): at the lowest OFS not yet folded, the first child record whose
flit has not been taken. At an all-gather root, the lowest rank without the lowest OFS that is not taken
for every rank (log entry 21). -/
def CtxSt.missingRank (c : CtxSt) : Nat :=
  if c.desc.gather then
    let ranks := c.desc.nelem / c.desc.block
    match (List.range (c.desc.block / epf c.desc.inFmt)).find? fun o =>
        (List.range ranks).any fun r => !(c.complete r o) with
    | some o => ((List.range ranks).find? fun r => !(c.complete r o)).getD 0
    | none => 0
  else
    match c.desc.children.zipIdx.find? fun e => !(c.complete e.2 c.base) with
    | some e => e.1.rank
    | none => 0

/-- The context of a command. -/
def EngCmd.ctx (c : EngCmd) : Nat := (c.raw.extractLsb' 236 12).toNat

/-- The granules of HBM that a command of engine e names as its operands (R328, R336, R347). -/
def EngCmd.hbmNames (e : Nat) (x : EngCmd) : List Nat :=
  let r := x.raw.toNat
  let code := bitsOf r 255 248
  let (src, dst) := (match code with
    | 2 => (bitsOf r 207 176, bitsOf r 63 32)
    | 3 => (bitsOf r 63 32, bitsOf r 207 176)
    | 5 => (bitsOf r 63 32, 0)
    | _ => (bitsOf r 95 64, bitsOf r 63 32) : Nat × Nat)
  match e with
  | 1 => (if bitAt r 215 then [src] else []) ++ (if bitAt r 214 && code ≠ 4 && code ≠ 5 then [dst] else [])
  | 2 => if code = 2 then [dst] else []
  | _ => []

/-- The built-in pushes that wait take the entries that are free, the oldest first (R289). -/
def TileSt.letIn (t : TileSt) : TileSt :=
  t.built.foldl (fun t b =>
    let l := tblGet [] t.q b.1
    if l.length < 32 then
      { t with q := tblPut [] b.1 (l ++ [{ b.2 with unseen := 2 }]) t.q }
    else { t with built := t.built ++ [b] }) { t with built := [] }

/-- The run of a context is abandoned (R298): queued commands are removed, the output of executing ones is
discarded, and no halt record is made. -/
def Dev.abandon (d : Dev) (c : Nat) : Dev :=
  let x := d.ctx c
  let d := (d.updTile (d.phys x.tile) fun t => TileSt.letIn { t with
    run := match t.run with
      | some r => if r.ctx = c then none else some r
      | none => none
    yielder := if t.yielder = some c then none else t.yielder
    q := tblMap [] (fun _ l => l.filter fun m => m.ctx ≠ c) t.q
    busy := tblMap none (fun _ b => b.map fun m => if m.ctx = c then { m with dead := true } else m) t.busy
    built := t.built.filter fun e => e.2.ctx ≠ c }).updCtx c fun x => { x with saved := none }
  let dead := (((d.tile (d.phys x.tile)).busy.filterMap fun e => e.2).filter fun m => m.dead).map fun m => m.serial + 1
  d.updCore fun k => { k with
    srcQ := tblPut [] (256 + x.tile) ((tblGet [] k.srcQ (256 + x.tile)).filter fun f =>
      f.cell.isSome || !(dead.contains f.cmd)) k.srcQ }

/-- The context-fault event of R229. -/
def Dev.faultEvt (d : Dev) (c reason : Nat) : Evt :=
  let x := d.ctx c
  { cls := 2, reason := reason, part := some x.part
    body := leBytes 2 c ++ leBytes 2 x.e ++ leBytes 2 x.missing }

/-- The entry into FAULTED of R229 but its event: held flits and accumulators are discarded, the reason, E and the
missing RANK recorded. -/
def Dev.faultState (d : Dev) (c reason : Nat) : Dev :=
  let miss := (d.ctx c).missingRank
  ((d.updCtx c fun x => { x with
    state := .faulted, reason := reason, missing := miss, held := [], part_ := [], acc := [], ready := []
    outBuf := [], encBuf := [], pendFault := none }).abandon c).fltSet F.FLT_STATUS_CTX_FAULT

/-- The entry into FAULTED of R229, its event posted. -/
def Dev.faultNow (d : Dev) (c reason : Nat) : Dev :=
  let d := d.faultState c reason
  d.post (d.faultEvt c reason)

/-- A context faults (R228): only an ARMED or OPEN one; during a spill or restore the fault waits until the
operation completes (R261). -/
def Dev.ctxFault (d : Dev) (c reason : Nat) : Dev :=
  let x := d.ctx c
  if x.live then
    if x.spilling || x.restoring then
      if x.pendFault.isSome then d else d.updCtx c fun x => { x with pendFault := some reason }
    else d.faultNow c reason
  else d

/-- A context's TMO expires (R228): its event is posted at the end of the cc, since a form failure in this cc still puts
its reason in place of 0xC0 (R412). -/
def Dev.tmoFault (d : Dev) (c : Nat) : Dev :=
  let x := d.ctx c
  if x.spilling || x.restoring then d.ctxFault c 0xC0
  else
    let d := d.faultState c 0xC0
    d.updCore fun k => { k with tmo := k.tmo ++ [(c, d.faultEvt c 0xC0)] }

/-- Has the context faulted on its TMO in this cc? -/
def Dev.tmoNow (d : Dev) (c : Nat) : Bool := d.core.tmo.any fun t => t.1 = c

/-- A form failure: the context faults with its reason, which also replaces that of a TMO of the same cc (R412). -/
def Dev.formFault (d : Dev) (c reason : Nat) : Dev :=
  if d.tmoNow c then
    (d.updCtx c fun x => { x with reason := reason }).updCore fun k => { k with
      tmo := k.tmo.map fun t => if t.1 = c then (c, { t.2 with reason := reason }) else t }
  else d.ctxFault c reason

/-- The events of the TMO faults of a cc, posted at its end (R229). -/
def Dev.tmoPost (d : Dev) : Dev :=
  d.core.tmo.foldl (fun d t => d.post t.2) (d.updCore fun k => { k with tmo := [] })

/-- Every context of a list faults. -/
def Dev.faultAll (d : Dev) (l : List Nat) (reason : Nat) : Dev :=
  d.forEach l fun d c => d.ctxFault c reason

/-- The members of multicast group m. -/
def Dev.mcgPorts (d : Dev) (m : Nat) : List Nat :=
  (List.range 256).filter fun p => bitAt (d.fd F.CORE_MCG_PORTS m (p / 64)) (p % 64)

/-- The members of port set s (R163, R168): COUNT 5-7 is used as 4. -/
def Dev.psetPorts (d : Dev) (s : Nat) : List Nat :=
  ([F.CORE_PSET_P0, F.CORE_PSET_P1, F.CORE_PSET_P2, F.CORE_PSET_P3].take
    (min 4 (d.fd F.CORE_PSET_COUNT s))).map fun f => d.fd f s

/-- The ports CORE_FWD[dst] can resolve to for partition k (R167, R215). -/
def Dev.fwdPorts (d : Dev) (dst k : Nat) : List Nat :=
  if d.bit F.CORE_FWD_VALID dst && bitAt (d.fd F.CORE_FWD_PMASK dst) k then
    let t := d.fd F.CORE_FWD_TARGET dst
    match d.fd F.CORE_FWD_MODE dst with
    | 0 => [t]
    | 1 => if t < 256 then d.psetPorts t else []
    | 2 => d.mcgPorts t
    | _ => []
  else []

/-- Does context c depend on port p (R215)? -/
def Dev.ctxDepends (d : Dev) (c p : Nat) : Bool :=
  let x := d.ctx c
  let v := d.bit F.CORE_CTX_VALID c
  (v && d.fd F.CORE_CTX_R_MODE c == 1 && (d.mcgPorts (d.fd F.CORE_CTX_MCG c)).contains p) ||
  (v && d.fd F.CORE_CTX_C_MODE c == 2 &&
    (d.fwdPorts (d.fd F.CORE_CTX_PARENT c) (d.fd F.CORE_CTX_PART c)).contains p) ||
  (x.state != .free &&
    ((x.desc.role == 0 && (d.fwdPorts x.desc.parentId x.part).contains p) ||
      x.desc.children.any fun ch => (d.fwdPorts ch.src x.part).contains p))

/-- Does the link of a port in this state go on, or may it (R212)? -/
def linkGoesOn : PortState → Bool
  | .up | .degraded | .restripe | .training | .measuring => true
  | _ => false

/-- Entry into FLUSHING (R215): queued flits and replay-held cells are discarded and counted, and every dependent context
faults. The credits the peer of a port that is down holds leave BACKED (R657). A port that stays up under a fence goes on
with credits and replay: its flits held for replay keep their bits without a cell (R590, R591). -/
def Dev.flush (d : Dev) (p : Nat) : Dev :=
  let d := d.unselect p
  let d := (List.range 16).foldl (fun d q =>
    let cs := (d.queue p).cells q
    cs.foldl (fun d c => (d.pdnDrop p q c).holeNotice (p / 8) c) (d.setCells p q [])) d
  let d := d.dropS2 (fun w => w.port = p) fun d w => d.pdnDrop p 2 w.cell
  let cells := d.replayCells p
  let d := cells.foldl (fun d id => d.copyDone id) d
  let l := d.link p
  let d := if linkGoesOn (d.port p).state then
      (d.countN .PORT_REPLAY_LOST_CNT p 0 cells.length).updLink p fun l => { l with
        replayList := l.replayList.map fun s => { s with cell := none } }
    else
      ((d.countN .PORT_REPLAY_LOST_CNT p 0 l.replayList.length).updCore fun c => { c with
        backed := c.backed - (l.outst.sum + l.due.sum) }).updLink p fun l => { l with
          replayList := [], cursor := none, keep := false
          outst := l.outst.map fun _ => 0
          due := l.due.map fun _ => 0 }
  let d := d.updQueue p fun t => { t with pdn := .flushing, timer := false }
  d.faultAll (d.liveCtxs.filter fun c => d.ctxDepends c p) 0xF9

end Sys2Proof.Machine
end

