-- ==== Sys2Proof/Machine/Fabric.lean ====
section
/-! DEFINITION. The switch core (04): ingress binding, the two stages, resequencing, scheduling. -/

namespace Sys2Proof.Machine

/-! Flows and hashing (R143-R148) -/

/-- The flow hash of R143. -/
def flowHash (src dst part vl ctx seed : Nat) : Nat :=
  let x := (src ^^^ dst ^^^ ctx ^^^ (part <<< 12) ^^^ (vl <<< 8) ^^^ seed) % 65536
  (x &&& 0x1F) ^^^ ((x >>> 5) &&& 0x1F) ^^^ ((x >>> 10) &&& 0x1F) ^^^ ((x >>> 15) &&& 1)

/-- The entry of a flow with cells in the core, if any. -/
def Dev.flowOf (d : Dev) (s : Source) (f : Flit) : Option FlowEnt :=
  d.core.flows.find? fun e => e.covers s f

/-- Is VL v in dynamic mode by CORE_LB_CFG (R145)? -/
def Dev.dynVl (d : Dev) (v : Nat) : Bool := 5 ≤ v && bitAt (d.fd F.CORE_LB_CFG_DYN_VL) (v - 5)

/-- The mode and hash of a flow (R148): those it has while cells of it are in the core, else by
CORE_LB_CFG. -/
def Dev.flowMode (d : Dev) (s : Source) (f : Flit) : Bool × Nat :=
  match d.flowOf s f with
  | some e => (e.dyn, e.hash)
  | none => (d.dynVl f.vl.toNat,
      flowHash f.src.toNat f.dst.toNat f.part.toNat f.vl.toNat f.ctx.toNat (d.fd F.CORE_LB_CFG_SEED))

/-- A resequencer entry of an egress group is the flow's. -/
def Reseq.covers (r : Reseq) (s : Source) (f : Flit) : Bool :=
  r.src == s && r.fsrc == f.src && r.fdst == f.dst && r.part == f.part && r.vl == f.vl

def Dev.reseqOf (d : Dev) (g : Nat) : List Reseq := tblGet [] d.core.reseq g

def Dev.setReseq (d : Dev) (g : Nat) (l : List Reseq) : Dev :=
  d.updCore fun c => { c with reseq := tblPut [] g l c.reseq }

/-- The holder that R150 counts 128 entries for: an ingress group, a tile or a memory-side die. -/
def reseqHolder : Source → Nat
  | .port p => p.val / 8
  | .tile i => 32 + i.val
  | .mem k => 64 + k.val
  | .host => 0

/-- Is there room for a new resequencer entry at egress group g (R150)? -/
def Dev.reseqRoom (d : Dev) (g : Nat) (s : Source) : Bool :=
  let l := d.reseqOf g
  l.length < 4096 && (l.filter fun r => reseqHolder r.src = reseqHolder s).length < 128

/-! Binding (R163-R166) -/

/-- What binding decides for a flit. -/
inductive Bound where
  | drop (reason : Nat) (eport : Option Nat)
  | unit
  | firmware
  | tile (i : Nat)
  | die (k : Nat)
  | ports (l : List Nat) (toPeer : Bool) (single : Bool)
  deriving DecidableEq, Repr

/-- The die that a granule address selects, if it lies in HBM (12: R446). -/
def dieOf (granule : Nat) : Option Nat :=
  if granule < 0x30000000 then some 0 else if granule < 0x60000000 then some 1 else none

/-- Step 4 and 5 of R163: the lookup in CORE_FWD. -/
def Dev.bindFwd (d : Dev) (f : Flit) (hash : Nat) (mgmt : Bool) : Bound :=
  let n := f.dst.toNat
  if !(d.bit F.CORE_FWD_VALID n) then .drop 0xF0 none
  else if !mgmt && !(bitAt (d.fd F.CORE_FWD_PMASK n) f.part.toNat) then .drop 0xF1 none
  else
    let t := d.fd F.CORE_FWD_TARGET n
    match d.fd F.CORE_FWD_MODE n with
    | 0 => .ports [t] false true
    | 1 =>
      let m := if t < 256 then d.psetPorts t else []
      match m[hash % m.length]? with
      | some p => .ports [p] false true
      | none => .drop 0xF0 none
    | 2 => .ports (d.mcgPorts t) false false
    | _ => if mgmt then .drop 0xF0 none
      else if f.type == 4 then
        -- a request above HBM goes to die 1, whose engine refuses it (12: R449; log entry 22)
        .die ((dieOf f.ofs.toNat).getD 1)
      else .drop 0xF0 none

/-- Binding of a flit from a source (R163, R164), before steps 5 and 6 act on the copies. The flit is the
one that travels on (a forwarded contribution has its DST rewritten). -/
def Dev.bind (d : Dev) (s : Source) (f : Flit) : Bound × Flit :=
  let hash := (d.flowMode s f).2
  let mine := f.dst.toNat == d.selfId
  let badPart : Bool := match s with
    | .port p => !(bitAt (d.fd F.CORE_PORT_PART_MASK p.val) f.part.toNat)
    | _ => false
  if f.type == 7 then (.unit, f)
  else if f.type == 6 then (if mine then .firmware else d.bindFwd f hash true, f)
  else if badPart then (.drop 0xF3 none, f)
  else if (f.type == 2 || f.type == 3) && mine then
    let c := f.ctx.toNat
    let mode := if f.type == 2 then d.fd F.CORE_CTX_C_MODE c else d.fd F.CORE_CTX_R_MODE c
    if !(d.bit F.CORE_CTX_VALID c) || mode == 0 || mode == 3 then (.drop 0xF2 none, f)
    else if d.fd F.CORE_CTX_PART c ≠ f.part.toNat then (.drop 0xF1 none, f)
    else if f.type == 2 then
      if mode == 1 then (.tile (d.fd F.CORE_CTX_TILE c), f)
      else
        let f' := { f with dst := BitVec.ofNat 16 (d.fd F.CORE_CTX_PARENT c) }
        (d.bindFwd f' hash false, f')
    else if mode == 1 then (.ports (d.mcgPorts (d.fd F.CORE_CTX_MCG c)) true false, f)
    else (.tile (d.fd F.CORE_CTX_TILE c), f)
  else (d.bindFwd f hash false, f)

/-- Step 5 and 6 of R163 for one copy: the reason that discards it, if any. -/
def Dev.copyDrop (d : Dev) (f : Flit) (p : Nat) : Option Nat :=
  if 256 ≤ p || !(d.portLicensed p) then some 0xF0
  else if f.type ≠ 6 && !(bitAt (d.fd F.CORE_PORT_PART_MASK p) f.part.toNat) then some 0xF1
  else none

/-- The egress queue of a flit for a port (R192): S2 for express; a W queue by its class, or the demotion queue dq of its
meter (R200). -/
def Dev.classQueue (d : Dev) (f : Flit) (dq : Option Nat) : Nat :=
  match f.type.toNat with
  | 6 => 0
  | 7 => 1
  | 3 => 3
  | _ => if f.exp then 2
    else 4 + min 11 (dq.getD (d.fd F.QOS_CLASS_WQ (8 * f.part.toNat + f.vl.toNat)))

/-- The push rank a flit takes from queue q of port p when it is bound (R188, R197). -/
def Dev.pushRank (d : Dev) (p q : Nat) : Nat :=
  if q < 4 || d.bit F.QOS_QCFG_NOPUSH p q then 16 else d.fd F.QOS_QCFG_RANK p q

/-- The capture-point event of a flit at binding (R207, R210): eport is the port it is bound for, if one, and q its queue
there; without one the ingress port stands for the port. -/
def Dev.mirrorBind (d : Dev) (point : Nat) (s : Source) (f : Flit) (eport : Option Nat) (q reason : Nat) : Dev :=
  let p := if point = 0 then (srcPort s).getD 0 else eport.getD ((srcPort s).getD 0)
  d.mirror { point := point, port := p, flit := f, iport := srcPort s, eport := eport
             queue := if eport.isSome then q else 0
             depth := match eport with
               | some e => d.depth e q
               | none => 0
             reason := reason }

/-- A discard of R163 or R237 is counted by ingress port or as internal, captured once, and seen by Mirror
(R165, R179, R207). -/
def Dev.countDrop (d : Dev) (s : Source) (f : Flit) (reason : Nat) (eport : Option Nat) : Dev :=
  let d := match s with
    | .port p =>
      if reason == 0xF0 then d.count .CORE_NOROUTE_CNT p.val
      else if reason == 0xF2 then d.count .CORE_CTX_DROP_CNT p.val
      else d.count .CORE_PART_DROP_CNT p.val
    | _ => d.count .CORE_INT_DROP_CNT
  let port := match s with
    | .port p => p.val
    | _ => eport.getD 0
  let d := d.captureOnce F.CORE_DROP_CAP_VALID 0
    (f.dst.toNat <<< 48 ||| f.src.toNat <<< 32 ||| reason <<< 24 ||| port <<< 16 |||
      f.part.toNat <<< 11 ||| f.type.toNat <<< 7 ||| f.vl.toNat <<< 4 ||| b2n (srcPort s).isNone <<< 3)
  d.mirrorBind 3 s f eport (d.classQueue f none) reason

/-- A copy that step 5 or 6 of R163 discards: a port that is not there or not licensed resolves to no port. -/
def Dev.dropResolved (d : Dev) (s : Source) (f : Flit) (p : Nat) : Dev :=
  match d.copyDrop f p with
  | some r => d.countDrop s f r (if r = 0xF0 then none else some p)
  | none => d

/-- A result copy takes the DST of its port's peer as it leaves (R237); Mirror shows the header as bound (R210). -/
def Dev.toPeerDst (d : Dev) (p : Nat) (c : QCell) : Flit :=
  if c.toPeer && d.bit F.CORE_PEER_VALID p then { c.flit with dst := BitVec.ofNat 16 (d.fd F.CORE_PEER_ID p) } else c.flit

/-- A copy goes to egress queue q of port p; a result copy for a port whose peer is not known is discarded with
0xF0 (R237). -/
def Dev.enqueueCopy (d : Dev) (p q : Nat) (c : QCell) : Dev :=
  if c.toPeer && !(d.bit F.CORE_PEER_VALID p) then (d.countDrop c.src c.flit 0xF0 (some p)).dropCopy c.id
  else d.enqueue p q c

/-- A full bucket of a shaper or meter, in units of 2^-8 byte (R199, R201). -/
def bucket (burst : Nat) : Nat := (max 5 (min 0x400 burst)) * 64 * 256

/-- What the ingress meter says of a flit (R200): pass, pass but counted, demote to a W queue, discard. -/
inductive Metered where
  | pass | counted (m : Nat) | demote (m dq : Nat) | discard (m : Nat)
  deriving DecidableEq, Repr

def Dev.meter (d : Dev) (s : Source) (f : Flit) : Metered × Dev :=
  let cls := 8 * f.part.toNat + f.vl.toNat
  match s with
  | .port p =>
    if (f.type == 1 && !f.exp || f.type == 2 || f.type == 4 || f.type == 5) && d.bit F.QOS_CLASS_MET_EN cls then
      let m := d.fd F.QOS_CLASS_METER cls
      let spent := tblGet 0 (d.queue p.val).mspent m
      if 288 * 256 ≤ bucket (d.fd F.QOS_METER_BURST p.val m) - spent then
        (.pass, d.updQueue p.val fun t => { t with mspent := tblPut 0 m (spent + 288 * 256) t.mspent })
      else match d.fd F.QOS_METER_ACT p.val m with
        | 1 => (.demote m (min 11 (d.fd F.QOS_METER_DQ p.val m)), d.count .QOS_POLICE_DEMOTE_CNT p.val m)
        | 2 => (.discard m, d.count .QOS_POLICE_DROP_CNT p.val m)
        | _ => (.counted m, d.count .QOS_POLICE_CNT p.val m)
    else (.pass, d)
  | _ => (.pass, d)

/-- The ingress group of a source (R134, R135); the host path enters at group 0 (log entry 22). -/
def srcGroup : Source → Nat
  | .port p => p.val / 8
  | .tile i => i.val
  | .mem k => 16 * k.val
  | .host => 0

/-- The device with a cell put where it enters the core: its ingress queue, or, from a memory-side die,
the intermediate queue of one of the die's groups (R136). -/
def Dev.launch (d : Dev) (c : Cell) : Dev :=
  match c.src with
  | .mem k => d.updCore fun x => { x with
      interQ := tblPut [] (16 * k.val + c.group % 16)
        (tblGet [] x.interQ (16 * k.val + c.group % 16) ++ [c]) x.interQ }
  | s => d.updCore fun x => { x with
      ingressQ := tblPut [] (srcGroup s) (tblGet [] x.ingressQ (srcGroup s) ++ [c]) x.ingressQ }

/-- The egress groups of a list of ports, ascending, each with the shared-buffer cell of its copies (R166): the flit's own
for the first, then the further ones it has got (R182). -/
def groupCells (own : Nat) (extra ports : List Nat) : List (Nat × Nat × List Nat) :=
  let gs := (List.range 32).filter fun g => ports.any fun p => p / 8 = g
  (gs.zip (own :: extra)).map fun e => (e.1, e.2, ports.filter fun p => p / 8 = e.1)

/-- The cell of a flit, or of one egress group's copies of it, counts n copies. -/
def Dev.holdCopies (d : Dev) (s : Source) (own id n : Nat) : Dev :=
  d.setCellRef id { copies := n, unsent := n, internal := id ≠ own || (srcPort s).isNone }

/-- Cells for the copies of a flit: one per egress group, ascending (R166). odst: the DST of its flow. -/
def Dev.launchPorts (d : Dev) (s : Source) (f : Flit) (odst : BitVec 16) (own : Nat) (extra ports : List Nat) (queue : Nat)
    (dyn : Bool) (hash : Nat) (toPeer : Bool) : Dev :=
  let head := dyn && (d.flowOf s { f with dst := odst }).isNone
  (groupCells own extra ports).foldl (fun (d : Dev) (g, id, ps) =>
    ((d.holdCopies s own id ps.length).flowEnter s { f with dst := odst } dyn hash).launch
      { id := id, flit := f, odst := odst, src := s, eg := g, ports := ps, tile := false, die := none, queue := queue
        ranks := ps.map fun p => d.pushRank p queue, hash := hash, group := hash, dyn := dyn, head := head
        toPeer := toPeer, since := d.cycle }) d

/-! Express transit (R152-R157, R161) -/

/-- An express flit enters S2 of port q from ingress group g (R156), or is discarded as any flit for that queue is (R214,
R591); its flow has been counted into the core. -/
def Dev.toS2 (d : Dev) (g q : Nat) (c : QCell) : Dev :=
  match d.queueDrop q 2 c with
  | some d => d.flowLeave c.src c.flit
  | none => (d.mirrorQ 1 q 2 c).updCore fun x => { x with
      s2wait := x.s2wait ++ [{ cell := { c with enq := d.cycle }, group := g, port := q, crossed := none }] }

/-- The credits of VL v that port p holds and no selected flit counts on (R110, R194). -/
def Dev.freeCredit (d : Dev) (p v : Nat) : Nat :=
  at_ 0 (d.link p).avail v - ((d.link p).txSel.filter fun s => s.cell.flit.vl.toNat = v).length

/-- Is port q able to take an on-slot express flit (R154)? -/
def Dev.expPort (d : Dev) (q : Nat) (c : QCell) : Bool :=
  !(d.scopeHeld 1 q) && ((d.port q).state == .up || (d.port q).state == .degraded) && (d.link q).lstate == .active &&
    (d.queue q).pdn == .active && 0 < d.freeCredit q 2 && fencePasses (d.fd F.FLT_FENCE_LEVEL q) c.flit &&
    !(d.partReset c.flit.part.toNat)

/-- The grant checks of R154 that cc 2 makes for a candidate from port p to port q. -/
def Dev.expGrant (d : Dev) (p q : Nat) (c : QCell) : Bool :=
  d.core.slotLocked && d.bit F.CORE_EXP_CFG_EN p && d.bit F.CORE_EXP_CFG_EN q && d.expPort q c &&
  !(d.core.s2wait.any fun w => w.port = q && srcPort w.cell.src == some p) &&
  !(d.core.express.any fun x => x.out = q && x.port = p && 7 ≤ x.step)

/-- A candidate (R152) on slot goes to the grant checks in the next cc, one a cc early is held for one cc, one off slot
goes to S2 (R153, R155, R156). -/
def Dev.express (d : Dev) (p q hash : Nat) (c : QCell) : Dev :=
  let onSlot := (q / 8 + 64 - p / 8 - 2) % 32
  let t := d.core.slot
  let step := if t = onSlot then 1 else if (t + 1) % 32 = onSlot then 0 else 7
  ((if step = 7 then d.count .CORE_EXP_OFFSLOT_CNT p else d).flowEnter c.src c.flit false hash).updCore fun x => { x with
    express := x.express ++ [{ cell := c, port := p, out := q, step := step, bad := false }] }

/-- A candidate denied (R154): it enters S2, unless it is known to be bad. -/
def Dev.expDeny (d : Dev) (x : ExpCand) : Dev :=
  let d := d.count .CORE_EXP_DENIED_CNT x.port
  if x.bad then (d.flowLeave x.cell.src x.cell.flit).dropCopy x.cell.id else d.toS2 (x.port / 8) x.out x.cell

def Dev.expKeep (d : Dev) (x : ExpCand) (step : Nat) : Dev :=
  d.updCore fun c => { c with express := c.express ++ [{ x with step := step }] }

/-- What a new cc brings a candidate: the grant checks in cc 2; in cc 3 the crossing, if the slot counter stands at the
direct connection (R161) and a position is free (R139); then its boundary, reserved unless another on-slot flit still
holds the port's next one (R153, R154; log entry 128). The outcomes are counted (R180). -/
def Dev.expStep (d : Dev) (x : ExpCand) : Dev :=
  let g := x.port / 8
  match x.step with
  | 0 => d.expKeep x 1
  | 1 => if d.expGrant x.port x.out x.cell then d.expKeep x 2
    else (d.count .CORE_EXP_DENIED_CNT x.port).expKeep x 8
  | 2 =>
    if (g + d.core.slot) % 32 = x.out / 8 && tblGet 0 d.core.used1 g < 2 then
      (d.updCore fun c => { c with used1 := tblPut 0 g (tblGet 0 c.used1 g + 1) c.used1 }).expKeep x 3
    else d.expDeny x
  | 3 =>
    if d.expPort x.out x.cell && !((d.link x.out).txSel.any fun s => s.queue = 16) then
      ((d.flowLeave x.cell.src x.cell.flit).count .CORE_EXP_ONSLOT_CNT x.port).updLink x.out fun l => { l with
        txSel := { queue := 16, cell := x.cell, stomp := x.bad } :: l.txSel }
    else d.expDeny x
  | 7 => d.expKeep x 8
  | _ => if x.bad then (d.flowLeave x.cell.src x.cell.flit).dropCopy x.cell.id else d.toS2 g x.out x.cell

/-- The candidates at the start of a cc, the lower ingress port first (R139). -/
def Dev.expressTick (d : Dev) : Dev :=
  let l := d.core.express
  let sorted := (List.range 256).flatMap fun p => l.filter fun x => x.port = p
  sorted.foldl Dev.expStep (d.updCore fun c => { c with express := [] })

/-! INGRESS_BIND -/

/-- Has a port a contribution on its way to a tile or at the tile's door (R231)? A later VL3 flit of the port is not
bound before the tile has dealt with it (log entry 110). -/
def Dev.vl3Held (d : Dev) (s : Source) : Bool :=
  let cell := fun (e : Nat × List Cell) => e.2.any fun c => c.tile && c.src == s && c.flit.vl == 3
  let wait := fun (q : QCell) => q.src == s && q.flit.vl == 3
  (srcPort s).isSome && (d.core.ingressQ.any cell || d.core.interQ.any cell || d.core.tileQ.any (fun e => e.2.any wait) ||
    d.core.tileRx.any (fun e => e.2.any wait) || d.core.ctxWait.any fun w => wait w.2.1)

/-- May binding take a flit of a source now? While FWD_EN is 0 only management and barrier/time flits are bound (R178); a
VL3 flit waits behind a contribution of its source (R231). -/
def Dev.bindable (d : Dev) (s : Source) (f : Flit) : Bool :=
  (d.bit F.CORE_CTRL_FWD_EN || f.type == 6 || f.type == 7) && !(f.vl == 3 && d.vl3Held s)

/-- The front flit of a source that binding may take now, and the source's rest. -/
def pickRx (ok : Flit → Bool) : List RxFlit → Option (RxFlit × List RxFlit)
  | [] => none
  | f :: t =>
    if ok f.flit then some (f, t)
    else match pickRx ok t with
      | some (g, t') => some (g, f :: t')
      | none => none

def pickSrc (ok : Flit → Bool) : List SrcFlit → Option (SrcFlit × List SrcFlit)
  | [] => none
  | f :: t =>
    if ok f.flit then some (f, t)
    else match pickSrc ok t with
      | some (g, t') => some (g, f :: t')
      | none => none

/-- A bound flit discarded at ingress (R165, R200): its cell is freed and its credit returned. -/
def Dev.bindDiscard (d : Dev) (s : Source) (f : Flit) (cell : Nat) (early : Bool) : Dev :=
  d.taken { id := cell, flit := f, src := s, enq := d.cycle, rank := 16, dyn := false, toPeer := false,
            early := early }

/-- The copies of a flit that step 5 and 6 of R163 leave. -/
def Dev.goodPorts (d : Dev) (f : Flit) : Bound → List Nat
  | .ports l _ _ => l.filter fun p => (d.copyDrop f p).isNone
  | _ => []

/-- A new dynamic flow needs a resequencer entry at each of its egress groups (R150): those that lack one and have no room
count it, and it takes the deterministic path. The answer: is the cell sent in dynamic mode? -/
def Dev.reseqEnter (d : Dev) (s : Source) (f : Flit) (dyn new : Bool) (groups : List Nat) : Bool × Dev :=
  let lacks := groups.filter fun g => !((d.reseqOf g).any fun r => r.covers s f)
  let full := if dyn && new then lacks.filter fun g => !(d.reseqRoom g s) else []
  let d := full.foldl (fun d g => d.count .CORE_RESEQ_FULL_CNT g) d
  if dyn && full.isEmpty then
    (true, lacks.foldl (fun d g => d.setReseq g (d.reseqOf g ++ [{
      src := s, fsrc := f.src, fdst := f.dst, part := f.part, vl := f.vl, live := false
      expect := 0, held := [], holes := [], since := none }])) d)
  else (false, d)

/-- A bound flit goes to its tile, die or ports. f travels on; odst is the DST of its flow; dq its demotion queue. -/
def Dev.bindGo (d : Dev) (s : Source) (b : Bound) (f : Flit) (odst : BitVec 16) (cell : Nat) (extra : List Nat)
    (replayed early : Bool) (dq : Option Nat) : Dev :=
  let flow := { f with dst := odst }
  let (dyn0, hash) := d.flowMode s flow
  let new := (d.flowOf s flow).isNone
  let c : Cell := { id := cell, flit := f, odst := odst, src := s, eg := 0, ports := [], tile := false, die := none
                    queue := 16, ranks := [], hash := hash, group := hash, dyn := false, head := false, toPeer := false
                    since := d.cycle }
  match b with
  | .tile i =>
    (((d.holdCopies s cell cell 1).mirrorBind 0 s f none 0 0).flowEnter s flow false hash).launch
      { c with eg := i, tile := true }
  | .die k =>
    (((d.holdCopies s cell cell 1).mirrorBind 0 s f none 0 0).flowEnter s flow dyn0 hash).launch
      { c with eg := 16 * k, die := some k, group := 16 * k + hash % 16, dyn := dyn0, head := dyn0 && new }
  | .ports _ toPeer single =>
    let good := d.goodPorts f b
    let queue := d.classQueue f dq
    let d := d.mirrorBind 0 s f good.head? queue 0
    -- the credit falls due: written to the shared buffer, or leaving by cut-through (R109)
    let d := match s with
      | .port p => if early then d else
          d.dueCredit p.val f.vl.toNat ((good.map fun p => d.pushRank p queue).foldl max 0)
      | _ => d
    let q0 : QCell := { id := cell, flit := f, src := s, enq := d.cycle, rank := 16, dyn := false, toPeer := false
                        early := early }
    if f.exp && f.type == 1 then
      match s, single && !replayed, good with
      | .port p, true, q :: _ => (d.holdCopies s cell cell 1).express p.val q hash q0
      | _, _, _ =>
        -- replayed, internal or multicast express flits enter S2 of each port (R114, R152)
        (groupCells cell extra good).foldl (fun (d : Dev) (_, id, ps) =>
          ps.foldl (fun (d : Dev) p => (d.flowEnter s flow false hash).toS2 (srcGroup s) p { q0 with id := id })
            (d.holdCopies s cell id ps.length)) d
    else
      let (dyn, d) := d.reseqEnter s f dyn0 new ((groupCells cell extra good).map (·.1))
      d.launchPorts s f odst cell extra good queue dyn hash toPeer
  | _ => d.bindDiscard s f cell early

/-- What happens to a flit once binding has taken it from its source with the cells it holds: R163 to R166, R152 and,
after the steps of R163, R200. partReset: the partitions whose reset is in progress (15: R552). time: when it came. -/
def Dev.bindFlit (d : Dev) (s : Source) (f : Flit) (cell : Nat) (extra : List Nat) (replayed early : Bool) (time : Nat)
    (partReset : List Nat) : Dev :=
  let ip := (srcPort s).getD 256
  let timeExch := f.type == 7 && [1, 2, 3].contains (plByte f.payload 0)
  if partReset.contains f.part.toNat && f.type ≠ 6 && !timeExch then
    (match s with
      | .port p => d.count .CORE_PART_RST_DROP_CNT p.val
      | _ => d).bindDiscard s f cell early
  else
  match d.bind s f with
  | (.drop reason ep, _) => (d.countDrop s f reason ep).bindDiscard s f cell early
  | (.unit, _) =>
    ((d.mirrorBind 0 s f none 0 0).updCore fun c => { c with btRx := c.btRx ++ [(ip, f, time)] }).bindDiscard s f cell early
  | (.firmware, _) =>
    ((d.mirrorBind 0 s f none 0 0).updCore fun c => { c with fmRx := c.fmRx ++ [(ip, f)] }).bindDiscard s f cell early
  | (b, f') =>
    let good := d.goodPorts f' b
    let (none_, d) : Bool × Dev := match b with
      | .ports l _ _ => (good.isEmpty, l.foldl (fun d p => d.dropResolved s f' p) d)
      | _ => (false, d)
    if none_ then d.bindDiscard s f cell early
    else match d.meter s f with
    | (.discard _, d) =>
      (d.mirrorBind 3 s f' good.head? (d.classQueue f' none) 0xF7).bindDiscard s f cell early
    | (mt, d) => d.bindGo s b f' f.dst cell extra replayed early (match mt with
        | .demote _ w => some w
        | _ => none)

/-- The further internal cells a flit's copies need, one per egress group after the first, and the rank they compete with
(R166, R186). -/
def Dev.bindNeeds (d : Dev) (s : Source) (f : Flit) : Nat × Nat :=
  match d.bind s f with
  | (.ports l a b, f') =>
    let good := d.goodPorts f' (.ports l a b)
    let queue := d.classQueue f' none
    ((groupCells 0 (List.range 32) good).length - 1, (good.map fun p => d.pushRank p queue).foldl max 0)
  | _ => (0, 16)

/-- Up to n further internal cells taken, as many as there are without push-out (R186). -/
def Dev.takeCells (d : Dev) (got : List Nat) : Nat → List Nat × Dev
  | 0 => (got, d)
  | n + 1 => if d.intCellFree then
      let (id, d) := d.newCell 1 true false
      d.takeCells (got ++ [id]) n
    else (got, d)

/-- Cells a flit has no use for after all are free again. -/
def Dev.freeCells (d : Dev) (l : List Nat) : Dev := l.foldl (fun d id => d.dropCopy id) d

/-- Has what an internal source sends no way to the core: frames of the host path with link 2 failed, or behind a write
that link 2 carries (R13, R16)? -/
def Dev.cutSource (d : Dev) (s : Source) : Bool :=
  s == .host && (d.d2dFailed 2 || d.sys.pwr.accs.any fun a => a.acc.writes && !(a.dom == 68 || a.dom == 69))

def Dev.setSrc (d : Dev) (s : Source) (l : List SrcFlit) : Dev :=
  d.updCore fun c => { c with srcQ := tblPut [] (srcKey s) l c.srcQ }

/-- INGRESS_BIND: the front flit of a source is bound. A flit that finds no cell for itself or for its copies keeps what
it has got and waits for the arbitration (R186, R190). -/
def Dev.ingressBind (d : Dev) (s : Source) (partReset : List Nat) : Dev :=
  match s with
  | .port p =>
    match pickRx (d.bindable (.port p)) (d.link p.val).rx with
    | none => d
    | some (r, rest) =>
      let n := (d.bindNeeds s r.flit).1
      let (extra, d) := d.takeCells r.extra (n - r.extra.length)
      if extra.length < n then d.updLink p.val fun l => { l with rx := { r with extra := extra } :: rest }
      else
        let d := (d.updLink p.val fun l => { l with rx := rest }).freeCells (extra.drop n)
        let (id, d) := d.newCell 1 false true
        d.bindFlit s r.flit id (extra.take n) r.replayed r.early r.time partReset
  | s =>
    match (if d.cutSource s then none else pickSrc (d.bindable s) (tblGet [] d.core.srcQ (srcKey s))) with
    | none => d
    | some (r, rest) =>
      let (own, d) := d.takeCells r.cell.toList (1 - r.cell.toList.length)
      let n := (d.bindNeeds s r.flit).1
      let (extra, d) := d.takeCells r.extra (if own.isEmpty then 0 else n - r.extra.length)
      match own, decide (extra.length < n) with
      | id :: _, false =>
        ((d.setSrc s rest).freeCells (extra.drop n)).bindFlit s r.flit id (extra.take n) false false d.fabricTime partReset
      | _, _ => d.setSrc s ({ r with cell := own.head?, extra := extra } :: rest)

/-! The two stages (R137-R147) -/

/-- May a cell of ingress group i cross stage one to intermediate group j now (R144, R146)? first: the dynamic-mode cell
that has waited longest, the head of the group's queue of such cells (log entry 128). -/
def Dev.mayCross (d : Dev) (i j : Nat) (first : Option Cell) (c : Cell) : Bool :=
  if c.dyn then
    first == some c &&
    (match c.die with
      | some k => j / 16 = k
      | none => true) &&
    (tblGet 0 d.core.rep ((32 * i + j) * 32 + c.eg) ≤ d.fd F.CORE_LB_CFG_DYN_THR || c.since + 32 ≤ d.cycle)
  else j = c.group

/-- The first cell of a list with a property, and the others. -/
def takeFirst {α : Type} (p : α → Bool) (l : List α) : Option (α × List α) :=
  match l.find? p with
  | some x => some (x, l.eraseP p)
  | none => none

/-- A cell as it waits in a queue. -/
def Cell.toQ (c : Cell) (rank now : Nat) : QCell :=
  { id := c.id, flit := c.flit, src := c.src, enq := now, rank := rank, dyn := c.dyn, toPeer := c.toPeer,
    early := false }

/-- A cell leaves the core. -/
def Dev.cellLeave (d : Dev) (c : Cell) : Dev := d.flowLeave c.src { c.flit with dst := c.odst }

/-- A cell has reached its egress group: a copy into the queue of each of its ports, or the tile's queue
(R166, R192). -/
def Dev.deliver (d : Dev) (c : Cell) : Dev :=
  let d := d.cellLeave c
  if c.tile then
    d.updCore fun x => { x with
      tileQ := tblPut [] c.eg (tblGet [] x.tileQ c.eg ++ [c.toQ 16 d.cycle]) x.tileQ }
  else (c.ports.zip c.ranks).foldl (fun d e => d.enqueueCopy e.1 c.queue (c.toQ e.2 d.cycle)) d

/-- The S2 flits of ingress group g that the connection of this cc could carry, oldest first (R156). -/
def Dev.s2Ready (d : Dev) (g : Nat) : List S2Wait :=
  d.core.s2wait.filter fun w => w.group = g && w.crossed.isNone && w.port / 8 = (g + d.core.slot) % 32 &&
    decide (w.cell.enq < d.cycle)

/-- STAGE_ONE_CROSSING of ingress group g: its connection of this slot carries the first cell that may
cross, up to two flits a cycle (R137), express flits first (R139). A cell for a memory-side die leaves the core there
(R136). -/
def Dev.stageOne (d : Dev) (g : Nat) : Dev :=
  let j := (g + d.core.slot) % 32
  let l := tblGet [] d.core.ingressQ g
  if 2 ≤ tblGet 0 d.core.used1 g + (d.s2Ready g).length then d
  else match takeFirst (d.mayCross g j (l.find? (·.dyn))) l with
    | none => d
    | some (c, rest) =>
      let d := d.updCore fun x => { x with
        ingressQ := tblPut [] g rest x.ingressQ
        used1 := tblPut 0 g (tblGet 0 x.used1 g + 1) x.used1 }
      let d := if c.dyn && j ≠ c.hash then d.count .CORE_LB_DYN_CNT else d
      match c.die with
      | some k => (d.cellLeave c).updCore fun x => { x with
          memRx := tblPut [] k (tblGet [] x.memRx k ++ [c.toQ 16 d.cycle]) x.memRx }
      | none => d.updCore fun x => { x with
          interQ := tblPut [] j (tblGet [] x.interQ j ++ [c]) x.interQ }

/-- The depths that the intermediate groups connected in this cc report (R146). -/
def Dev.reportDepths (d : Dev) : Dev :=
  let t := d.core.slot
  d.updCore fun x => { x with
    rep := x.interQ.foldl (fun r e =>
      let i := (e.1 + 32 - t) % 32
      (List.range 32).foldl (fun r eg => tblPut 0 ((32 * i + e.1) * 32 + eg) (e.2.filter fun c => c.eg = eg).length r) r)
        (tblDrop (fun k => (k / 1024 + t) % 32 = k / 32 % 32) x.rep) }

/-- STAGE_TWO_CROSSING of intermediate group j: its connection of this slot carries the first cell for the
egress group it reaches; a dynamic cell goes to the resequencer (R137, R150). -/
def Dev.stageTwo (d : Dev) (j : Nat) : Dev :=
  let e := (j + d.core.slot) % 32
  if 2 ≤ tblGet 0 d.core.used2 j then d
  else match takeFirst (fun c => c.eg = e) (tblGet [] d.core.interQ j) with
    | none => d
    | some (c, rest) =>
      let d := d.updCore fun x => { x with
        interQ := tblPut [] j rest x.interQ
        used2 := tblPut 0 j (tblGet 0 x.used2 j + 1) x.used2 }
      if c.dyn then
        d.updCore fun x => { x with reseqIn := tblPut [] e (tblGet [] x.reseqIn e ++ [c]) x.reseqIn }
      else d.deliver c

/-! Resequencing (R151) -/

/-- The smallest held MSEQ after expect, modulo 65,536. -/
def lowestHeld (r : Reseq) : Option Nat :=
  (r.held.foldl (fun (b : Option Nat) h =>
    let dist := subMod 65536 h.1 r.expect
    match b with
    | none => some dist
    | some m => some (min m dist)) none).map fun dist => (r.expect + dist) % 65536

/-- drain of R151 with fuel: cells released, in order, and the entry left. -/
def drainReseq : Nat → Reseq → List Cell → List Cell × Reseq
  | 0, r, acc => (acc, r)
  | n + 1, r, acc =>
    match r.held.find? fun h => h.1 = r.expect with
    | some h => drainReseq n { r with
        held := r.held.filter fun x => x.1 ≠ r.expect
        expect := (r.expect + 1) % 65536 } (acc ++ [h.2])
    | none =>
      if r.holes.contains r.expect then drainReseq n { r with
        holes := r.holes.filter fun x => x ≠ r.expect
        expect := (r.expect + 1) % 65536 } acc
      else (acc, r)

/-- An entry drained, its cells delivered, and the entry freed when no cell of its flow is in the core. -/
def Dev.drain (d : Dev) (g : Nat) (r : Reseq) : Dev :=
  let others := (d.reseqOf g).filter fun x => !(x.src == r.src && x.fsrc == r.fsrc && x.fdst == r.fdst &&
    x.part == r.part && x.vl == r.vl)
  let (rel, r') := drainReseq (r.held.length + r.holes.length) r []
  let r' := { r' with since := if r'.held.isEmpty then none else some d.cycle }
  let d := rel.foldl (fun d c => d.deliver c) d
  let inCore := d.core.flows.any fun e => e.src == r.src && e.fsrc == r.fsrc && e.fdst == r.fdst &&
    e.part == r.part && e.vl == r.vl
  d.setReseq g (if inCore then others ++ [r'] else others)

/-- A cell discarded in the core. -/
def Dev.discardCell (d : Dev) (c : Cell) : Dev := c.ports.foldl (fun d _ => d.dropCopy c.id) (d.cellLeave c)

/-- RESEQ_ARRIVE at egress group g: the first dynamic cell that has crossed. -/
def Dev.reseqArrive (d : Dev) (g : Nat) : Dev :=
  match tblGet [] d.core.reseqIn g with
  | [] => d
  | c :: rest =>
    let d := d.updCore fun x => { x with reseqIn := tblPut [] g rest x.reseqIn }
    match (d.reseqOf g).find? fun r => r.covers c.src c.flit with
    | none => d.deliver c
    | some r =>
      let ms := c.flit.mseq.toNat
      let r := if c.head then { r with expect := ms, live := true } else r
      if !r.live || behind 65536 ms r.expect then (d.count .CORE_RESEQ_LATE_CNT g).discardCell c
      else
        -- held[mseq] is one place: a cell there before is lost (log entry 128)
        let d := (r.held.filter fun h => h.1 = ms).foldl (fun d h => d.discardCell h.2) d
        d.drain g { r with held := (r.held.filter fun h => h.1 ≠ ms) ++ [(ms, c)] }

/-- RESEQ_HOLE at egress group g: the first hole notice. -/
def Dev.reseqHoleStep (d : Dev) (g : Nat) : Dev :=
  match tblGet [] d.core.reseqHole g with
  | [] => d
  | (e, ms) :: rest =>
    let d := d.updCore fun x => { x with reseqHole := tblPut [] g rest x.reseqHole }
    match (d.reseqOf g).find? fun r => r.src == e.src && r.fsrc == e.fsrc && r.fdst == e.fdst &&
        r.part == e.part && r.vl == e.vl with
    | none => d
    | some r =>
      if ms = r.expect then
        (d.count .CORE_RESEQ_GAP_CNT g).drain g { r with expect := (r.expect + 1) % 65536 }
      else
        let others := (d.reseqOf g).filter fun x => !(x == r)
        d.setReseq g (others ++ [{ r with holes := if r.holes.contains ms then r.holes else r.holes ++ [ms] }])

/-- RESEQ_TIMEOUT at egress group g: entries that have held a cell for TIMEOUT cc skip to their lowest. -/
def Dev.reseqTimeout (d : Dev) (g : Nat) : Dev :=
  let tmo := max 1 (d.fd F.CORE_RESEQ_CFG_TIMEOUT)
  (d.reseqOf g).foldl (fun d r =>
    match r.since, lowestHeld r with
    | some t, some low =>
      if t + tmo ≤ d.cycle then
        (d.countN .CORE_RESEQ_GAP_CNT g 0 (subMod 65536 low r.expect)).drain g { r with expect := low }
      else d
    | _, _ => d) d

/-! Scheduling (R141, R194-R198) -/

/-- Does the shaper of queue q of port p hold the tokens of a flit (R194, R199)? -/
def Dev.shaped (d : Dev) (p q : Nat) : Bool :=
  d.fd F.QOS_SHAPE_RATE p q == 0 ||
    decide (288 * 256 ≤ bucket (d.fd F.QOS_SHAPE_BURST p q) - tblGet 0 (d.queue p).spent q)

/-- A flit taken from queue q lowers its shaper's count (R198). -/
def Dev.shapeTake (d : Dev) (p q : Nat) : Dev :=
  d.updQueue p fun t => { t with
    spent := tblPut 0 q (min (bucket (d.fd F.QOS_SHAPE_BURST p q)) (tblGet 0 t.spent q + 288 * 256)) t.spent }

/-- Is queue q of port p eligible (R194)? -/
def Dev.eligible (d : Dev) (p q : Nat) : Bool :=
  match (d.queue p).cells q with
  | [] => false
  | c :: _ => d.shaped p q && 0 < d.freeCredit p c.flit.vl.toNat

/-- pick_w of R196, at most n rotations left. -/
def Dev.pickW (d : Dev) (p : Nat) : Nat → Dev × Option Nat
  | 0 => (d, none)
  | n + 1 =>
    let t := d.queue p
    let w := t.cur
    let dw := tblGet 0 t.deficit w
    if d.eligible p (4 + w) && 1 ≤ dw then
      (d.updQueue p fun t => { t with deficit := tblPut 0 w (dw - 1) t.deficit }, some (4 + w))
    else
      let w' := (w + 1) % 12
      let weight := max 1 (d.fd F.QOS_QCFG_WEIGHT p (4 + w'))
      let d := d.updQueue p fun t =>
        let df := if (t.cells (4 + w)).isEmpty then tblPut 0 w 0 t.deficit else t.deficit
        { t with cur := w', deficit := tblPut 0 w' (min 255 (tblGet 0 df w' + weight)) df }
      d.pickW p n

/-- The queue the scheduling decision takes for one boundary (R194). S2 takes its boundaries outside the visits (R156). -/
def Dev.pickQueue (d : Dev) (p : Nat) : Dev × Option Nat :=
  match [0, 1, 3].find? fun q => d.eligible p q with
  | some q => (d, some q)
  | none => d.pickW p 13

/-- One boundary offered to the queues of port p: the flit of the queue picked is selected. -/
def Dev.offer (d : Dev) (p : Nat) : Dev :=
  match d.pickQueue p with
  | (d, none) => d
  | (d, some q) =>
    match (d.queue p).cells q with
    | [] => d
    | c :: rest =>
      ((d.setCells p q rest).shapeTake p q).updLink p fun l => { l with
        txSel := l.txSel ++ [{ queue := q, cell := c, stomp := false }] }

/-- The client that the scheduler of every egress group visits in a core cycle (R141): ports, tile, local sink in
rotation (log entry 128). -/
def Dev.turnOf (d : Dev) (c : Client) : Bool × Nat :=
  let k := d.cycle % 10
  match c with
  | .port p => (decide (k = p.val % 8), p.val / 8)
  | .tile i => (decide (k = 8), i.val)
  | .sink g => (decide (k = 9), g.val)

/-- SCHEDULER_VISIT, in the client's turn, one visit a cc (R141): a port's next two boundaries are filled (those reserved
or taken already are not offered); the tile takes up to two of its flits; the local sink takes nothing, for binding has
handed its flits over already (R163). A quiesced port is offered nothing (R507). -/
def Dev.schedulerVisit (d : Dev) (c : Client) : Dev :=
  let (mine, g) := d.turnOf c
  if !mine || d.core.visited.contains g then d
  else
    let d := d.updCore fun x => { x with visited := x.visited ++ [g] }
    match c with
    | .port p =>
      if (d.queue p.val).pdn == .active && !(d.scopeHeld 1 p.val) then
        match (d.link p.val).txSel.length with
        | 0 => (d.offer p.val).offer p.val
        | 1 => d.offer p.val
        | _ => d
      else d
    | .tile i => d.updCore fun x =>
        let q := tblGet [] x.tileQ i.val
        { x with
          tileQ := tblPut [] i.val (q.drop 2) x.tileQ
          tileRx := tblPut [] i.val (tblGet [] x.tileRx i.val ++ q.take 2) x.tileRx }
    | .sink _ => d

/-- S2_CROSSING: the oldest S2 flit that the connection of ingress group g can carry now crosses, when it is for port p;
two flits a cc at most (R156). -/
def Dev.s2Crossing (d : Dev) (g p : Nat) : Dev :=
  match (d.s2Ready g).head? with
  | none => d
  | some w =>
    if w.port = p && tblGet 0 d.core.used1 g < 2 then
      (d.flowLeave w.cell.src w.cell.flit).updCore fun x => { x with
        used1 := tblPut 0 g (tblGet 0 x.used1 g + 1) x.used1
        s2wait := x.s2wait.map fun y => if y == w then { y with crossed := some d.cycle } else y }
    else d

/-- A transmit boundary of port p goes to the oldest S2 flit that has crossed in an earlier cc and whose codeword B is
checked, when its queue is eligible, unless an on-slot flit has reserved it or an S0 or S1 flit is selected for it; an S3
or W flit that was goes back to its queue (R156, R194). -/
def Dev.takeS2 (d : Dev) (p : Nat) : Dev :=
  let kept : Bool := match (d.link p).txSel with
    | s :: _ => s.queue < 2 || s.queue = 16
    | [] => false
  match (d.s2Of p).find? fun w => match w.crossed with
      | some t => decide (t < d.cycle)
      | none => false with
  | none => d
  | some w =>
    if kept || w.cell.early || (d.queue p).pdn != .active || d.scopeHeld 1 p || !d.shaped p 2 ||
        at_ 0 (d.link p).avail w.cell.flit.vl.toNat = 0 then d
    else
      let sel := (d.link p).txSel
      let d := (d.updCore fun x => { x with s2wait := x.s2wait.erase w }).shapeTake p 2
      let d := match sel with
        | s :: _ => d.putBack p s
        | [] => d
      d.updLink p fun l => { l with txSel := { queue := 2, cell := w.cell, stomp := false } :: sel.drop 1 }

end Sys2Proof.Machine
end

