-- ==== Sys2Proof/Machine/MemOps.lean ====
section
/-! DEFINITION. The memories: HBM by byte address 256 x G + b (12: R446), and the memory of each physical
tile (08: R324). A byte nothing has written reads zero (tile memory: R550; HBM: log entry 3). -/

namespace Sys2Proof.Machine

/-- One byte of HBM. -/
def Mem.hbmByte (m : Mem) (a : Nat) : BitVec 8 := tblGet 0 m.hbm a

/-- n bytes of a cell list from address a on. -/
def cellsRead (t : List Host.Cell) (a : Nat) : Nat → List (BitVec 8)
  | 0 => []
  | n + 1 => tblGet 0 t a :: cellsRead t (a + 1) n

/-- A cell list with bytes stored from address a on. -/
def cellsWrite (t : List Host.Cell) (a : Nat) : List (BitVec 8) → List Host.Cell
  | [] => t
  | b :: bs => cellsWrite (tblPut 0 a b t) (a + 1) bs

def Mem.hbmRead (m : Mem) (a n : Nat) : List (BitVec 8) := cellsRead m.hbm a n
def Mem.hbmWrite (m : Mem) (a : Nat) (bs : List (BitVec 8)) : Mem := { m with hbm := cellsWrite m.hbm a bs }

/-- The memory of a physical tile. -/
def Mem.tileCells (m : Mem) (t : Nat) : List Host.Cell := tblGet [] m.tile t
def Mem.tileByte (m : Mem) (t a : Nat) : BitVec 8 := tblGet 0 (m.tileCells t) a
def Mem.tileRead (m : Mem) (t a n : Nat) : List (BitVec 8) := cellsRead (m.tileCells t) a n
def Mem.tileWrite (m : Mem) (t a : Nat) (bs : List (BitVec 8)) : Mem :=
  { m with tile := tblPut [] t (cellsWrite (m.tileCells t) a bs) m.tile }

/-- The canonical form: addresses strictly rising, no byte of zero listed, no empty tile listed. -/
def Mem.wf (m : Mem) : Bool :=
  tblWf 0 m.hbm && tblWf [] m.tile && m.tile.all fun e => tblWf 0 e.2

/-! Capture rings in HBM (R211, R448) -/

/-- The first granule of die d's capture region (R447): the last CAP_GIB GiB. Values above 32 are
used as 32 (R470). -/
def Dev.captureBase (d : Dev) (k : Nat) : Nat :=
  0x30000000 * (k + 1) - min 32 (d.fd F.MEM_LAYOUT_CAP_GIB k) * 0x400000

/-- Does a ring of 2^n bytes at a byte address lie wholly in one die's capture region (R448)? The die. -/
def Dev.captureRing (d : Dev) (base n : Nat) : Option Nat :=
  let lo := base / 256
  let hi := (base + 2 ^ n - 1) / 256
  (List.range 2).find? fun k => d.captureBase k ≤ lo && hi < 0x30000000 * (k + 1)

end Sys2Proof.Machine
end

