-- ==== Sys2Proof/Machine/Queues.lean ====
section
/-! DEFINITION. Buffers, queues, shaping, telemetry and Mirror (05). -/

namespace Sys2Proof.Machine

/-! CREDIT_ARBITRATION (R184, R186, R189, R190) -/

/-- Who waits in the arbitration (R190): a due credit, a flit on a port or of an internal source that lacks a cell, or the
unit's and firmware's own flits. -/
inductive Waiter where
  | credit (w : WaitCr)
  | rx (p : Port)
  | src (s : Source)
  | own
  deriving DecidableEq, Repr

/-- Its place: rank, age, port, internal sources after port 255, and where it stands among equals. -/
structure WaitKey where
  rank : Nat
  age : Nat
  place : Nat
  idx : Nat
  deriving DecidableEq, Repr

/-- Is a served before b (R190): the higher rank, then the older, then the lower port? -/
def WaitKey.before (a b : WaitKey) : Bool :=
  b.rank < a.rank || (a.rank = b.rank && (a.age < b.age || (a.age = b.age && (a.place < b.place ||
    (a.place = b.place && a.idx < b.idx)))))

/-- Who waits: due credits, flits that want cells for their further copies, internal sources that want one at all. -/
def Dev.waiters (d : Dev) : List (WaitKey × Waiter) :=
  let credits := d.core.waiting.zipIdx.map fun e =>
    ({ rank := e.1.rank, age := e.1.age, place := e.1.port, idx := e.2 : WaitKey }, Waiter.credit e.1)
  let ports := (List.finRange 256).filterMap fun p => (pickRx (d.bindable (.port p)) (d.link p.val).rx).bind fun r =>
    let (n, rank) := d.bindNeeds (.port p) r.1.flit
    if r.1.extra.length < n then some ({ rank := rank, age := r.1.age, place := 512 + p.val, idx := 0 : WaitKey }, Waiter.rx p)
    else none
  let all : List Source := (List.finRange 32).map Source.tile ++ (List.finRange 2).map Source.mem ++ [.host]
  let srcs := all.filterMap fun s => (pickSrc (d.bindable s) (tblGet [] d.core.srcQ (srcKey s))).bind fun r =>
    let (n, rank) := d.bindNeeds s r.1.flit
    if r.1.cell.isNone || r.1.extra.length < n then
      some ({ rank := rank, age := r.1.age, place := srcKey s, idx := 0 : WaitKey }, Waiter.src s)
    else none
  credits ++ ports ++ srcs ++ (d.core.ownTx.take 1).map fun o => ({ rank := 16, age := o.age, place := 291, idx := 0 }, .own)

/-- The next one served. -/
def nextWaiter (l : List (WaitKey × Waiter)) : Option (WaitKey × Waiter) :=
  l.foldl (fun b x => match b with
    | none => some x
    | some y => if x.1.before y.1 then some x else some y) none

/-- One more cell for the front flit of a source, or for one on a port. -/
def Dev.giveCell (d : Dev) : Waiter → Dev
  | .credit w => (d.updCore fun c => { c with waiting := c.waiting.erase w }).returnCredit w.port w.vl
  | .rx p => match pickRx (d.bindable (.port p)) (d.link p.val).rx with
    | some (r, rest) =>
      let (id, d) := d.newCell 1 true false
      d.updLink p.val fun l => { l with rx := { r with extra := r.extra ++ [id] } :: rest }
    | none => d
  | .src s => match pickSrc (d.bindable s) (tblGet [] d.core.srcQ (srcKey s)) with
    | some (r, rest) =>
      let (id, d) := d.newCell 1 true false
      d.setSrc s ((if r.cell.isNone then { r with cell := some id } else { r with extra := r.extra ++ [id] }) :: rest)
    | none => d
  | .own => match d.core.ownTx with
    | o :: rest => (d.updCore fun c => { c with ownTx := rest }).ownEnqueue o.port o.queue o.flit
    | [] => d

/-- Service of the waiters not tried yet in this cc, at most left of them; one that finds neither room nor a lower rank to
push out waits on. The answer tells how many of left remain. -/
def Dev.serve : Nat → Nat → List (WaitKey × Waiter) → Dev → Nat × Dev
  | 0, left, _, d => (left, d)
  | _, 0, _, d => (0, d)
  | fuel + 1, left + 1, l, d =>
    match nextWaiter l with
    | none => (left + 1, d)
    | some (k, x) =>
      let rest := l.filter fun y => !(y.1 == k)
      let room : Option Dev := match x with
        | .credit _ => if 1 ≤ d.slack then some d else d.pushOut k.rank
        | _ => d.roomInternal k.rank
      match room with
      | some d' => Dev.serve fuel left rest (d'.giveCell x)
      | none => Dev.serve fuel (left + 1) rest d

/-- CREDIT_ARBITRATION: up to four in one cc. -/
def Dev.creditArb (d : Dev) : Dev :=
  let l := d.waiters
  let (left, d) := Dev.serve l.length (4 - d.core.arb) l d
  d.updCore fun c => { c with arb := 4 - left }

/-- A due credit that its cc leaves waiting is counted once (R190). -/
def Dev.countWaits (d : Dev) : Dev :=
  let new := d.core.waiting.filter fun w => !w.counted
  (new.foldl (fun (d : Dev) w => d.count .QOS_CREDIT_WAIT_CNT w.port) d).updCore fun c => { c with
    waiting := c.waiting.map fun w => { w with counted := true } }

/-- What the end of a core cycle brings to the switch core: depths are reported (R146), credits that wait are counted, and
the connections, schedulers and the arbitration are free again. -/
def Dev.coreCycle (d : Dev) : Dev :=
  d.reportDepths.countWaits.updCore fun c => { c with used1 := [], used2 := [], visited := [], arb := 0 }

/-! SHAPER_TICK (R198, R200) -/

/-- One cc of refill: what is missing shrinks by the rate. -/
def refill (rate : Nat → Nat) (t : Tbl Nat) : Tbl Nat := tblMap 0 (fun k v => v - rate k) t

def Dev.shaperTick (d : Dev) : Dev :=
  { d with queues := tblMap QueueSt.reset (fun p t => { t with
      spent := refill (fun q => d.fd F.QOS_SHAPE_RATE p q) t.spent
      mspent := refill (fun m => d.fd F.QOS_METER_RATE p m) t.mspent }) d.queues }

/-! Telemetry (R202-R206, R497) -/

/-- K in force (R206). -/
def Dev.teleK (d : Dev) : Nat := max 10 (min 20 (d.fd F.QOS_TELE_CFG_K))

/-- Is the telemetry ring full (R497)? -/
def Dev.teleFull (d : Dev) (h : Nat) : Bool :=
  let f := d.fn h
  dist32 f.teleProd f.teleCons == 2 ^ max 6 (min 20 (d.fdF F.HOST_TELE_CFG_SIZE_LOG2 h 0 0))

/-- The head delay of a queue in units of 64 cc (R203). -/
def Dev.headDelay (d : Dev) (p q : Nat) : Nat :=
  match d.cellsOf p q with
  | [] => 0
  | c :: _ => min 0xFFFF ((d.cycle - c.enq) / 64)

/-- The code of a port state (R74). -/
def portCode : PortState → Nat
  | .absent => 0 | .disabled => 1 | .dark => 2 | .training => 3 | .measuring => 4 | .up => 5
  | .degraded => 6 | .restripe => 7 | .down => 8 | .laserCut => 9 | .peerCut => 10

/-- The 128 bytes of a telemetry record with LOST = 0 (R205). -/
def Dev.teleRecord (d : Dev) (p sample : Nat) : List (BitVec 8) :=
  let pdn := (d.queue p).pdn
  leBytes 8 d.fabricTime ++ leBytes 4 sample ++ leBytes 2 p ++
  leBytes 1 (portCode (d.port p).state <<< 4 ||| b2n (!d.time.locked) <<< 1) ++ leBytes 1 d.teleK ++
  ((List.range 16).map fun q => leBytes 4 (d.depth p q % 2 ^ 20)).flatten ++
  ((List.range 16).map fun q => leBytes 2 (d.headDelay p q)).flatten ++
  leBytes 4 d.core.free ++ leBytes 4 d.core.backed ++
  leBytes 4 (if pdn == .held then d.heldCells p else 0) ++ leBytes 4 0

/-- TELEMETRY_SAMPLE: in a cc whose fabric cycle index (the local count while unlocked) is a multiple of
2^K the masked ports are sampled, or the sample is skipped and counted (R202, R204). -/
def Dev.teleSample (d : Dev) : Dev :=
  let n := if d.time.locked then d.fabricCycle else d.cycle
  if d.bit F.QOS_TELE_CFG_EN && !(d.scopeHeld 5 0) && n % 2 ^ d.teleK = 0 then
    let s := d.capt.sampleNo
    let d := d.updCapt fun c => { c with sampleNo := (s + 1) % m32 }
    let full := match d.primary with
      | some h => d.teleFull h
      | none => false
    if !d.capt.tele.isEmpty || full then
      ((d.updCapt fun c => { c with teleLost := true }).count .QOS_TELE_DROP_CNT).captureLoss 0
    else
      let ports := (List.range 256).filter fun p => bitAt (d.fd F.QOS_TELE_PMASK_PORTS (p / 64)) (p % 64)
      d.updCapt fun c => { c with tele := ports.map fun p => { port := p, bytes := d.teleRecord p s } }
  else d

/-- TELEMETRY_RECORD_WRITE: the first pending record goes over link 2 to the primary's telemetry ring, when it is
enabled and has room. -/
def Dev.teleWrite (d : Dev) : Dev :=
  match d.capt.tele, d.primary with
  | r :: rest, some h =>
    if d.fdF F.HOST_TELE_CFG_EN h 0 0 == 1 && !(d.teleFull h) && !d.d2dFailed 2 then
      let f := d.fn h
      let size := 2 ^ max 6 (min 20 (d.fdF F.HOST_TELE_CFG_SIZE_LOG2 h 0 0))
      let flags := byteAt r.bytes 14 ||| b2n d.capt.teleLost
      let base := ringBase (d.fdF F.HOST_TELE_BASE_BASE h 0 0) (128 * size)
      let d := d.hostWrite h (base + 128 * (f.teleProd % size)) (bytesPut r.bytes 14 (leBytes 1 flags))
      let d := d.sbWrite h 20 (leBytes 4 ((f.teleProd + 1) % m32))
      (d.updCapt fun c => { c with tele := rest, teleLost := false }).updFn h fun f => { f with
        teleProd := (f.teleProd + 1) % m32 }
    else d
  | _, _ => d

/-! Mirror (R207-R211) -/

/-- Does an event match filter f (R207)? -/
def Dev.mirrMatch (d : Dev) (f : Nat) (e : MirrEvt) : Bool :=
  d.bit F.MIRR_FLT_CFG_EN f && d.fd F.MIRR_FLT_CFG_POINT f == e.point &&
  ((List.range 6).all fun w =>
    (hdrWord e.flit w ^^^ d.fd F.MIRR_FLT_MATCH_MATCH f w) &&& d.fd F.MIRR_FLT_MASK_MASK f w == 0) &&
  bitAt (d.fd F.MIRR_FLT_PORTS_PORTS f (e.port / 64)) (e.port % 64)

/-- The 64 bytes of a Mirror record with LOST = 0 (R210). -/
def Dev.mirrRecord (d : Dev) (e : MirrEvt) (f : Nat) : List (BitVec 8) :=
  ((List.range 8).map fun w => beBytes 4 (hdrWord e.flit w)).flatten ++ leBytes 8 e.time ++
  leBytes 1 (e.iport.getD 0) ++ leBytes 1 (e.eport.getD 0) ++
  leBytes 1 ((e.queue % 16) <<< 4 ||| e.point <<< 2 ||| b2n (!d.time.locked)) ++
  leBytes 1 (b2n e.eport.isSome <<< 4 ||| b2n e.iport.isNone <<< 3 ||| f) ++
  leBytes 4 (min e.depth 0xFFFFFF ||| e.reason <<< 24) ++ leBytes 16 e.flit.payload.toNat

/-- MIRROR_CAPTURE: the first capture-point event of a core cycle that is over, in the order of R209, is offered to the
filters; the lowest that captures it makes one record (R208), one record a cc at most. -/
def Dev.mirrCapture (d : Dev) : Dev :=
  match d.capt.evts with
  | [] => d
  | e :: rest =>
    let hits := (List.range 8).filter fun f => d.mirrMatch f e
    let got := hits.filter fun f => at_ 0 d.capt.filtCnt f % 2 ^ d.fd F.MIRR_FLT_CFG_SAMPLE f = 0
    if d.cycle ≤ e.cycle || (!got.isEmpty && d.capt.took = d.cycle + 1) then d
    else
      let d := d.updCapt fun c => { c with
        evts := rest, filtCnt := hits.foldl (fun l f => updAt l f (· + 1)) c.filtCnt }
      match got with
      | [] => d
      | f :: _ =>
        let d := d.updCapt fun c => { c with took := d.cycle + 1 }
        if d.capt.mirrQ.length < 256 then
          d.updCapt fun c => { c with mirrQ := c.mirrQ ++ [{ bytes := d.mirrRecord e f }] }
        else ((d.updCapt fun c => { c with mirrLost := true }).count .MIRR_DROP_CNT).captureLoss 1

/-- The ring exponent in force (R211). -/
def ringLog2 (dest n : Nat) : Nat := if dest = 0 then max 20 (min 34 n) else max 16 (min 30 n)

/-- MIRROR_RECORD_WRITE: the first queued record goes to its ring, or is dropped (R209, R448, R19); one for host memory is
dropped while link 2 has failed (R13; log entry 123). -/
def mirrWrite (m : Mem) (d : Dev) : Mem × Dev :=
  match d.capt.mirrQ with
  | [] => (m, d)
  | r :: rest =>
    let d := d.updCapt fun c => { c with mirrQ := rest }
    let dest := d.fd F.MIRR_CTRL_DEST
    let n := ringLog2 dest (d.fd F.MIRR_CTRL_SIZE_LOG2)
    let slots := 2 ^ (n - 6)
    let w := d.fd F.MIRR_WPTR_WPTR
    let base := d.fd F.MIRR_BASE_BASE / 2 ^ n * 2 ^ n
    let full := d.fd F.MIRR_CTRL_MODE == 0 &&
      (w + 2 ^ 64 - d.fd F.MIRR_RPTR_RPTR) % 2 ^ 64 == slots
    let lost := ((d.updCapt fun c => { c with mirrLost := true }).count .MIRR_DROP_CNT).captureLoss 1
    let bytes := bytesPut r.bytes 42 (leBytes 1 (byteAt r.bytes 42 ||| b2n d.capt.mirrLost <<< 1))
    let wrote := (d.updCapt fun c => { c with mirrLost := false }).fdSet F.MIRR_WPTR_WPTR 0 0 (w + 1)
    if full then (m, lost)
    else if dest = 0 then
      match d.captureRing base n with
      | none => (m, lost)
      | some k => if d.d2dFailed k then (m, lost)
        else (m.hbmWrite (base + 64 * (w % slots)) bytes, wrote)
    else match d.primary with
      | none => (m, lost)
      | some h => if d.d2dFailed 2 then (m, lost) else (m, wrote.hostWrite h (base + 64 * (w % slots)) bytes)

/-! Queues behind a port that goes down (R212-R216) -/

/-- Is the port down in the sense of R212? -/
def portDown : PortState → Bool
  | .down | .dark | .laserCut | .peerCut | .disabled => true
  | _ => false

/-- Is the port UP or DEGRADED? -/
def portUp : PortState → Bool
  | .up | .degraded => true
  | _ => false

/-- Can port p send: UP or DEGRADED, its engine's domain not FAILED (R522)? -/
def Dev.canSend (d : Dev) (p : Nat) : Bool := portUp (d.port p).state && !d.domFailed (engineDom (p / 16))

/-- PORT_QUEUES_RESUME: a HELD port that is UP or DEGRADED sends its queued flits again. -/
def Dev.queuesResume (d : Dev) (p : Nat) : Dev :=
  if d.canSend p && (d.queue p).pdn == .held then
    d.updQueue p fun t => { t with pdn := .active, timer := false, noHold := false }
  else d

/-- PORT_QUEUES_HELD: the queues of a port that went down enter HELD with the hold timer, or FLUSHING when
HOLD is 0. -/
def Dev.queuesHeld (d : Dev) (p : Nat) : Dev :=
  if portDown (d.port p).state then
    if (d.queue p).pdn == .active then
      let d := d.unselect p
      if d.fd F.QOS_PDN_CFG_HOLD p = 0 then d.flush p
      else d.updQueue p fun t => { t with
        pdn := .held, timer := true, cap := d.fd F.QOS_PDN_CFG_HOLD_CAP p, noHold := false }
    else d
  else d.queuesResume p

/-- HOLD_TIMER_EXPIRY: a HELD port that came back in the same cc keeps its flits (R213); else it flushes. -/
def Dev.holdExpiry (d : Dev) (p : Nat) : Dev :=
  if (d.queue p).pdn == .held && (d.queue p).timer then
    if d.canSend p then d.queuesResume p else d.flush p
  else d

/-- A write of FLUSH: ends a hold; no effect without a timer (R214) or outside HELD (R216). A port that is back leaves HELD
first (R212). -/
def Dev.pdnFlush (d : Dev) (p : Nat) : Dev :=
  if (d.queue p).pdn == .held && !(d.queue p).noHold then
    if d.canSend p then d.queuesResume p else d.flush p
  else d

/-- FLUSH_COMPLETE: every cell of the port is freed (R212); after a fence's flush the queues are ACTIVE
(R590). -/
def Dev.flushComplete (d : Dev) (p : Nat) : Dev :=
  if (d.queue p).pdn == .flushing && d.heldCells p = 0 then
    if d.canSend p || d.fd F.FLT_FENCE_LEVEL p ≠ 0 then
      d.updQueue p fun t => { t with pdn := .active, timer := false, noHold := false }
    else d.updQueue p fun t => { t with
      pdn := .held
      timer := !(d.fd F.QOS_PDN_CFG_HOLD p == 0)
      noHold := d.fd F.QOS_PDN_CFG_HOLD p == 0
      cap := d.fd F.QOS_PDN_CFG_HOLD_CAP p }
  else d

end Sys2Proof.Machine
end

