-- ==== Sys2Proof/Machine/Words.lean ====
section
/-! DEFINITION. Control words and the state of a run (07: R270-R281), and the halt of a program (R301, R302). -/

namespace Sys2Proof.Machine

/-! Sources with their visibility (R278-R281) -/

/-- What a read in cc now sees of a source whose writes become visible after lat cc (R280). -/
def Lag.read {α : Type} (l : Lag α) (lat now : Nat) : α :=
  l.writes.foldl (fun v w => if w.1 + lat ≤ now then w.2 else v) l.base

/-- Has the source a write that is not visible in cc now (R299)? -/
def Lag.late {α : Type} (l : Lag α) (lat now : Nat) : Bool := l.writes.any fun w => decide (now < w.1 + lat)

/-- The value after every write. -/
def Lag.newest {α : Type} (l : Lag α) : α := l.writes.foldl (fun _ w => w.2) l.base

/-- A write in cc now; writes already visible are folded into the base. -/
def Lag.write {α : Type} (l : Lag α) (lat now : Nat) (v : α) : Lag α :=
  { base := l.read lat now, writes := (l.writes.filter fun w => decide (now < w.1 + lat)) ++ [(now, v)] }

def Lag.pure_ {α : Type} (v : α) : Lag α := { base := v, writes := [] }
/-- Every pending write landed. -/
def Lag.settle {α : Type} (l : Lag α) : Lag α := Lag.pure_ l.newest

/-! Words (R271) -/

def wf (w : BitVec 128) (hi lo : Nat) : Nat := bitsOf w.toNat hi lo
def wFlow (w : BitVec 128) : Nat := wf w 127 124
def wTarget (w : BitVec 128) : Nat := wf w 123 112
def wCsel (w : BitVec 128) : Nat := wf w 111 110
def wWsel (w : BitVec 128) : Nat := wf w 109 106
def wKdst (w : BitVec 128) : Nat := wf w 105 103
def wKop (w : BitVec 128) : Nat := wf w 102 100
def wKsrc (w : BitVec 128) : Nat := wf w 99 97
def wImm (w : BitVec 128) : BitVec 16 := w.extractLsb' 81 16
def wCdst (w : BitVec 128) : Nat := wf w 80 79
def wCop (w : BitVec 128) : Nat := wf w 78 76
def wCa (w : BitVec 128) : Nat := wf w 75 73
def wCbi (w : BitVec 128) : Nat := wf w 72 72
def wCb (w : BitVec 128) : Nat := wf w 71 69
def wAgsel (w : BitVec 128) : Nat := wf w 68 67
def wAgop (w : BitVec 128) : Nat := wf w 66 65
def wPset (w : BitVec 128) : Nat := wf w 64 61
def wPush (w : BitVec 128) : Nat := wf w 60 58
def wTpl (w : BitVec 128) : Nat := wf w 57 52
/-- MUXA, MUXB and MUXC. -/
def wMux (w : BitVec 128) : List Nat := [wf w 51 49, wf w 48 46, wf w 45 43]
def wTagsel (w : BitVec 128) : Nat := wf w 42 41
def wBarr (w : BitVec 128) : Bool := wf w 40 40 = 1
def wBar (w : BitVec 128) : Nat := wf w 39 32
def wOfs (w : BitVec 128) : Bool := wf w 31 31 = 1
def wHok (w : BitVec 128) : Bool := wf w 30 30 = 1

/-! Reading the run -/

def RunSt.kReg (r : RunSt) (j : Nat) : Lag (BitVec 32) := r.k.getD j (Lag.pure_ 0)
def RunSt.gen (r : RunSt) (n : Nat) : Lag Gen := r.g.getD n (Lag.pure_ Gen.none_)
def RunSt.readK (r : RunSt) (j : Nat) : BitVec 32 := (r.kReg j).read 2 r.cc
def RunSt.kLate (r : RunSt) (j : Nat) : Bool := (r.kReg j).late 2 r.cc
def RunSt.readC (r : RunSt) (j : Nat) : Bool := (r.c.getD j (Lag.pure_ false)).read 1 r.cc
def RunSt.readG (r : RunSt) (n : Nat) : Gen := (r.gen n).read 3 r.cc
def RunSt.gLate (r : RunSt) (n : Nat) : Bool := (r.gen n).late 3 r.cc
def RunSt.gLoaded (r : RunSt) (n : Nat) : Bool := (r.gen n).newest.loaded
def RunSt.relLate (r : RunSt) : Bool := r.rel.any fun x => decide (r.cc < x.1)

def TileSt.word (t : TileSt) (a : Nat) : BitVec 128 := tblGet 0 t.pmem a
def TileSt.queue (t : TileSt) (e : Nat) : List EngCmd := tblGet [] t.q e

/-- A template (R288). -/
def TileSt.tpl (t : TileSt) (n : Nat) : BitVec 256 := tblGet 0 t.tmpl n

/-- The TAG of a word's push (R276); for a reserved TAGSEL, LASTTAG. -/
def pushTag (t : TileSt) (r : RunSt) (w : BitVec 128) : Nat :=
  match wTagsel w with
  | 0 => bitsOf (t.tpl (wTpl w)).toNat 235 220
  | 1 => (wImm w).toNat
  | 2 => (r.readK (wKsrc w)).toNat % 65536
  | _ => r.lastTag

/-- The run's commands queued or executing on the engines of a list (R279). -/
def TileSt.pushedBusy (t : TileSt) (c : Nat) (es : List Nat) : Bool :=
  es.any fun e => ((t.queue e).any fun m => m.ctx = c && !m.builtin) ||
    match tblGet none t.busy e with
    | some m => m.ctx = c && !m.builtin && !m.dead
    | none => false

/-! Halts (R301, R302) -/

/-- The program of the run on logical tile i halts at an address; tag: the TAG of the word's push, or LASTTAG. -/
def Dev.haltTag (d : Dev) (i : Nat) (r : RunSt) (pc reason slot tag : Nat) : Dev :=
  let d := (d.count .SEQ_HALT_CNT i).loupe { tile := i, kind := 7, tag := r.lastTag, ctx := r.ctx, pc := pc, reason := reason }
  let d := d.heatFlag F.SEQ_HALT_VALID i 0 1
  let d := if d.bit F.SEQ_HALT_VALID i then d
    else d.setRawF .SEQ_HALT 0 i 0
      (reason <<< 56 ||| tag <<< 40 ||| r.ctx <<< 28 ||| pc <<< 16 ||| 1 <<< 15 ||| slot <<< 12)
  d.ctxFault r.ctx reason

/-- A halt of a word whose slots have not acted. -/
def Dev.halt (d : Dev) (i : Nat) (r : RunSt) (pc reason slot : Nat) : Dev :=
  let t := d.tile (d.phys i)
  let w := t.word pc
  d.haltTag i r pc reason slot (if r.pc ≤ 0xFFF && wPush w ≠ 0 then pushTag t r w else r.lastTag)

/-- The runs that a failure of barrier b halts: those stalled at a WAIT for an epoch of it that it has not released
(R293). -/
def Dev.barWaiters (d : Dev) (b : Nat) : List (Nat × RunSt) :=
  (List.range 32).filterMap fun i =>
    let t := d.tile (d.phys i)
    t.run.filter (fun r =>
      r.stall.isSome && wFlow (t.word r.pc) = 4 && wWsel (t.word r.pc) = 0xB && wBar (t.word r.pc) = b &&
      match r.bar with
      | some (c, ep) => c = b && !(behind 65536 ep (d.bar b).epoch)
      | none => false) |>.map (i, ·)

/-- They halt. -/
def Dev.barHalt (d : Dev) (b : Nat) : Dev :=
  (d.barWaiters b).foldl (fun d x => d.halt x.1 x.2 x.2.pc 0x0D 5) d

end Sys2Proof.Machine
end

