-- ==== Sys2Proof/Machine/Time.lean ====
section
/-! DEFINITION. Fabric time and barriers (06: R244-R255). -/

namespace Sys2Proof.Machine

/-! Flits of the time and barrier unit -/

/-- A flit of the unit put into S1 of a port (R192). -/
def Dev.sendS1 (d : Dev) (p : Nat) (f : Flit) : Dev :=
  let (dst, d) := if d.bit F.CORE_PEER_VALID p then (BitVec.ofNat 16 (d.fd F.CORE_PEER_ID p), d) else
    let (v, d) := d.fresh
    (v.setWidth 16, d)
  d.sendOwn p 1 { f with dst := dst }

/-- A SYNC, SYNC_REPLY or ANNOUNCE payload (R246); the transmit stamp is filled in when the flit leaves. -/
def timePayload (kind seq t1 t2 master hops prio : Nat) : List (BitVec 8) :=
  leBytes 1 kind ++ leBytes 1 0 ++ leBytes 2 seq ++ leBytes 4 0 ++ leBytes 8 t1 ++ leBytes 8 t2 ++
  leBytes 8 0 ++ leBytes 4 0 ++ leBytes 2 master ++ leBytes 1 hops ++ leBytes 1 prio

/-- An ARRIVE or RELEASE payload (R246). -/
def barPayload (kind b epoch t1 : Nat) : List (BitVec 8) :=
  leBytes 1 kind ++ leBytes 1 b ++ leBytes 2 epoch ++ leBytes 4 0 ++ leBytes 8 t1

/-- The first flit of a kind that the unit has received, and the others. -/
def Dev.takeBt (d : Dev) (kind : Nat) : Option ((Nat × Flit × Nat) × Dev) :=
  match takeFirst (fun (x : Nat × Flit × Nat) => plByte x.2.1.payload 0 = kind) d.core.btRx with
  | some (x, rest) => some (x, d.updCore fun c => { c with btRx := rest })
  | none => none

/-! Fabric time -/

/-- 1 ns in the units of a stamp (R244). -/
def nsUnit : Nat := 65536

/-- FABRIC_TIME_TICK: one core cycle of 10/19 ns, slewed by at most 200 ppm (131 of 655,360 units) toward
the offset that is left (R248; log entry 23). -/
def Dev.timeTick (d : Dev) : Dev :=
  let s := d.time.slewLeft
  let adj : Int := if s < -131 then -131 else if 131 < s then 131 else s
  { d with time := { d.time with
      t19 := (((d.time.t19 : Int) + 655360 + adj).toNat) % (2 ^ 64 * 19), slewLeft := s - adj } }

/-- The pair and hops of the best master a device hears, with its port (R248): lowest (PRIO, MASTER_ID), then
fewest hops, then the lower port. -/
def Dev.bestHeard (d : Dev) : Option (Nat × Heard) :=
  d.time.heard.foldl (fun b e => match e.2, b with
    | none, _ => b
    | some h, none => some (e.1, h)
    | some h, some (q, g) =>
      let kh := (h.prio * 65536 + h.master) * 256 + h.hops
      let kg := (g.prio * 65536 + g.master) * 256 + g.hops
      if kh < kg then some (e.1, h) else some (q, g)) none

/-- A field of the CORE_TIME_CFG in force (R264). -/
def TimeSt.cfgFd (t : TimeSt) (f : Fld) : Nat := bitsOf t.cfg f.hi f.lo

/-- Is the device the time master (R248)? -/
def Dev.isMaster (d : Dev) : Bool :=
  d.time.cfgFd F.CORE_TIME_CFG_MASTER_EN = 1 &&
  match d.bestHeard with
  | none => true
  | some (_, h) => decide (d.time.cfgFd F.CORE_TIME_CFG_PRIO * 65536 + d.selfId ≤ h.prio * 65536 + h.master)

/-- Fabric time loses lock (R248). -/
def Dev.timeUnlock (d : Dev) : Dev :=
  let d := if d.time.locked then d.flagOr F.CORE_TIME_STAT_LOCK_LOST 0 0 1 else d
  { d with time := { d.time with locked := false, streak := 0 } }

/-- The upstream port and hop count follow what is heard (R248); the master is locked at hop count 0. -/
def Dev.timeElect (d : Dev) : Dev :=
  if d.isMaster then
    ({ d with time := { d.time with upport := none, locked := true, slewLeft := 0 } }).fdSet
      F.CORE_TIME_STAT_HOPS 0 0 0
  else match d.bestHeard with
    | none => (({ d with time := { d.time with upport := none } }).timeUnlock).fdSet
        F.CORE_TIME_STAT_HOPS 0 0 0xFF
    | some (p, h) =>
      let d := if d.time.upport == some p then d else { d with
        time := { d.time with upport := some p, streak := 0 } }
      let d := if h.hops = 0xFF then d.timeUnlock else d
      (d.fdSet F.CORE_TIME_STAT_UPPORT 0 0 p).fdSet F.CORE_TIME_STAT_HOPS 0 0 (min 0xFF (h.hops + 1))

/-- A port leaves UP and DEGRADED: what was learned over it is void (R247, R248, R264). Lock is lost when it was the
upstream port and no other announces the master. -/
def Dev.timePortLost (d : Dev) (p : Nat) : Dev :=
  let d := (d.fdSet F.CORE_PEER_VALID p 0 0).fdSet F.CORE_PORT_DELAY_VALID p 0 0
  let old := tblGet none d.time.heard p
  let wasUp := d.time.upport == some p
  let d := { d with time := { d.time with heard := tblPut none p none d.time.heard } }
  if wasUp then
    if d.time.heard.any fun e => match e.2, old with
      | some h, some g => h.prio = g.prio && h.master = g.master
      | _, _ => false
    then d.timeElect
    else (d.timeUnlock).timeElect
  else d

/-- The ports whose link is ACTIVE. -/
def Dev.activePorts (d : Dev) : List Nat :=
  (d.links.filter fun e => e.2.lstate == .active).map (·.1)

/-- TIME_EXCHANGE_TIMER: the CORE_TIME_CFG that has been written applies (R264), and SYNC and ANNOUNCE go out on every
ACTIVE link (R247). A device that knows no master announces the pair that no other is worse than, as unlocked
(log entry 111). -/
def Dev.timeExchange (d : Dev) : Dev :=
  let n := (d.time.seqNo + 1) % 65536
  let d := ({ d with time := { d.time with seqNo := n, cfg := d.rawF .CORE_TIME_CFG 0 0 0 } }).timeElect
  let hops := if d.time.locked then d.fd F.CORE_TIME_STAT_HOPS else 0xFF
  let (master, prio) := if d.isMaster then (d.selfId, d.time.cfgFd F.CORE_TIME_CFG_PRIO)
    else match d.bestHeard with
      | some (_, h) => (h.master, h.prio)
      | none => (0xFFFF, 0xFF)
  d.forEach d.activePorts fun d p =>
    (d.sendS1 p (timeFlit d.selfId 0 (timePayload 1 n 0 0 0 0 0))).sendS1 p
      (timeFlit d.selfId 0 (timePayload 3 0 0 0 master hops prio))

/-- SYNC_RX: the first SYNC is answered with T1 and its receive stamp (R245, R247: 18 ns before binding). -/
def Dev.syncRx (d : Dev) : Dev :=
  match d.takeBt 1 with
  | none => d
  | some ((p, f, t), d) =>
    d.sendS1 p (timeFlit d.selfId 0
      (timePayload 2 (plLe f.payload 2 2) (plLe f.payload 8 8) ((t + 2 ^ 64 - 18 * nsUnit) % 2 ^ 64) 0 0 0))

/-- Stamp units to picoseconds, rounded down. -/
def unitsToPs (x : Int) : Int := x * 1000 / 65536

/-- The signed difference of two stamps, which count modulo 2^64 (R244). -/
def stampDiff (a b : Nat) : Int := (((a : Int) - b + 2 ^ 63) % 2 ^ 64) - 2 ^ 63

/-- SYNC_REPLY_RX: fibre delay, offset and D_p from the stamps it carries and its receive stamp (R247); CORE_PEER; the
time follows the upstream port's offset (R248). -/
def Dev.syncReplyRx (d : Dev) : Dev :=
  match d.takeBt 2 with
  | none => d
  | some ((p, f, t), d) =>
    let t1 := plLe f.payload 8 8
    let t2 := plLe f.payload 16 8
    let t3 := plLe f.payload 24 8
    let t4 := (t + 2 ^ 64 - 18 * nsUnit) % 2 ^ 64
    let fibre := (stampDiff t4 t1 - stampDiff t3 t2) / 2
    let theta := (stampDiff t2 t1 - stampDiff t4 t3) / 2
    let dp := (plLe f.payload 32 4 : Int) + unitsToPs fibre + 18000
    let d := (d.fdSet F.CORE_PORT_DELAY_DELAY p 0 dp.toNat).fdSet F.CORE_PORT_DELAY_VALID p 0 1
    let d := (d.fdSet F.CORE_PEER_ID p 0 f.src.toNat).fdSet F.CORE_PEER_VALID p 0 1
    if d.time.upport == some p && !d.isMaster then
      let d := d.fdSet F.CORE_TIME_STAT_THETA 0 0 ((unitsToPs theta % 2 ^ 32 + 2 ^ 32) % 2 ^ 32).toNat
      let mag := theta.natAbs
      if 1000 * nsUnit < mag then
        (({ d with time := { d.time with
            t19 := (((d.time.t19 : Int) + 19 * theta) % (2 ^ 64 * 19)).toNat, slewLeft := 0 } }).count
          .CORE_TIME_STEP_CNT).timeUnlock
      else
        let d := { d with time := { d.time with slewLeft := 19 * theta } }
        if 10 * nsUnit < mag then d.timeUnlock
        else if mag ≤ nsUnit then
          let n := d.time.streak + 1
          { d with time := { d.time with streak := n, locked := d.time.locked || 8 ≤ n } }
        else { d with time := { d.time with streak := 0 } }
    else d

/-- ANNOUNCE_RX: what the port's neighbour announces (R248); one that knows no master announces none
(log entry 111). -/
def Dev.announceRx (d : Dev) : Dev :=
  match d.takeBt 3 with
  | none => d
  | some ((p, f, _), d) =>
    let h : Heard := { prio := plByte f.payload 39, master := plLe f.payload 36 2, hops := plByte f.payload 38 }
    let some_ := !(h.prio = 0xFF && h.master = 0xFFFF && h.hops = 0xFF)
    ({ d with time := { d.time with
        heard := tblPut none p (if some_ then some h else none) d.time.heard } }).timeElect

/-! Barriers (R251-R253) -/

/-- The child ports of barrier b. -/
def Dev.barChildren (d : Dev) (b : Nat) : List Nat :=
  (List.range 256).filter fun p => bitAt (d.fd F.CORE_BAR_CHILD_PORTS b (p / 64)) (p % 64)

/-- Every child of barrier b, 256 standing for the local child. -/
def Dev.barMembers (d : Dev) (b : Nat) : List Nat :=
  d.barChildren b ++ (if d.bit F.CORE_BAR_LOCAL b then [256] else [])

/-- A fault event of kind 0: a fence changed (17: R615). -/
def Dev.fenceEvent (d : Dev) (p source : Nat) : Dev :=
  (d.fltSet F.FLT_STATUS_FENCE_CHG).post
    { cls := 0xB, reason := 0, part := none
      body := leBytes 1 0 ++ leBytes 1 (d.fd F.FLT_FENCE_LEVEL p) ++ leBytes 2 p ++ leBytes 1 source ++
        leBytes 1 (d.fd F.FLT_FENCE_BAR p) ++ leBytes 2 (d.fd F.FLT_FENCE_EPOCH p) }

/-- Does a fence of port p other than ADMIT fail barrier b (R590): it names the port as a child or as PARENT and is not
IDLE? -/
def Dev.barNames (d : Dev) (b p : Nat) : Bool :=
  d.bit F.CORE_BAR_VALID b && !((d.bar b).failed) && (d.bar b).state != .idle &&
    ((d.barChildren b).contains p || (!d.bit F.CORE_BAR_ROOT b && d.fd F.CORE_BAR_PARENT b == p))

/-- A barrier is FAILED (R252): the state stays shown; runs that wait for a release of it halt (R293); the event is posted. -/
def Dev.barMark (d : Dev) (b reason : Nat) : Dev :=
  let x := d.bar b
  let d := (d.updBar b fun x => { x with failed := true, reason := reason }).barHalt b
  d.post { cls := 3, reason := reason, part := some (d.fd F.CORE_BAR_PART b),
           body := leBytes 1 b ++ leBytes 1 0 ++ leBytes 2 x.epoch }

/-- The ADMIT fence of port p becomes TRAFFIC (R593), a level that passes less: its queues are flushed (R590). -/
def Dev.admitLost (d : Dev) (p : Nat) : Dev :=
  (((d.fdSet F.FLT_FENCE_LEVEL p 0 1).journalFence p).fenceEvent p 3).flush p

/-- Barriers fail one after the other: an ADMIT fence that names one becomes TRAFFIC, which fails those that name its port
(R590, R593). There are 256. -/
def Dev.barFails : Nat → List (Nat × Nat) → Dev → Dev
  | 0, _, d => d
  | _, [], d => d
  | n + 1, (b, reason) :: rest, d =>
    let d := d.barMark b reason
    let ps := (List.range 256).filter fun p => d.fd F.FLT_FENCE_LEVEL p == 2 && d.fd F.FLT_FENCE_BAR p == b
    let d := d.forEach ps Dev.admitLost
    let more := if ps.isEmpty then [] else
      (List.range 256).filter fun c => !(rest.any fun e => e.1 = c) && ps.any fun p => d.barNames c p
    Dev.barFails n (rest ++ more.map fun c => (c, 0xF9)) d

/-- Entry into FAILED (R252), with what follows from it. -/
def Dev.barFail (d : Dev) (b reason : Nat) : Dev := Dev.barFails 256 [(b, reason)] d

/-- Every child has arrived: ARRIVE goes up, or at the root RELEASE goes down. -/
def Dev.barGathered (d : Dev) (b : Nat) : Dev :=
  let x := d.bar b
  if (d.barMembers b).all fun c => x.arrived.contains c then
    let part := d.fd F.CORE_BAR_PART b
    if d.bit F.CORE_BAR_ROOT b then
      let tr := (d.fabricTime + max 1 (d.fd F.CORE_BAR_CFG_LEAD) * 100 * nsUnit) % 2 ^ 64
      (d.updBar b fun x => { x with state := .releasing, tr := tr, early := [] }).forEach (d.barChildren b)
        fun d p => d.sendS1 p (timeFlit d.selfId part (barPayload 0x11 b x.epoch tr))
    else (d.updBar b fun x => { x with state := .wait }).sendS1 (d.fd F.CORE_BAR_PARENT b)
        (timeFlit d.selfId part (barPayload 0x10 b x.epoch 0))
  else d

/-- A child arrives with an epoch (R252). -/
def Dev.barArrive (d : Dev) (b child seq : Nat) : Dev :=
  let x := d.bar b
  if x.failed then d
  else match x.state with
    | .idle =>
      if seq = x.epoch then
        (d.updBar b fun x => { x with state := .gather, arrived := [child] }).barGathered b
      else d.barFail b 0xCC
    | .gather =>
      if seq = x.epoch && !(x.arrived.contains child) then
        (d.updBar b fun x => { x with arrived := x.arrived ++ [child] }).barGathered b
      else d.barFail b 0xCC
    | .wait => d.barFail b 0xCC
    | .releasing =>
      if seq = (x.epoch + 1) % 65536 && !(x.early.contains child) then
        d.updBar b fun x => { x with early := x.early ++ [child] }
      else d.barFail b 0xCC

/-- The local child's arrival: for the epoch in hand, or in RELEASING for the next (R252). -/
def Dev.barLocal (d : Dev) (b : Nat) : Dev :=
  if d.bit F.CORE_BAR_VALID b && d.bit F.CORE_BAR_LOCAL b then
    let x := d.bar b
    d.barArrive b 256 (if x.state == .releasing then (x.epoch + 1) % 65536 else x.epoch)
  else d.count .CORE_BAR_PROTO_CNT

/-- BARRIER_ARRIVE_RX: the first ARRIVE the unit has received. -/
def Dev.barArriveRx (d : Dev) : Dev :=
  match d.takeBt 0x10 with
  | none => d
  | some ((p, f, _), d) =>
    let b := plByte f.payload 1
    if d.bit F.CORE_BAR_VALID b && d.fd F.CORE_BAR_PART b == f.part.toNat && (d.barChildren b).contains p then
      d.barArrive b p (plLe f.payload 2 2)
    else d.count .CORE_BAR_PROTO_CNT

/-- ADMIT fences that name barrier b and the epoch it releases are lifted (R598). -/
def Dev.barAdmits (d : Dev) (b epoch : Nat) : Dev :=
  d.forEach ((List.range 256).filter fun p =>
      d.fd F.FLT_FENCE_LEVEL p == 2 && d.fd F.FLT_FENCE_BAR p == b && d.fd F.FLT_FENCE_EPOCH p == epoch) fun d p =>
    ((d.fdSet F.FLT_FENCE_LEVEL p 0 0).journalFence p).fenceEvent p 2

/-- The release itself: ADMIT fences that wait for it lift, the epoch advances, and recorded arrivals are taken
from IDLE (R252, R598). -/
def Dev.barRelease (d : Dev) (b : Nat) : Dev :=
  let early := (d.bar b).early
  let d := d.barAdmits b (d.bar b).epoch
  let d := d.updBar b fun x => { x with
    state := .idle, epoch := (x.epoch + 1) % 65536, arrived := [], early := [], last := some (d.cycle, x.epoch) }
  d.forEach early fun d c => d.barArrive b c (d.bar b).epoch

/-- Has fabric time reached Tr (R253)? -/
def Dev.reached (d : Dev) (tr : Nat) : Bool := tr * 19 / 655360 ≤ d.fabricCycle

/-- BARRIER_RELEASE_RX: the first RELEASE the unit has received; one that comes after Tr is late and
releases at once. The second component tells that it did, for which barrier. -/
def Dev.barReleaseRx (d : Dev) : Dev × Option Nat :=
  match d.takeBt 0x11 with
  | none => (d, none)
  | some ((p, f, _), d) =>
    let b := plByte f.payload 1
    if d.bit F.CORE_BAR_VALID b && !(d.bit F.CORE_BAR_ROOT b) && d.fd F.CORE_BAR_PART b == f.part.toNat &&
        d.fd F.CORE_BAR_PARENT b == p then
      let x := d.bar b
      let seq := plLe f.payload 2 2
      if x.failed then (d, none)
      else if seq ≠ x.epoch then (d.barFail b 0xCC, none)
      else if x.state == .wait then
        let tr := plLe f.payload 8 8
        let late := d.reached tr && decide (tr * 19 / 655360 < d.fabricCycle)
        let d := (d.updBar b fun x => { x with state := .releasing, tr := tr, early := [] }).forEach
          (d.barChildren b) fun d p =>
            d.sendS1 p (timeFlit d.selfId f.part.toNat (barPayload 0x11 b x.epoch tr))
        if late then (d.count .CORE_BAR_LATE_CNT, some b) else (d, none)
      else (d, none)
    else (d.count .CORE_BAR_PROTO_CNT, none)

/-- BARRIER_TIMEOUT: GATHER or WAIT ends in FAILED; a TMO of 0 has no timer (R252, R265). -/
def Dev.barTimeout (d : Dev) (b : Nat) : Dev :=
  let x := d.bar b
  if !x.failed && (x.state == .gather || x.state == .wait) && d.fd F.CORE_BAR_CFG_TMO ≠ 0 then
    d.barFail b 0xCB
  else d

end Sys2Proof.Machine
end

