-- ==== Sys2Proof/Machine/PortOps.lean ====
section
/-! DEFINITION. Port states and lane maps (02: R49-R57, R62-R80): what the port and link commands share. -/

namespace Sys2Proof.Machine

/-- The code of a width (R79): 0, 1, 2, 4 as 0b00, 0b01, 0b10, 0b11. -/
def widthCode (w : Nat) : Nat := if w = 4 then 3 else w

/-- The width a code stands for. -/
def widthOf (c : Nat) : Nat := if c = 3 then 4 else c

/-- The wavelengths of a direction that may carry lanes: those not failed, the spare only when it may be
used (R49, R122). -/
def goodWaves (fail : BitVec 5) (spare : Bool) : List Nat :=
  (List.range 5).filter fun i => !(fail.getLsbD i) && (i < 4 || spare)

/-- The width a direction gives (R63). -/
def dirWidth (fail : BitVec 5) (spare : Bool) : Nat :=
  let n := (goodWaves fail spare).length
  if 4 ≤ n then 4 else if 2 ≤ n then 2 else n

/-- The wavelength of lane l at width w (R49). -/
def laneWave (fail : BitVec 5) (spare : Bool) (w l : Nat) : Nat :=
  if w ≤ l then 7
  else if w = 4 then (if fail.getLsbD l then 4 else l)
  else (goodWaves fail spare).getD l 7

/-- The lane map of a direction (R49, R80): 7 for an unused lane. -/
def laneMap (fail : BitVec 5) (spare : Bool) (w : Nat) : BitVec 12 :=
  BitVec.ofNat 12 (laneWave fail spare w 0 ||| laneWave fail spare w 1 <<< 3 |||
    laneWave fail spare w 2 <<< 6 ||| laneWave fail spare w 3 <<< 9)

/-- The wavelength a map gives lane l. -/
def mapWave (m : BitVec 12) (l : Nat) : Nat := bitsOf m.toNat (3 * l + 2) (3 * l)

/-- The lane a wavelength carries in a map, if any. -/
def mapLane (m : BitVec 12) (wave : Nat) : Option Nat := (List.range 4).find? fun l => mapWave m l = wave

/-- A map with lane l moved to a wavelength. -/
def mapPut (m : BitVec 12) (l wave : Nat) : BitVec 12 :=
  BitVec.ofNat 12 (bitsPut m.toNat (3 * l + 2) (3 * l) wave)

/-- PORT_OSTAT (R79). -/
def Dev.ostat (d : Dev) (p : Nat) : Nat :=
  let x := d.port p
  let on := x.state == .up || x.state == .degraded || x.state == .restripe
  x.reason <<< 24 ||| portCode x.state <<< 20 ||| (if on then widthCode x.width else 0) <<< 18 |||
    b2n (on && (mapLane x.txMap 4).isSome) <<< 17 ||| b2n (on && (mapLane x.rxMap 4).isSome) <<< 16 |||
    x.txFail.toNat <<< 11 ||| x.rxFail.toNat <<< 6 ||| b2n x.los <<< 5 ||| b2n (d.fibre (p / 4)).cut <<< 4

/-- A port event with a PORT_OSTAT value (R64). -/
def Dev.portEventOf (d : Dev) (p reason ostat : Nat) : Dev :=
  d.post { cls := 1, reason := reason, part := none
           body := leBytes 2 p ++ leBytes 2 0 ++ leBytes 4 ostat }

/-- A port event (R64, R107, R119). -/
def Dev.portEvent (d : Dev) (p reason : Nat) : Dev := d.portEventOf p reason (d.ostat p)

/-- The outcome of a training is posted as a port event (R64); one of a bring-up is held until the posting of R542. -/
def Dev.portOutcome (d : Dev) (p reason : Nat) : Dev :=
  if d.sys.boot.running then d.updBoot fun b => { b with held := tblPut none p (some (reason, d.ostat p)) b.held }
  else d.portEvent p reason

/-- Does the state carry a working link (R124)? -/
def portLinked : PortState → Bool
  | .up | .degraded | .restripe => true
  | _ => false

/-- Does a port train in the state (R538)? -/
def training : PortState → Bool
  | .training | .measuring => true
  | _ => false

/-- The training of a port is over (R538). -/
def Dev.trainingOver (d : Dev) (p : Nat) : Dev :=
  if (d.sys.boot.linkWait.getD []).contains p then
    d.updBoot fun b => { b with linkWait := b.linkWait.map fun l => l.erase p }
  else d

/-- A port enters a state (R74); REASON holds the last entry into DARK, DOWN, LASER_CUT or PEER_CUT and is 0
after entry into UP (R79). Leaving UP and DEGRADED voids what was learned over the port; leaving UP,
DEGRADED and RESTRIPE takes its link DOWN and drops steers and restripe. -/
def Dev.setPort (d : Dev) (p : Nat) (st : PortState) (reason : Nat) : Dev :=
  let old := (d.port p).state
  let d := d.updPort p fun x => { x with
    state := st
    reason := match st with
      | .up => 0
      | .dark | .down | .laserCut | .peerCut => reason
      | _ => x.reason }
  let d := if training old && !(training st) then d.trainingOver p else d
  let d := if portUp old && !(portUp st) then d.timePortLost p else d
  if portLinked old && !(portLinked st) then
    (d.updPort p fun x => { x with
      width := 0, txMap := 0xFFF, rxMap := 0xFFF, txSteer := none, rxSteer := none, pendFail := []
      steerReq := none, restripe := none, retrainAfter := false, restriped := false }).updLink p fun l => { l with
        lstate := .down, cutNotice := false, dozeReq := false, dozeTries := 0
        dozeAck := 0, aligned := false, cursor := none, early := none, waking := false, nakWait := none
        annCount := 0 }
  else d

/-- A port goes DOWN (R74): from training it counts as a failed training (R81). -/
def Dev.portToDown (d : Dev) (p reason : Nat) : Dev :=
  let st := (d.port p).state
  let d := if st == .training || st == .measuring then d.count .PORT_TRAIN_FAIL_CNT p else d
  (d.setPort p .down reason).updPort p fun x => { x with step := 0 }

/-! A training starts -/

/-- PORT_MODE taken for a full training (R76, R77). -/
def Dev.latchMode (d : Dev) (p : Nat) : Dev :=
  let maxW := match d.fd F.PORT_MODE_MAX_WIDTH p with
    | 0 => 4
    | c => widthOf c
  let minW := match d.fd F.PORT_MODE_MIN_WIDTH p with
    | 0 => 1
    | c => widthOf c
  d.updPort p fun x => { x with
    maxW := maxW, minW := min minW maxW, spareEn := d.bit F.PORT_MODE_SPARE_EN p }

/-- The link starts afresh: the replay list is discarded and counted, sequence and credits restart
(R100, R110, R123), and what the peer held leaves BACKED (R657). -/
def Dev.linkFresh (d : Dev) (p : Nat) : Dev :=
  let l := d.link p
  let d := (d.replayCells p).foldl (fun d id => d.copyDone id) d
  let d := d.countN .PORT_REPLAY_LOST_CNT p 0 l.replayList.length
  let d := d.updCore fun c => { c with backed := c.backed - (l.outst.sum + l.due.sum) }
  d.updLink p fun l => { LinkSt.reset with rx := l.rx, txSel := l.txSel, lstate := l.lstate, mcountTx := l.mcountTx }

/-- A full training starts (R62). keep: it follows a RETRAIN, a failed restripe or a failed relock, so that
state may be resumed (R123); one that will not resume releases the link's state now (R657). A port that was UP or
DEGRADED tells its peer on its last map (R115; log entry 124). -/
def Dev.toTraining (d : Dev) (p : Nat) (keep : Bool) : Dev :=
  let x := d.port p
  let resume := keep && (d.link p).keep
  let tell := if keep && portUp x.state && (d.link p).lstate != .doze then some (x.width, x.txMap) else none
  let d := ((d.setPort p .training 0).latchMode p).updPort p fun x => { x with
    step := 1, modOn := true, wake := false, peerCap := none, peerMap := none
    peerErr := [none, none, none, none, none], wantResume := resume, turn := 0, retrainOp := tell }
  let d := if resume then d else d.linkFresh p
  d.updLink p fun l => { l with
    aligned := false, laneMark := [none, none, none, none], laneGood := [0, 0, 0, 0], laneMiss := [0, 0, 0, 0] }

/-- A RETRAIN acts in every state but ABSENT, DISABLED, DARK, PEER_CUT and LASER_CUT (R74); during a restripe
it waits for the restripe (R75). -/
def Dev.retrain (d : Dev) (p : Nat) : Dev :=
  match (d.port p).state with
  | .absent | .disabled | .dark | .peerCut | .laserCut => d
  | .restripe => d.updPort p fun x => { x with retrainAfter := true }
  | _ => d.toTraining p true

/-- What acts as on a RETRAIN, with a port event of reason 0xEF (R107, R124). -/
def Dev.retrainEvent (d : Dev) (p : Nat) : Dev := (d.retrain p).portEvent p 0xEF

/-! Failed wavelengths (R50-R56, R75, R118) -/

/-- The link-control words of a steer request and of RESTRIPE, each in the two slots that R116 asks for. -/
def askSteer (lane wave : Nat) : List (BitVec 16) := List.replicate 2 (BitVec.ofNat 16 (0x2000 ||| lane <<< 10 ||| wave <<< 7))
def askRestripe : List (BitVec 16) := List.replicate 2 0x5000

/-- The width and MIN_WIDTH test of a restripe (R56): the port enters RESTRIPE with a proposed width, or goes
DOWN with 0xEB. announce: what its next slots tell the peer before its markers do (log entry 124). -/
def Dev.enterRestripe (d : Dev) (p : Nat) (announce : List (BitVec 16)) : Dev :=
  let x := d.port p
  let w := min (min (dirWidth x.txFail x.spareEn) (dirWidth x.rxFail x.spareEn)) x.maxW
  if x.minW ≤ w && 0 < w then
    let d := (d.count .PORT_RESTRIPE_CNT p).setPort p .restripe x.reason
    (d.updPort p fun x => { x with
      restripe := some { width := w, hits := [0, 0, 0, 0], rmap := 0xFFF, announce := announce }
      txSteer := none, rxSteer := none, steerReq := none, pendFail := [] }).updLink p fun l => { l with
        lstate := if l.lstate == .active || l.lstate == .replay then .restripe else l.lstate, nakWait := none }
  else d.setPort p .down 0xEB

/-- The spare of a direction is good, may be used and carries no lane (R53). -/
def spareFree (fail : BitVec 5) (map : BitVec 12) (spare : Bool) : Bool :=
  spare && !(fail.getLsbD 4) && (mapLane map 4).isNone

/-- Is a steer still to switch? Its acknowledgement may go on after the switch (R115), which completes it (R81). -/
def steerBusy (o : Option Steer) : Bool := match o with
  | some t => !t.switched
  | none => false

/-- A transmit wavelength has failed: one that carries a lane moves it to the spare, announced 64 slots ahead (R53,
R117), or the port restripes when no good unused spare is left (R56); while a steer is under way it waits (R75). -/
def Dev.failTx (d : Dev) (p i : Nat) : Dev :=
  let x := d.port p
  if x.txFail.getLsbD i then d
  else match mapLane x.txMap i with
  | none => d.updPort p fun x => { x with txFail := x.txFail ||| BitVec.ofNat 5 (1 <<< i) }
  | some l =>
    if steerBusy x.txSteer then d.updPort p fun x => { x with pendFail := x.pendFail ++ [(false, i)] }
    else
      let d := d.updPort p fun x => { x with txFail := x.txFail ||| BitVec.ofNat 5 (1 <<< i) }
      if spareFree x.txFail x.txMap x.spareEn then
        d.updPort p fun x => { x with txSteer := some { lane := l, fromWave := i, toWave := 4, countdown := 64
                                                        acked := false, switched := false, repeats := 0 } }
      else d.enterRestripe p askRestripe

/-- A receive wavelength has failed: the end asks for a steer (R50, R115), or restripes; while a steer is asked for or
under way it waits (R75). -/
def Dev.failRx (d : Dev) (p i : Nat) : Dev :=
  let x := d.port p
  if x.rxFail.getLsbD i then d
  else match mapLane x.rxMap i with
  | none => d.updPort p fun x => { x with rxFail := x.rxFail ||| BitVec.ofNat 5 (1 <<< i) }
  | some l =>
    if steerBusy x.rxSteer || x.steerReq.isSome then
      d.updPort p fun x => { x with pendFail := x.pendFail ++ [(true, i)] }
    else
      let d := d.updPort p fun x => { x with rxFail := x.rxFail ||| BitVec.ofNat 5 (1 <<< i) }
      if spareFree x.rxFail x.rxMap x.spareEn then d.updPort p fun x => { x with steerReq := some (l, i) }
      else d.enterRestripe p (askSteer l i ++ askRestripe)

/-! Laser fibres -/

/-- The four ports of a laser fibre (R42). -/
def siblings (m : Nat) : List Nat := [4 * m, 4 * m + 1, 4 * m + 2, 4 * m + 3]

/-- A laser fibre is cut for a port (R66): one CMIS write, unless the fibre is cut or being cut; counted; the
siblings with a working link begin the cut notice (R67, R69). A cut takes the place of a restoration or a probe window
under way (R65). -/
def Dev.cutFibre (d : Dev) (m : Nat) : Dev :=
  let x := d.fibre m
  let d := d.updFibre m fun x => { x with want := false }
  if x.cutting || (x.cut && !x.restoring && !x.probing) then d
  else
    let d := (d.updFibre m fun x => { x with cutting := true, restoring := false, probing := false })
    let d := (d.count .OPT_CUT_CNT m).emit (.cmis (m / 4) (m % 4) false)
    d.forEach (siblings m) fun d p =>
      if portLinked (d.port p).state then d.updLink p fun l => { l with cutNotice := true } else d

/-- The device restores a laser fibre by a CMIS write (R70-R72), after a cut that is under way; a module that is not
supported gets no such write (R45). -/
def Dev.restoreFibre (d : Dev) (m : Nat) : Dev :=
  if !(d.bit F.OPT_ELS_STAT_SUPPORTED (m / 4)) then d
  else if (d.fibre m).cutting then d.updFibre m fun x => { x with want := true }
  else if (d.fibre m).restoring then d
  else (d.updFibre m fun x => { x with restoring := true }).emit (.cmis (m / 4) (m % 4) true)

end Sys2Proof.Machine
end

