-- ==== Sys2Proof/Machine/Wire.lean ====
section
/-! DEFINITION. What a port puts on its five wavelengths and reads from them (03: R83-R92, R115-R120): slots,
markers, spare idle blocks, training words, the wake pattern. -/

namespace Sys2Proof.Machine

/-! Sending -/

/-- The link-control word of STEER_ANN (R115). -/
def annWord (lane wave count : Nat) : BitVec 16 := BitVec.ofNat 16 (0x3000 ||| lane <<< 10 ||| wave <<< 7 ||| count)

/-- What spare idle blocks carry now: the announcement under way, or NOP (R91, R115). -/
def PortSt.spareOp (x : PortSt) : BitVec 16 := match x.txSteer with
  | some t => if 0 < t.countdown then annWord t.lane t.toWave t.countdown else 0
  | none => 0

/-- One slot on the wavelengths of a direction with width w and a map: the symbols of each lane, scrambled; spare idle
blocks on every other wavelength; and the scramblers after it (R83-R87, R91). -/
def slotSignal (w : Nat) (map : BitVec 12) (scr : List Nat) (lc op : BitVec 16) (f : Flit) : Signal × List Nat :=
  let a := rsEncode (symbolsOf (messageA lc f))
  let b := rsEncode (symbolsOf (messageB f))
  let lanes := (List.range w).map fun l => scramble (at_ 0 scr l) (laneSyms w l a b)
  let idle := (List.replicate (4 / w) (fiveCopies (spareWord op))).flatten
  ((List.range 5).map fun i => match mapLane map i with
      | some l => match lanes[l]? with
        | some x => (x.1.map symPams).flatten
        | none => idle
      | none => idle,
    (List.range 4).map fun l => match lanes[l]? with
      | some x => x.2
      | none => at_ 0 scr l)

/-- One marker block on each wavelength that a predicate picks (R88, R89, R91): lane 7 where the map gives none. -/
def markerSignal (w : Nat) (map : BitVec 12) (mcount : Nat) (rstr : Bool) (on : Nat → Bool) : Signal :=
  (List.range 5).map fun i =>
    if on i then fiveCopies (markerWord { mcount := BitVec.ofNat 16 mcount, lane := BitVec.ofNat 3 ((mapLane map i).getD 7)
                                          width := BitVec.ofNat 2 (widthCode w), wave := BitVec.ofNat 3 i, rstr := rstr })
    else []

/-- A marker block goes out; it resets the scramblers and restarts the count of data blocks (R87, R88). -/
def Dev.sendMarker (d : Dev) (p w : Nat) (map : BitVec 12) (rstr : Bool) (on : Nat → Bool) : Dev :=
  (d.emit (.markers p (markerSignal w map (d.link p).mcountTx rstr on))).updLink p fun l => { l with
    mcountTx := (l.mcountTx + 1) % 65536, scrTx := (List.range 4).map scrSeed, blkTx := 0 }

/-- n ordinary markers, back to back. -/
def Dev.sendMarkers (d : Dev) (p n : Nat) : Dev :=
  (List.range n).foldl (fun d _ => d.sendMarker p (d.port p).width (d.port p).txMap false fun _ => true) d

/-- A slot goes out at width w on a map, after the marker that is due when 6,472 data blocks have gone (R88). -/
def Dev.sendOn (d : Dev) (p w : Nat) (map : BitVec 12) (lc : BitVec 16) (f : Flit) : Dev :=
  let d := if 6472 ≤ (d.link p).blkTx then d.sendMarker p w map false fun _ => true else d
  let s := slotSignal w map (d.link p).scrTx lc (d.port p).spareOp f
  (d.emit (.flitTx p lc f s.1)).updLink p fun l => { l with scrTx := s.2, blkTx := l.blkTx + 4 / w }

/-- A slot goes out on the port's map. -/
def Dev.sendSlot (d : Dev) (p : Nat) (lc : BitVec 16) (f : Flit) : Dev :=
  d.sendOn p (d.port p).width (d.port p).txMap lc f

/-- A training word goes out on all five wavelengths (R120). -/
def Dev.sendTrain (d : Dev) (p ttype body wave : Nat) : Dev :=
  let t : TrainWord := { ttype := BitVec.ofNat 4 ttype, body := BitVec.ofNat 32 body, wave := BitVec.ofNat 3 wave }
  d.emit (.trainWord p t (fiveCopies (trainWord t)))

/-- The wake pattern starts on all five wavelengths (R92). -/
def Dev.sendWake (d : Dev) (p : Nat) : Dev := d.emit (.wakePattern p (List.replicate 5 wakePeriod))

/-- The hop fields written and HCRC recomputed (R93, R99). -/
def withHop (f : Flit) (lseq lack cred cvl : Nat) (stomped : Bool) : Flit :=
  sealFlit { f with
    lseq := BitVec.ofNat 12 lseq, lack := BitVec.ofNat 12 lack, cred := BitVec.ofNat 8 cred
    cvl := BitVec.ofNat 3 cvl } stomped

/-- LACK now (R93, R100). -/
def LinkSt.lack (l : LinkSt) : Nat := subMod 4096 l.rxExpect 1

/-- A new idle flit goes out with credits of a VL; it is kept for replay (R100, R108). -/
def Dev.sendIdle (d : Dev) (p : Nat) (lc : BitVec 16) (cvl cred : Nat) : Dev :=
  let l := d.link p
  let f := withHop Flit.idle l.txNext l.lack cred cvl false
  (d.updLink p fun l => { l with
    txNext := (l.txNext + 1) % 4096
    replayList := l.replayList ++ [{ flit := f, stomped := false, cell := none }] }).sendSlot p lc f

/-! Receiving -/

/-- The symbols of each lane of a received slot, descrambled, with the scrambler after them (R85-R87). -/
def rxLanes (w : Nat) (map : BitVec 12) (scr : List Nat) (sig : Signal) : List (List Nat × Nat) :=
  (List.range w).map fun l => scramble (at_ 0 scr l) (pamSyms (at_ [] sig (mapWave map l)))

/-- Does each lane of a signal hold as many symbols as n gives it? -/
def laneLengths (w : Nat) (map : BitVec 12) (sig : Signal) (n : Nat → Nat) : Bool :=
  decide (0 < w) && (List.range w).all fun l => (at_ [] sig (mapWave map l)).length == 5 * n l

/-- Corrected symbols by wavelength: the lanes of some symbol positions (R131). -/
def corrWaves (map : BitVec 12) (lane : Nat → Nat) (pos : List Nat) : List Nat :=
  (List.range 5).map fun i => (pos.filter fun j => mapWave map (lane j) = i).length

/-- A slot in error: nothing of it decodes. -/
def RxSlot.lost : RxSlot := { lc := 0, aOk := false, b := .bad, corr := [0, 0, 0, 0, 0], flit := Flit.idle }

/-- A slot decoded from the symbols of its lanes (R83, R84); partial: only codeword A has come. -/
def slotOf (w : Nat) (map : BitVec 12) (lanes : List (List Nat)) (partially : Bool) : RxSlot :=
  match rsDecode (gatherA w lanes) with
  | none => RxSlot.lost
  | some (a, pa) =>
    let ca := corrWaves map (laneA w) pa
    let lc := lcOf (messageOf a)
    if partially then { lc := lc, aOk := true, b := .later, corr := ca, flit := flitOf (messageOf a) 0 }
    else match rsDecode (gatherB w lanes) with
      | none => { lc := lc, aOk := true, b := .bad, corr := ca, flit := flitOf (messageOf a) 0 }
      | some (b, pb) =>
        { lc := lc, aOk := true, b := .ok, corr := List.zipWith (· + ·) ca (corrWaves map (laneB w) pb)
          flit := flitOf (messageOf a) (messageOf b) }

/-- What the five wavelengths brought, as a slot, and the receive scramblers after it (R86, R87, R90): a signal that
holds just the symbols of codeword A is the first part of a slot; without alignment, or with any other shape, the slot
is in error. -/
def Dev.rxDecode (d : Dev) (p : Nat) (sig : Signal) : RxSlot × List Nat :=
  let x := d.port p
  let l := d.link p
  let lanes := rxLanes x.width x.rxMap l.scrRx sig
  let scr := (List.range 4).map fun i => match lanes[i]? with
    | some y => y.2
    | none => at_ 0 l.scrRx i
  if !l.aligned then (RxSlot.lost, scr)
  else if laneLengths x.width x.rxMap sig fun _ => 260 / x.width then (slotOf x.width x.rxMap (lanes.map (·.1)) false, scr)
  else if laneLengths x.width x.rxMap sig (countA x.width) then (slotOf x.width x.rxMap (lanes.map (·.1)) true, scr)
  else (RxSlot.lost, (List.range 4).map fun i => (scramble (at_ 0 l.scrRx i) (List.replicate (260 / x.width) 0)).2)

/-- The link-control words of the spare idle blocks that came on wavelengths without a lane (R91). -/
def spareOps (map : BitVec 12) (sig : Signal) : List (BitVec 16) :=
  ((List.range 5).filter fun i => (mapLane map i).isNone).map (fun i =>
    (List.range 4).filterMap fun k => acceptSpare (((at_ [] sig i).drop (325 * k)).take 325)) |>.flatten

/-- Codeword B of a slot whose codeword A has been dealt with: its message and the symbols corrected, from the rest of
the lanes' symbols (R86, R112), and the scramblers after it. -/
def Dev.rxDecodeB (d : Dev) (p : Nat) (sig : Signal) : Option (List Nat × List Nat) × List Nat :=
  let x := d.port p
  let l := d.link p
  let w := x.width
  let lanes := rxLanes w x.rxMap l.scrRx sig
  let scr := (List.range 4).map fun i => match lanes[i]? with
    | some y => y.2
    | none => at_ 0 l.scrRx i
  let whole := lanes.zipIdx.map fun e => List.replicate (countA w e.2) 0 ++ e.1.1
  if l.aligned && laneLengths w x.rxMap sig fun i => 260 / w - countA w i then
    ((rsDecode (gatherB w whole)).map fun r => (r.1, corrWaves x.rxMap (laneB w) r.2), scr)
  else (none, (List.range 4).map fun i => (scramble (at_ 0 l.scrRx i) (List.replicate (260 / w - countA w i) 0)).2)

end Sys2Proof.Machine
end

