-- ==== Sys2Proof/Machine/Link.lean ====
section
/-! DEFINITION. The link layer (03: R100-R126): receiving and sending slots, replay, credits, the link-control
channel, steers, restripe, doze. -/

namespace Sys2Proof.Machine

/-! Sending and replay -/

/-- Flits are sent again from index i of the replay list on; without progress when LACK has not advanced since the
previous replay started (R107). -/
def Dev.resendFrom (d : Dev) (p i : Nat) : Dev :=
  d.updLink p fun l => { l with
    cursor := if i < l.replayList.length then some i else none
    lstate := if l.lstate == .active then .replay else l.lstate
    consec := if l.lackMoved then 0 else min 15 (l.consec + 1) + (if 15 < l.consec + 1 then 1 else 0)
    lackMoved := false }

/-- A replay starts, by a NAK or a full window (R104, R105), and is counted (R131). -/
def Dev.startReplay (d : Dev) (p i : Nat) : Dev := (d.resendFrom p i).count .PORT_REPLAY_CNT p

/-- What PORT_PROTO_CAP holds of a flit, but for VALID (R130). -/
def protoCap (sub : Nat) (f : Flit) : Nat :=
  sub <<< 24 ||| f.type.toNat <<< 20 ||| f.vl.toNat <<< 17 ||| b2n f.exp <<< 16 ||| f.lseq.toNat

/-- The first violation is captured (R130). -/
def Dev.protoCapture (d : Dev) (p sub : Nat) (f : Flit) : Dev := d.captureOnce F.PORT_PROTO_CAP_VALID p (protoCap sub f)

/-- LACK: the flits up to it are acknowledged and their cells freed (R100, R108); true when it lies outside the window
and is ignored (R126). -/
def Dev.takeLack (d : Dev) (p : Nat) (f : Flit) : Bool × Dev :=
  let l := d.link p
  let oldest := subMod 4096 l.txNext l.replayList.length
  let n := subMod 4096 (f.lack.toNat + 1) oldest
  if n ≤ l.replayList.length then
    if n = 0 then (false, d)
    else
      let gone := l.replayList.take n
      let d := gone.foldl (fun d (s : SentFlit) => match s.cell with
        | some id => d.copyDone id
        | none => d) d
      (false, d.updLink p fun l => { l with
        replayList := l.replayList.drop n, lackMoved := true, consec := 0, gotAck := true
        cursor := match l.cursor with
          | some c => if c < n then (if n < l.replayList.length then some 0 else none) else some (c - n)
          | none => none })
  else (true, d)

/-- A link in INIT that has accepted a flit and had one acknowledged is ACTIVE (R124); a replay that has
reached the next new LSEQ ends. -/
def Dev.linkSettle (d : Dev) (p : Nat) : Dev :=
  d.updLink p fun l =>
    if l.lstate == .init && l.gotRx && l.gotAck then { l with lstate := .active, keep := true }
    else if l.lstate == .replay && l.cursor.isNone then { l with lstate := .active }
    else l

/-- A slot in error: one NAK goes out, unless one is pending (R101, R102). -/
def Dev.slotError (d : Dev) (p : Nat) : Dev :=
  if (d.link p).nakPending then d
  else (d.updLink p fun l => { l with nakPending := true, nakDue := some l.rxExpect }).count .PORT_NAK_TX_CNT p

/-- The lowest subcode of the rules a flit breaks (R95, R98, R130). -/
def flitViolation (f : Flit) : Option Nat :=
  let t := f.type.toNat
  let v := f.vl.toNat
  let combo := (t == 0 && v == 0 && !f.exp) || (t == 1 && v == 2 && f.exp) || (t == 1 && v == 7 && !f.exp) ||
    (t == 2 && v == 3 && !f.exp) || (t == 3 && v == 4 && !f.exp) || (t == 4 && v == 5 && !f.exp) ||
    (t == 5 && v == 6 && !f.exp) || (t == 6 && v == 0 && !f.exp) || (t == 7 && v == 1 && !f.exp)
  let raw := f.fmt == 0 && f.form == 3
  if 8 ≤ t then some 1
  else if !combo then some 2
  else if 0xB ≤ f.fmt.toNat || ((f.fmt == 0) != (f.form == 3)) || ((t == 0 || t == 6 || t == 7) && !raw) then
    some 3
  else none

/-- An idle flit with a nonzero field or payload byte that must be zero (R95). -/
def idleNonzero (f : Flit) : Bool :=
  f.type == 0 && !(f.part == 0 && f.ctx == 0 && f.dst == 0 && f.src == 0 && f.ofs == 0 && f.mseq == 0 &&
    f.rank == 0 && f.tag == 0 && f.payload == 0)

/-- A violation is counted and captured (R126, R130); lackBad: the flit's LACK was outside the window too, subcode 6. -/
def Dev.violation (d : Dev) (p sub : Nat) (f : Flit) (lackBad : Bool) : Dev :=
  (d.count .PORT_PROTO_ERR_CNT p).protoCapture p (if lackBad then min sub 6 else sub) f

/-- The context a discarded contribution or result faults, 0xEE (R126). -/
def Dev.violationFault (d : Dev) (p : Nat) (f : Flit) : Dev :=
  let c := f.ctx.toNat
  if (f.type == 2 || f.type == 3) && f.dst.toNat == d.selfId && (d.ctx c).state != .free &&
      bitAt (d.fd F.CORE_PORT_PART_MASK p) f.part.toNat && f.part.toNat == d.fd F.CORE_CTX_PART c then
    d.ctxFault c 0xEE
  else d

/-- The credits of an accepted flit (R110, R111): the count stops at 4,095; true when it would have passed
it. -/
def Dev.takeCredit (d : Dev) (p : Nat) (f : Flit) : Bool × Dev :=
  let v := f.cvl.toNat
  let n := at_ 0 (d.link p).avail v + f.cred.toNat
  (decide (4095 < n), d.updLink p fun l => { l with avail := updAt l.avail v fun _ => min 4095 n })

/-- check_and_deliver of R101: a flit that breaks a rule is discarded (R126); one received on a fenced port
that its level does not pass too (R591); an idle flit ends here; any other takes a cell (R183) and
waits for binding. ovr, lackBad: its CRED and its LACK broke a rule. -/
def Dev.checkDeliver (d : Dev) (p : Nat) (f : Flit) (ovr lackBad replayed early : Bool) : Dev :=
  let v := f.vl.toNat
  let idle := f.type == 0
  let noCredit := !idle && at_ 0 (d.link p).outst v == 0
  let sub := (flitViolation f).orElse fun _ =>
    if noCredit then some 4 else if ovr then some 5 else if idleNonzero f then some 7 else none
  let d := if idle || noCredit then d else
    (d.updLink p fun l => { l with outst := updAt l.outst v (· - 1) }).updCore fun c => { c with
      free := c.free - 1
      backed := c.backed - 1 }
  let giveBack := fun (d : Dev) => if idle || noCredit then d
    else (d.updCore fun c => { c with free := c.free + 1 }).returnCredit p v
  match sub with
  | some s => (giveBack (d.violation p s f lackBad)).violationFault p f
  | none =>
    let d := if lackBad then d.protoCapture p 6 f else d
    if idle then d
    else if !(fencePasses (d.fd F.FLT_FENCE_LEVEL p) f) then giveBack (d.count .FLT_FENCE_DROP_CNT p)
    else d.updLink p fun l => { l with
      rx := l.rx ++ [{ flit := f, replayed := replayed, early := early, time := d.fabricTime, age := d.cycle, extra := [] }] }

/-- An accepted flit that came stomped (R113): its content is dropped and its credit returned; without an outstanding
credit, or with a credit return above the limit, it breaks R111, and in the first case no credit goes back (R126; log
entry 129). -/
def Dev.stompedRx (d : Dev) (p : Nat) (f : Flit) (ovr lackBad : Bool) : Dev :=
  let v := f.vl.toNat
  let idle := f.type == 0
  let noCredit := !idle && at_ 0 (d.link p).outst v == 0
  let d := d.count .PORT_STOMP_RX_CNT p
  let d := if noCredit then d.violation p 4 f lackBad
    else if ovr then d.violation p 5 f lackBad
    else if lackBad then d.protoCapture p 6 f else d
  if idle || noCredit then d
  else ((d.updLink p fun l => { l with outst := updAt l.outst v (· - 1) }).updCore fun c => { c with
      backed := c.backed - 1 }).returnCredit p v

/-- The corrected symbols of a slot (R131). -/
def Dev.countCorr (d : Dev) (p : Nat) (corr : List Nat) : Dev :=
  let d := if corr.sum = 0 then d else d.countN .PORT_FEC_CORR_CNT p 0 corr.sum
  (List.range 5).foldl (fun d i => if at_ 0 corr i = 0 then d
    else d.countN .PORT_LANE_SYMERR_CNT p i (at_ 0 corr i)) d

/-- A fault of the link: FLT_STATUS.LINK_ERR and its counter (17: R614, R616). -/
def Dev.linkErr (d : Dev) : Dev := (d.fltSet F.FLT_STATUS_LINK_ERR).count .FLT_LINK_ERR_CNT

/-- The LC value kept for the rule of two consecutive slots (R116); a slot whose codeword A does not decode breaks the
row. -/
def Dev.lcNote (d : Dev) (p : Nat) (lc : Option (BitVec 16)) : Dev :=
  d.updLink p fun l => match lc with
    | none => { l with lcCount := 0 }
    | some v =>
      if l.lcVal == v && 0 < l.lcCount then { l with lcCount := min 2 (l.lcCount + 1) }
      else { l with lcVal := v, lcCount := 1 }

/-- The announcement that a slot brings, in LC or in a spare idle block, kept for the same rule (R116, R117). Its
countdown falls from slot to slot, so only lane and wavelength are compared (log entry 124). -/
def Dev.annNote (d : Dev) (p : Nat) (ops : List (BitVec 16)) : Dev :=
  d.updLink p fun l => match ops.find? fun v => v.toNat / 4096 = 3 with
    | none => { l with annCount := 0 }
    | some v => { l with
      annVal := v
      annCount := if v.toNat / 128 = l.annVal.toNat / 128 && 0 < l.annCount then 2 else 1 }

/-- Has the link accepted an operation with this value (R116)? NAK from one slot, others from two. -/
def LinkSt.accepted (l : LinkSt) (v : Nat) : Bool :=
  l.lcVal.toNat == v && (if v / 4096 = 1 then 1 else 2) ≤ l.lcCount

/-! Steers (R53, R54, R75, R115, R117) -/

/-- A failure that waited for a steer in the same direction (R75). -/
def Dev.pendingFail (d : Dev) (p : Nat) (rx : Bool) : Dev :=
  match takeFirst (fun (e : Bool × Nat) => e.1 == rx) (d.port p).pendFail with
  | some ((_, i), rest) =>
    let d := d.updPort p fun x => { x with pendFail := rest }
    if rx then d.failRx p i else d.failTx p i
  | none => d

/-- A NAK that names a flit held for replay, or the next new one, is acted on (R104). -/
def Dev.nakAct (d : Dev) (p seq : Nat) : Dev :=
  let l := d.link p
  let i := subMod 4096 seq (subMod 4096 l.txNext l.replayList.length)
  if i ≤ l.replayList.length then (d.startReplay p i).linkSettle p else d

/-- Has the countdown of a steer reached its boundary? -/
def steerDue (o : Option Steer) : Bool := match o with
  | some t => t.countdown == 0 && !t.switched
  | none => false

/-- The boundary of a steer is reached: the lane moves; counted (R53, R81). A NAK that came during the countdown is
acted on now (R117), and a failure that waited is taken (R75). -/
def Dev.steerSwitch (d : Dev) (p : Nat) (rx : Bool) : Dev :=
  let x := d.port p
  if rx then match x.rxSteer with
    | some t => if t.countdown = 0 && !t.switched then
        ((d.updPort p fun x => { x with
          rxMap := mapPut x.rxMap t.lane t.toWave, rxSteer := some { t with switched := true, countdown := 64 }
          rxFail := x.rxFail ||| BitVec.ofNat 5 (1 <<< t.fromWave) }).count .PORT_STEER_CNT p).pendingFail p true
      else d
    | none => d
  else match x.txSteer with
    | some t => if t.countdown = 0 && !t.switched then
        let d := (d.updPort p fun x => { x with
          txMap := mapPut x.txMap t.lane t.toWave
          txSteer := if t.acked then none else some { t with switched := true } }).count .PORT_STEER_CNT p
        let d := match (d.link p).nakWait with
          | some e => (d.updLink p fun l => { l with nakWait := none }).nakAct p e
          | none => d
        d.pendingFail p false
      else d
    | none => d

/-- One slot nearer the boundary of the steer of a direction. -/
def Dev.steerTick (d : Dev) (p : Nat) (rx : Bool) : Dev :=
  if rx then d.updPort p fun x => { x with
    rxSteer := x.rxSteer.map fun t => if t.switched then t else { t with countdown := t.countdown - 1 } }
  else d.updPort p fun x => { x with txSteer := x.txSteer.map fun t => { t with countdown := t.countdown - 1 } }

/-! RX_SLOT, EXPRESS_B_DECODE -/

/-- on_slot of R101 for a slot both of whose codewords have been dealt with. early: the flit was delivered
from codeword A already (R112). -/
def Dev.rxBody (d : Dev) (p : Nat) (s : RxSlot) (early : Bool) : Dev :=
  if !(s.aOk && s.b == .ok) then ((d.count .PORT_FEC_UNCORR_CNT p).linkErr).slotError p
  else
    let f := s.flit
    let c := hcrcOf f
    let stomped := f.hcrc == c ^^^ 0xFFFFFFFF#32
    if f.hcrc != c && !stomped then ((d.count .PORT_CRC_ERR_CNT p).linkErr).slotError p
    else
      let (lackBad, d) := d.takeLack p f
      let d := d.linkSettle p
      let l := d.link p
      let seq := f.lseq.toNat
      if seq ≠ l.rxExpect then
        let d := if lackBad then d.protoCapture p 6 f else d
        let d := d.updLink p fun l => { l with
          rxHigh := if behind 4096 l.rxHigh (seq + 1) then (seq + 1) % 4096 else l.rxHigh }
        if behind 4096 seq l.rxExpect then d.count .PORT_DUP_CNT p else d.slotError p
      else
        let replayed := l.nakPending || behind 4096 seq l.rxHigh
        let d := d.updLink p fun l => { l with
          rxExpect := (l.rxExpect + 1) % 4096, nakPending := false, gotRx := true
          rxHigh := if behind 4096 l.rxHigh (seq + 1) then (seq + 1) % 4096 else l.rxHigh }
        let (ovr, d) := d.takeCredit p f
        let d := if stomped then d.stompedRx p f ovr lackBad
          else if early then (if lackBad then d.protoCapture p 6 f else d)
          else d.checkDeliver p f ovr lackBad replayed false
        d.linkSettle p

/-- May the flit of a slot of which only codeword A is decoded go to binding now (R112, R114)? It is express, in
sequence, not behind a NAK, passes the fence, and breaks no rule that the header can show. -/
def Dev.cutThrough (d : Dev) (p : Nat) (f : Flit) : Bool :=
  let l := d.link p
  f.exp && f.lseq.toNat == l.rxExpect && !l.nakPending && l.early.isNone && (flitViolation f).isNone &&
    decide (0 < at_ 0 l.outst 2) && decide (at_ 0 l.avail f.cvl.toNat + f.cred.toNat ≤ 4095) &&
    fencePasses (d.fd F.FLT_FENCE_LEVEL p) f

/-- What a received slot tells but for its flit: link control, announcements, the countdown of a steer (R115-R117). -/
def Dev.slotNote (d : Dev) (p : Nat) (s : RxSlot) (ops : List (BitVec 16)) : Dev :=
  ((d.lcNote p (if s.aOk then some s.lc else none)).annNote p (if s.aOk then s.lc :: ops else ops)).steerTick p true

/-- RX_SLOT (R101): what the five wavelengths brought. When only codeword A has come, its express flit is offered for
cut-through if it may be (R112), and EXPRESS_B_DECODE settles it; any other slot is taken when it is whole. On a link
that carries no flits a slot only moves the descramblers on (R87). -/
def Dev.rxSlot (d : Dev) (p : Nat) (sig : Signal) : Dev :=
  match (d.link p).lstate with
  | .init | .active | .replay =>
    let d1 := if steerDue (d.port p).rxSteer then d.steerSwitch p true else d
    let (s, scr) := d1.rxDecode p sig
    if (d1.link p).early.isSome then d
    else if s.b == .later then
      if d1.cutThrough p s.flit then
        ((d1.countCorr p s.corr).updLink p fun l => { l with early := some s, scrRx := scr }).checkDeliver p s.flit
          false false (behind 4096 s.flit.lseq.toNat (d1.link p).rxHigh) true
      else d
    else
      let ops := spareOps (d1.port p).rxMap sig
      let d2 := (d1.updLink p fun l => { l with scrRx := scr }).updPort p fun x => { x with restriped := x.restriped && !s.aOk }
      ((d2.slotNote p s ops).countCorr p s.corr).rxBody p s false
  | _ => d.updLink p fun l => { l with scrRx := (d.rxDecode p sig).2 }

/-- The early flit of port p found wherever it waits, with codeword B settled: kept, sent stomped from its
reserved boundary, or discarded before it is sent (R112, R156). -/
def Dev.settleEarly (d : Dev) (p : Nat) (good : Bool) (f : Flit) : Dev :=
  let mine := fun (c : QCell) => c.early && srcPort c.src == some p
  let fix := fun (c : QCell) => if mine c then { c with early := false, flit := { f with dst := c.flit.dst } } else c
  let held := (d.core.s2wait.any fun w => mine w.cell) || (d.core.express.any fun y => mine y.cell) ||
    d.links.any fun e => e.2.txSel.any fun s => mine s.cell
  -- before binding: its cells are free again when it is discarded
  let waits := (d.link p).rx.filter fun r => r.early
  let d := d.updLink p fun l => { l with
    rx := (if good then l.rx else l.rx.filter fun r => !r.early).map fun r =>
      if r.early then { r with flit := f, early := false } else r }
  let d := if good then d
    else waits.foldl (fun d r => (d.freeCells r.extra).updCore fun c => { c with free := c.free + 1 }) d
  -- in S2
  let d := if good then d.updCore fun x => { x with s2wait := x.s2wait.map fun w => { w with cell := fix w.cell } }
    else d.dropS2 (fun w => mine w.cell) fun d w => d.dropCopy w.cell.id
  -- on its way to a reserved boundary, or with one: it leaves stomped
  let d := d.updCore fun x => { x with
    express := x.express.map fun y => { y with cell := fix y.cell, bad := y.bad || (mine y.cell && !good) } }
  let mark := fun (s : TxSel) => if mine s.cell then { s with cell := fix s.cell, stomp := !good } else s
  let d := { d with links := tblMap LinkSt.reset (fun _ l => { l with txSel := l.txSel.map mark }) d.links }
  -- the credit of an accepted flit that binding took falls due now, or is returned if binding discarded it (R109, R163)
  if good && waits.isEmpty then (if held then d.dueCredit p 2 16 else d.returnCredit p 2) else d

/-- EXPRESS_B_DECODE: codeword B and HCRC settle the cut-through flit of port p (R112); sig: the rest of its slot on the
lanes, idle: what the wavelengths without a lane carry. What its early delivery took of the credit is given back on a bad or stomped slot, for R101 takes it once. -/
def Dev.expressB (d : Dev) (p : Nat) (sig idle : Signal) : Dev :=
  match (d.link p).early with
  | none => d
  | some s =>
    let (b, scr) := d.rxDecodeB p sig
    let f := match b with
      | some r =>
        let m := messageOf r.1
        { s.flit with
          hcrc := BitVec.ofNat 32 m
          payload := BitVec.ofNat 2048 (s.flit.payload.toNat % 2 ^ 920 + swapBytes 141 (m / 2 ^ 32) * 2 ^ 920) }
      | none => s.flit
    let good := b.isSome && f.hcrc == hcrcOf f
    let d := d.updLink p fun l => { l with early := none, scrRx := scr }
    let d := d.slotNote p s (spareOps (d.port p).rxMap idle)
    let d := match b with
      | some r => d.countCorr p r.2
      | none => d
    let d := d.settleEarly p good f
    let d := if good then d
      else (d.updLink p fun l => { l with outst := updAt l.outst 2 (· + 1) }).updCore fun k => { k with
        backed := k.backed + 1 }
    d.rxBody p { s with b := if b.isSome then .ok else .bad, flit := f } good

/-! TX_SLOT (R100-R110, R115, R187) -/

/-- The link-control word due on port p, and the port with what sending it changes (R115). Of several due
operations NAK goes first, then an announcement; the others follow in the order of R115 (log entry 24). -/
def Dev.lcDue (d : Dev) (p : Nat) : BitVec 16 × Dev :=
  let l := d.link p
  let x := d.port p
  let other : BitVec 16 × Dev :=
    if l.cutNotice then (0x6000, d)
    else if l.dozeReq then (0x8000, d)
    else if 0 < l.dozeAck then (0x9000, d.updLink p fun l => { l with dozeAck := l.dozeAck - 1 })
    else (0, d)
  let acks : BitVec 16 × Dev := match x.rxSteer with
    | some t => (BitVec.ofNat 16 (0x4000 ||| t.lane <<< 10 ||| t.toWave <<< 7),
        if t.switched then d.updPort p fun x => { x with
          rxSteer := if t.countdown ≤ 1 then none else some { t with countdown := t.countdown - 1 } }
        else d)
    | none => other
  let asks : BitVec 16 × Dev := match x.steerReq with
    | some (lane, w) => (BitVec.ofNat 16 (0x2000 ||| lane <<< 10 ||| w <<< 7), d)
    | none => acks
  match l.nakDue with
  | some e => (BitVec.ofNat 16 (0x1000 ||| e), d.updLink p fun l => { l with nakDue := none })
  | none => if x.spareOp = 0 then asks else (x.spareOp, d)

/-- The credits a slot carries: of the INIT allowance as far as SLACK allows, before any due credit of the
port (R187), else of the first VL with credits due. -/
def Dev.creditDue (d : Dev) (p : Nat) : Nat × Nat × Dev :=
  let l := d.link p
  match (List.range 8).find? fun v => 0 < at_ 0 l.initDue v with
  | some v =>
    let n := min 255 (min (at_ 0 l.initDue v) d.slack.toNat)
    (v, n, (d.updLink p fun l => { l with
      initDue := updAt l.initDue v (· - n), outst := updAt l.outst v (· + n) }).updCore fun c => { c with
        backed := c.backed + n })
  | none =>
    match (List.range 8).find? fun v => 0 < at_ 0 l.due v with
    | some v =>
      let n := min 255 (at_ 0 l.due v)
      (v, n, d.updLink p fun l => { l with
        due := updAt l.due v (· - n), outst := updAt l.outst v (· + n) })
    | none => (0, 0, d)

/-- A time flit of this device takes its transmit stamp as it leaves: 6 ns after the serialiser input (R28,
R245); SYNC_REPLY carries TXLAT 6,000 ps. -/
def Dev.stamp (d : Dev) (f : Flit) : Flit :=
  let t := (d.fabricTime + 6 * nsUnit) % 2 ^ 64
  let bs := payloadBytes f.payload
  if f.type == 7 && f.src.toNat == d.selfId && plByte f.payload 0 = 1 then
    { f with payload := payloadOf (bytesPut bs 8 (leBytes 8 t)) }
  else if f.type == 7 && f.src.toNat == d.selfId && plByte f.payload 0 = 2 then
    { f with payload := payloadOf (bytesPut (bytesPut bs 24 (leBytes 8 t)) 32 (leBytes 4 6000)) }
  else f

/-- A flit held for replay goes out again: its original bits but LACK and HCRC (R106). -/
def Dev.resendFlit (d : Dev) (p w : Nat) (map : BitVec 12) (lc : BitVec 16) (s : SentFlit) : Dev :=
  let f := withHop s.flit s.flit.lseq.toNat (d.link p).lack s.flit.cred.toNat s.flit.cvl.toNat s.stomped
  (if s.stomped then d.count .PORT_STOMP_TX_CNT p else d).sendOn p w map lc f

/-- A slot whose flit matters to no one: the oldest unacknowledged flit again, or a new idle flit (R100). -/
def Dev.sendFill (d : Dev) (p w : Nat) (map : BitVec 12) (lc : BitVec 16) : Dev :=
  let l := d.link p
  match l.replayList with
  | s :: _ => d.resendFlit p w map lc s
  | [] =>
    let f := withHop Flit.idle l.txNext l.lack 0 0 false
    (d.updLink p fun l => { l with
      txNext := (l.txNext + 1) % 4096, replayList := [{ flit := f, stomped := false, cell := none }] }).sendOn p w map lc f

/-- A link enters DOZE: 16 markers, then unmodulated light (R125). -/
def Dev.enterDoze (d : Dev) (p : Nat) : Dev :=
  (d.sendMarkers p 16).updLink p fun l => { l with
    lstate := .doze, dozeReq := false, dozeTries := 0, dozeAck := 0, aligned := false, waking := false }

/-- A flit selected for this boundary goes out as a new flit (R100, R108, R110). -/
def Dev.sendNew (d : Dev) (p : Nat) (s : TxSel) (lc : BitVec 16) (cvl cred : Nat) : Dev :=
  let l := d.link p
  let f0 := d.stamp (d.toPeerDst p s.cell)
  let f := withHop f0 l.txNext l.lack cred cvl s.stomp
  let q := if s.queue = 16 then 2 else s.queue
  let d := if s.stomp then d.count .PORT_STOMP_TX_CNT p else d
  let d := (d.copyLeft s.cell.id).mirrorQ 2 p q s.cell
  (d.updLink p fun l => { l with
    txSel := l.txSel.tail, txNext := (l.txNext + 1) % 4096
    avail := updAt l.avail s.cell.flit.vl.toNat (· - 1)
    replayList := l.replayList ++ [{ flit := f, stomped := s.stomp, cell := some s.cell.id }] }).sendSlot p lc f

/-- The slot of a boundary: a replayed flit, the flit selected for it, or an idle flit (R100, R104, R106). A link
with 2,048 flits unacknowledged sends no new flit (R105). A flit whose codeword B is still to come waits for it: HCRC
travels last (R83, R112). -/
def Dev.txFlit (d : Dev) (p : Nat) : Dev :=
  let l := d.link p
  match l.cursor with
  | some i =>
    match l.replayList[i]? with
    | none => (d.updLink p fun l => { l with cursor := none }).linkSettle p
    | some s =>
      let (lc, d) := d.lcDue p
      ((((d.resendFlit p (d.port p).width (d.port p).txMap lc s).steerTick p false).updLink p fun l => { l with
        cursor := if i + 1 < l.replayList.length then some (i + 1) else none })).linkSettle p
  | none =>
    if 2048 ≤ l.replayList.length then d
    else
      let d := d.takeS2 p
      let l := d.link p
      match l.txSel.head?.filter fun s => decide (0 < at_ 0 l.avail s.cell.flit.vl.toNat) with
      | some s =>
        if s.cell.early then d
        else
          let (lc, d) := d.lcDue p
          let (cvl, cred, d) := d.creditDue p
          (d.sendNew p s lc cvl cred).steerTick p false
      | none =>
        let (lc, d) := d.lcDue p
        let (cvl, cred, d) := d.creditDue p
        (d.sendIdle p lc cvl cred).steerTick p false

/-- TX_SLOT of a link that carries flits; a steer whose boundary it is switches first (R117), and after the sixteenth
DOZE_ACK the link dozes (R115, R125). -/
def Dev.txSlot (d : Dev) (p : Nat) : Dev :=
  match (d.link p).lstate with
  | .init | .active | .replay =>
    let d := if steerDue (d.port p).txSteer then d.steerSwitch p false else d
    let left := (d.link p).dozeAck
    let d := d.txFlit p
    if left = 1 && (d.link p).dozeAck = 0 then d.enterDoze p else d
  | _ => d

/-- TX_SLOT of a port in RESTRIPE: the words that announce it, then restripe markers back to back on the good
wavelengths (R115, R118). -/
def Dev.txRestripe (d : Dev) (p : Nat) : Dev :=
  let x := d.port p
  match x.restripe with
  | none => d
  | some r =>
    match r.announce with
    | c :: rest =>
      (d.sendFill p x.width x.txMap c).updPort p fun x => { x with restripe := some { r with announce := rest } }
    | [] => d.sendMarker p r.width (laneMap x.txFail x.spareEn r.width) true fun i =>
        (goodWaves x.txFail x.spareEn).contains i

/-! NAKs and replay limits -/

/-- NAK_RX naming a sequence (R104): held for replay, or the next new one; else captured and ignored: a NAK is no
flit, so the capture holds the sequence it names as LSEQ and 0 for TYPE, VL and EXP (log entry 129). During a steer's
countdown it waits for the boundary (R117). -/
def Dev.nakRx (d : Dev) (p seq : Nat) : Dev :=
  let l := d.link p
  if l.accepted (0x1000 + seq) && (l.lstate == .active || l.lstate == .replay || l.lstate == .init) then
    let d := (d.count .PORT_NAK_RX_CNT p).updLink p fun l => { l with lcCount := 0 }
    if l.replayList.length < subMod 4096 seq (subMod 4096 l.txNext l.replayList.length) then
      d.captureOnce F.PORT_PROTO_CAP_VALID p (6 <<< 24 ||| seq)
    else if steerBusy (d.port p).txSteer then d.updLink p fun l => { l with nakWait := some seq }
    else d.nakAct p seq
  else d

/-- NAK_RESEND_TIMEOUT: a NAK not answered for 2,048 slots goes out again (R102). -/
def Dev.nakResend (d : Dev) (p : Nat) : Dev :=
  let l := d.link p
  if l.nakPending && l.lstate != .down then
    (d.updLink p fun l => { l with nakDue := some l.rxExpect }).count .PORT_NAK_TX_CNT p
  else d

/-- REPLAY_WINDOW_FULL: 2,048 flits unacknowledged; the oldest is resent first (R105). -/
def Dev.windowFull (d : Dev) (p : Nat) : Dev :=
  let l := d.link p
  if 2048 ≤ l.replayList.length && l.cursor.isNone && (l.lstate == .active || l.lstate == .replay || l.lstate == .init) then
    d.startReplay p 0
  else d

/-- REPLAY_NO_PROGRESS_LIMIT: the sixteenth consecutive replay without progress on a working link (R107). -/
def Dev.replayLimit (d : Dev) (p : Nat) : Dev :=
  if 16 ≤ (d.link p).consec && portLinked (d.port p).state then
    (d.updLink p fun l => { l with consec := 0 }).retrainEvent p
  else d

/-- INIT_TIMEOUT: 1 ms in INIT (R124). -/
def Dev.initTimeout (d : Dev) (p : Nat) : Dev :=
  if (d.link p).lstate == .init then d.retrainEvent p else d

/-! Link-control operations (R115-R119, R125) -/

/-- An accepted operation is used up. -/
def Dev.lcUse (d : Dev) (p : Nat) : Dev := d.updLink p fun l => { l with lcCount := 0 }

/-- LC_RESERVED_RX (R115). -/
def Dev.lcReserved (d : Dev) (p : Nat) : Dev :=
  if 0xA ≤ (d.link p).lcVal.toNat / 4096 && 0 < (d.link p).lcCount then
    (d.count .PORT_LC_BAD_CNT p).lcUse p
  else d

/-- STEER_REQ_RX: the peer's receiver has lost a wavelength of our transmit direction (R50). -/
def Dev.steerReqRx (d : Dev) (p lane wave : Nat) : Dev :=
  if (d.link p).accepted (0x2000 ||| lane <<< 10 ||| wave <<< 7) && portUp (d.port p).state then
    let d := d.lcUse p
    if mapWave (d.port p).txMap lane = wave then d.failTx p wave else d
  else d

/-- STEER_ANN_RX: acknowledged until 64 slots after the switch (R115), which stands count slots ahead of the slot that
brought it (R117). A repeated announcement of a move already made is acknowledged again. -/
def Dev.steerAnnRx (d : Dev) (p lane wave count : Nat) : Dev :=
  let l := d.link p
  if 2 ≤ l.annCount && l.annVal == annWord lane wave count && portUp (d.port p).state &&
      !(steerBusy (d.port p).rxSteer) then
    (d.updLink p fun l => { l with annCount := 0 }).updPort p fun x =>
      let made := mapWave x.rxMap lane == wave
      { x with
        steerReq := none
        rxSteer := some { lane := lane, fromWave := mapWave x.rxMap lane, toWave := wave
                          countdown := if made then 64 else count - 1, acked := true, switched := made, repeats := 0 } }
  else d

/-- STEER_ACK_RX: the announced steer is confirmed (R115). -/
def Dev.steerAckRx (d : Dev) (p lane wave : Nat) : Dev :=
  if (d.link p).accepted (0x4000 ||| lane <<< 10 ||| wave <<< 7) then
    (d.lcUse p).updPort p fun x => match x.txSteer with
      | some t => if t.lane = lane && t.toWave = wave then
          { x with txSteer := if t.switched then none else some { t with acked := true } } else x
      | none => x
  else d

/-- STEER_ANN_TIMEOUT: not acknowledged in 20 µs: announced again, up to three times, then a restripe (R54). -/
def Dev.steerAnnTimeout (d : Dev) (p : Nat) : Dev :=
  match (d.port p).txSteer with
  | some t =>
    if t.acked then d
    else if t.repeats < 3 then
      d.updPort p fun x => { x with
        txSteer := some { t with repeats := t.repeats + 1, countdown := 64 } }
    else if portUp (d.port p).state then d.enterRestripe p askRestripe
    else d
  | none => d

/-! Restripe (R118, R119) -/

/-- RESTRIPE_RX and the first restripe marker make the end enter RESTRIPE (R118). -/
def Dev.restripeRx (d : Dev) (p : Nat) : Dev :=
  if (d.link p).accepted 0x5000 && portUp (d.port p).state then (d.lcUse p).enterRestripe p [] else d

/-- A marker of the width proposed on lane l came on a wavelength: one more in its row, or the first of a new one. -/
def Restripe.hit (r : Restripe) (l wave : Nat) : Restripe :=
  let r := match mapLane r.rmap wave with
    | some k => if k = l then r else { r with hits := updAt r.hits k fun _ => 0, rmap := mapPut r.rmap k 7 }
    | none => r
  { r with
    hits := updAt r.hits l fun n => if mapWave r.rmap l = wave then n + 1 else 1
    rmap := mapPut r.rmap l wave }

/-- A block on a wavelength that was no matching marker ends the row of its lane. -/
def Restripe.miss (r : Restripe) (wave : Nat) : Restripe := match mapLane r.rmap wave with
  | some l => { r with hits := updAt r.hits l fun _ => 0 }
  | none => r

/-- RESTRIPE_MARKER_RX: a block on a wavelength, accepted under R90 or not: a marker of a lower width lowers the
proposal, below MIN_WIDTH the port goes DOWN (R56; log entry 127); one of the width proposed counts toward the 16 in a
row of its lane (R118). Markers of the new width right after a restripe are the peer's 16 further ones. -/
def Dev.restripeMarker (d : Dev) (p wave : Nat) (blk : Block) : Dev :=
  match (acceptMarker blk).filter fun m => m.rstr && m.wave.toNat == wave with
  | none => d.updPort p fun x => { x with restripe := x.restripe.map fun r => r.miss wave }
  | some m =>
    let w := widthOf m.width.toNat
    let tail := (d.port p).restriped && w == (d.port p).width
    let d := if portUp (d.port p).state && !tail then d.enterRestripe p [] else d
    match (d.port p).restripe with
    | none => d
    | some r =>
      if 0 < w && w < (d.port p).minW then d.setPort p .down 0xEB
      else
        let r := if 0 < w && w < r.width then { r with width := w, hits := [0, 0, 0, 0], rmap := 0xFFF } else r
        d.updPort p fun x => { x with
          restripe := some { (if w = r.width && m.lane.toNat < w then r.hit m.lane.toNat wave else r.miss wave) with
                             announce := [] } }

/-- RESTRIPE_COMPLETE: 16 matching markers on every lane; 16 further markers go out, the port enters DEGRADED with the
receive map that the markers spell (R50), and flits resume by replay from the oldest unacknowledged one (R118); a
RETRAIN that waited follows (R75). TX_FAIL gains only what this end has learned (log entry 127). -/
def Dev.restripeComplete (d : Dev) (p : Nat) : Dev :=
  let x := d.port p
  match x.restripe with
  | none => d
  | some r =>
    if x.state == .restripe && ((List.range r.width).all fun l => 16 ≤ at_ 0 r.hits l) then
      let map := laneMap x.txFail x.spareEn r.width
      let d := (List.range 16).foldl (fun d _ => d.sendMarker p r.width map true fun i =>
        (goodWaves x.txFail x.spareEn).contains i) d
      let d := d.updPort p fun x => { x with restripe := none, width := r.width, txMap := map, rxMap := r.rmap, restriped := true }
      let after := x.retrainAfter
      let d := (d.setPort p .degraded x.reason).updLink p fun l => { l with
        lstate := if l.lstate == .restripe then .replay else l.lstate
        aligned := true, scrRx := (List.range 4).map scrSeed }
      let d := ((d.resendFrom p 0).linkSettle p).queuesResume p
      if after then (d.updPort p fun x => { x with retrainAfter := false }).toTraining p true else d
    else d

/-- RESTRIPE_TIMEOUT: 200 µs (R119). -/
def Dev.restripeTimeout (d : Dev) (p : Nat) : Dev :=
  if (d.port p).state == .restripe then (d.toTraining p true).portEvent p 0xEF else d

/-- CUT_NOTICE_RX: the cycle of the last notice (R69). -/
def Dev.cutNoticeRx (d : Dev) (p : Nat) : Dev :=
  if (d.link p).accepted 0x6000 then
    (d.lcUse p).updPort p fun x => { x with noticeAt := some d.cycle }
  else d

/-- RETRAIN_RX: the peer asks for a full training (R115). -/
def Dev.retrainRx (d : Dev) (p : Nat) : Dev :=
  if (d.link p).accepted 0x7000 then (d.lcUse p).retrain p else d

/-! Doze (R115, R124, R125) -/

/-- DOZE_REQ_RX: answered with DOZE_ACK in 16 slots; the link enters DOZE after them (R115, R124, R125). -/
def Dev.dozeReqRx (d : Dev) (p : Nat) : Dev :=
  let l := d.link p
  if l.accepted 0x8000 && l.lstate == .active && l.txSel.isEmpty then
    (d.lcUse p).updLink p fun l => { l with dozeAck := if l.dozeAck = 0 then 16 else l.dozeAck }
  else d

/-- DOZE_ACK_RX: completes the exchange the device asked for (R125). -/
def Dev.dozeAckRx (d : Dev) (p : Nat) : Dev :=
  let l := d.link p
  if l.accepted 0x9000 && l.dozeReq && l.lstate == .active then (d.lcUse p).enterDoze p else d

/-- A dozing link begins to relock: its markers go out from now on, and the peer's are looked for (R125). -/
def Dev.relockPort (d : Dev) (p : Nat) : Dev :=
  if (d.link p).lstate == .doze && !(d.link p).waking then
    d.updLink p fun l => { l with
      waking := true, aligned := false, laneMark := [none, none, none, none], laneGood := [0, 0, 0, 0]
      laneMiss := [0, 0, 0, 0] }
  else d

/-- A dozing port wakes (R125, R526): its wake pattern goes out before the markers. -/
def Dev.wakePort (d : Dev) (p : Nat) : Dev :=
  if (d.link p).lstate == .doze && !(d.link p).waking then (d.sendWake p).relockPort p else d

/-- DOZE_RELOCK_TIMEOUT: relock not reached in 5 µs acts as RETRAIN (R124). -/
def Dev.dozeRelock (d : Dev) (p : Nat) : Dev :=
  if (d.link p).lstate == .doze && (d.link p).waking then d.retrain p else d

/-! ALIGNMENT_MARKER_RECEIVE (R90) -/

/-- A marker accepted on a lane, gap blocks after the one before: it resets the descrambler (R87). Two in a row, 6,473
blocks apart with consecutive counts, on every lane align the port (R90); while a dozing link relocks its markers come
back to back (R125; log entry 126). -/
def LinkSt.markerTaken (l : LinkSt) (w lane gap mcount : Nat) : LinkSt :=
  let spaced := gap == 6473 || (l.waking && gap == 1)
  let next := spaced && (at_ none l.laneMark lane) == some ((mcount + 65535) % 65536)
  let good := updAt l.laneGood lane fun g => if next then g + 1 else 1
  let mark := updAt l.laneMark lane fun _ => some mcount
  { l with
    laneMark := mark, laneMiss := updAt l.laneMiss lane (fun _ => 0), laneGood := good
    scrRx := updAt l.scrRx lane fun _ => scrSeed lane
    aligned := l.aligned || ((List.range (max 1 w)).all fun i => 2 ≤ at_ 0 good i && at_ none mark i == some mcount) }

/-- An expected marker that is not accepted on a lane: the fourth in a row loses alignment. -/
def LinkSt.markerMissed (l : LinkSt) (lane : Nat) : LinkSt :=
  let miss := updAt l.laneMiss lane (· + 1)
  if 4 ≤ at_ 0 miss lane then { l with laneMiss := miss, laneGood := [0, 0, 0, 0], aligned := false }
  else { l with laneMiss := miss, laneGood := updAt l.laneGood lane fun _ => 0 }

/-- A relocked link passes INIT with its state kept (R124, R125). -/
def LinkSt.relocked (l : LinkSt) : LinkSt :=
  if l.lstate == .doze && l.waking && l.aligned then { l with lstate := .init, gotRx := false, gotAck := false, waking := false }
  else l

/-- A block at a marker's position on a lane. -/
def Dev.markerRx (d : Dev) (p lane gap : Nat) (blk : Block) : Dev :=
  let w := (d.port p).width
  d.updLink p fun l => match (acceptMarker blk).filter fun m => m.lane.toNat == lane && !m.rstr with
    | none => l.markerMissed lane
    | some m => (l.markerTaken w lane gap m.mcount.toNat).relocked

end Sys2Proof.Machine
end

