-- ==== Sys2Proof/Machine/Num.lean ====
section
/-! DEFINITION. Number formats and arithmetic (09). A finite value is a sign and a magnitude in units of
2^-298, so that every value the device reads, every exact sum and every exact product is a whole number. -/

namespace Sys2Proof.Machine

/-- An exact value. -/
inductive Val where
  | nan
  | inf (neg : Bool)
  | fin (neg : Bool) (mag : Nat)
  deriving DecidableEq, Repr

/-- The flags of R380. -/
def flIV : Nat := 8
def flOF : Nat := 4
def flUF : Nat := 2
def flIX : Nat := 1

/-- A binary format: mantissa bits M; q0, the exponent of its subnormal quantum in units (emin - M + 298); the
bits of its largest finite value; what an overflow and an infinite source give; its canonical NaN (R363, R364). -/
structure FFmt where
  mant : Nat
  q0 : Nat
  signAt : Nat
  maxBits : Nat
  infBits : Option Nat
  nanBits : Nat
  deriving DecidableEq, Repr

def fmtF32 : FFmt := { mant := 23, q0 := 149, signAt := 31, maxBits := 0x7F7FFFFF, infBits := some 0x7F800000, nanBits := 0x7FC00000 }
def fmtBF16 : FFmt := { mant := 7, q0 := 165, signAt := 15, maxBits := 0x7F7F, infBits := some 0x7F80, nanBits := 0x7FC0 }
def fmtF16 : FFmt := { mant := 10, q0 := 274, signAt := 15, maxBits := 0x7BFF, infBits := some 0x7C00, nanBits := 0x7E00 }
def fmtE4M3 : FFmt := { mant := 3, q0 := 289, signAt := 7, maxBits := 0x7E, infBits := none, nanBits := 0x7F }
def fmtE5M2 : FFmt := { mant := 2, q0 := 282, signAt := 7, maxBits := 0x7B, infBits := some 0x7C, nanBits := 0x7E }
/-- MX elements, before their block scale. -/
def fmtE3M2 : FFmt := { mant := 2, q0 := 294, signAt := 5, maxBits := 0x1F, infBits := none, nanBits := 0 }
def fmtE2M3 : FFmt := { mant := 3, q0 := 295, signAt := 5, maxBits := 0x1F, infBits := none, nanBits := 0 }
def fmtE2M1 : FFmt := { mant := 1, q0 := 297, signAt := 3, maxBits := 0x7, infBits := none, nanBits := 0 }

/-- The magnitude of an encoding without its sign (R363). -/
def FFmt.magOf (f : FFmt) (b : Nat) : Nat :=
  let e := b >>> f.mant
  let m := b % 2 ^ f.mant
  if e = 0 then m <<< f.q0 else (2 ^ f.mant + m) <<< (f.q0 + e - 1)

/-- The encoding of a magnitude that the format holds. -/
def FFmt.bitsOfMag (f : FFmt) (mag : Nat) : Nat :=
  if mag < 2 ^ (f.q0 + f.mant) then mag >>> f.q0
  else
    let l := Nat.log2 mag
    (l - (f.q0 + f.mant) + 1) <<< f.mant + ((mag >>> (l - f.mant)) - 2 ^ f.mant)

/-- The value of an encoding (R363, R366). -/
def FFmt.val (f : FFmt) (w : Nat) : Val :=
  let neg := bitAt w f.signAt
  let b := w % 2 ^ f.signAt
  match f.infBits with
  | some i => if b = i then .inf neg else if i < b then .nan else .fin neg (f.magOf b)
  | none => if f.nanBits ≠ 0 && b = f.nanBits then .nan else .fin neg (f.magOf b)

/-- A magnitude rounded to M mantissa bits with the subnormal quantum 2^q0 and no upper limit (R375, R376):
to nearest even, or stochastically with the 32 bits r. -/
def roundMag (mant q0 : Nat) (r : Option Nat) (mag : Nat) : Nat :=
  if mag = 0 then 0
  else
    let q := max q0 (Nat.log2 mag - mant)
    let lo := mag >>> q
    let rem := mag % 2 ^ q
    let up := match r with
      | none => 2 ^ q < 2 * rem || (2 ^ q = 2 * rem && lo % 2 = 1)
      | some r => decide (r < (rem <<< 32) >>> q)
    (if up then lo + 1 else lo) <<< q

/-- The distance between the largest finite magnitude and its lower neighbour. -/
def FFmt.topUlp (f : FFmt) : Nat := 2 ^ (Nat.log2 (f.magOf f.maxBits) - f.mant)

/-- A value rounded to a format, and the flags it raises (R375, R376). -/
def FFmt.round (f : FFmt) (r : Option Nat) (v : Val) : Nat × Nat :=
  match v with
  | .nan => (f.nanBits, 0)
  | .inf neg => match f.infBits with
    | some i => (b2n neg <<< f.signAt ||| i, 0)
    | none => (f.nanBits, flIV)
  | .fin neg mag =>
    let x := roundMag f.mant f.q0 r mag
    let top := f.magOf f.maxBits
    let ovr := match r with
      | none => decide (2 * top + f.topUlp ≤ 2 * mag)
      | some _ => decide (top < x)
    if ovr then
      (b2n neg <<< f.signAt ||| f.infBits.getD f.maxBits, flOF ||| flIX)
    else
      let x := min x top
      (b2n neg <<< f.signAt ||| f.bitsOfMag x,
        (if x = mag then 0 else flIX ||| (if mag < 2 ^ (f.q0 + f.mant) then flUF else 0)))

/-! binary32 -/

def f32Val (w : BitVec 32) : Val := fmtF32.val w.toNat

/-- rne32, with flags. -/
def rne32 (v : Val) : BitVec 32 × Nat :=
  let (b, fl) := fmtF32.round none v
  (BitVec.ofNat 32 b, fl)

/-- A signed magnitude as an integer. -/
def sgn (neg : Bool) (mag : Nat) : Int := if neg then -(mag : Int) else mag

/-- The exact sum of two values (R370 for special ones, whose flags come second). A zero sum is -0 only when
both are. -/
def addVal (a b : Val) : Val × Nat :=
  match a, b with
  | .nan, _ => (.nan, 0)
  | _, .nan => (.nan, 0)
  | .inf s, .inf t => if s = t then (.inf s, 0) else (.nan, flIV)
  | .inf s, .fin _ _ => (.inf s, 0)
  | .fin _ _, .inf t => (.inf t, 0)
  | .fin s m, .fin t n =>
    let x := sgn s m + sgn t n
    (if x = 0 then .fin (s && t) 0 else .fin (decide (x < 0)) x.natAbs, 0)

/-- The binary32 sum of two binary32 words, rounded to nearest even. -/
def fadd (a b : BitVec 32) : BitVec 32 × Nat :=
  let (v, fl) := addVal (f32Val a) (f32Val b)
  let (w, fl2) := rne32 v
  (w, fl ||| fl2)

/-- The negation of a word. -/
def fneg (a : BitVec 32) : BitVec 32 := a ^^^ 0x80000000#32

def fsub (a b : BitVec 32) : BitVec 32 := (fadd a (fneg b)).1

def isNan (w : BitVec 32) : Bool := match f32Val w with
  | .nan => true
  | _ => false
def isInf (w : BitVec 32) : Bool := match f32Val w with
  | .inf _ => true
  | _ => false
def isFin (w : BitVec 32) : Bool := match f32Val w with
  | .fin _ _ => true
  | _ => false
def isZero (w : BitVec 32) : Bool := w &&& 0x7FFFFFFF#32 == 0

/-- The canonical NaN of binary32. -/
def qnan : BitVec 32 := 0x7FC00000

/-! Pairs -/

/-- two_sum of R368. -/
def twoSum (a b : BitVec 32) : Elem :=
  let s := (fadd a b).1
  let bv := fsub s a
  let av := fsub s bv
  let e := (fadd (fsub a av) (fsub b bv)).1
  (s, if isZero e then 0 else e)

/-- special_add of R370, with its flag. -/
def specialAdd (a b : BitVec 32) : BitVec 32 × Nat := fadd a b

/-- pair_add of R369. -/
def pairAdd (x y : Elem) : Elem × Nat :=
  if !(isFin x.1 && isFin y.1) then
    let (w, fl) := specialAdd x.1 y.1
    ((w, 0), fl)
  else
    let (s, e) := twoSum x.1 y.1
    if isInf s then ((s, 0), flOF ||| flIX)
    else
      let (t, f1) := fadd x.2 y.2
      let (e2, f2) := fadd e t
      let fl := (f1 ||| f2) &&& flIX
      if isZero e2 then ((s, 0), fl)
      else
        let (hi, lo) := twoSum s e2
        if isInf hi then ((hi, 0), fl ||| flOF ||| flIX) else ((hi, lo), fl)

/-- A pair read as an operand, normalised (R371). -/
def normPair (x : Elem) : Elem :=
  if isNan x.1 || isNan x.2 then (qnan, 0)
  else if isInf x.1 || isInf x.2 then ((specialAdd x.1 x.2).1, 0)
  else
    let (s, e) := twoSum x.1 x.2
    (s, if isInf s then 0 else e)

/-- The exact value of a pair. -/
def pairVal (x : Elem) : Val :=
  match f32Val x.1, f32Val x.2 with
  | .fin s m, .fin t n =>
    let v := sgn s m + sgn t n
    if v = 0 then .fin s 0 else .fin (decide (v < 0)) v.natAbs
  | v, _ => v

/-- The order of two finite or infinite binary32 words, +0 above -0. -/
def f32Key (w : BitVec 32) : Int :=
  if w.getLsbD 31 then -((w.toNat % 2 ^ 31 : Nat) : Int) - 1 else (w.toNat : Int)

/-- Is pair a greater than pair b (R372)? By hi, then by lo. -/
def pairGt (a b : Elem) : Bool :=
  decide (f32Key b.1 < f32Key a.1) || (f32Key a.1 == f32Key b.1 && decide (f32Key b.2 < f32Key a.2))

/-- combine of R372. -/
def combine (op : Nat) (int : Bool) (a b : Elem) : Elem × Nat :=
  if int then
    match op with
    | 0 =>
      let s := a.1.toInt + b.1.toInt
      ((a.1 + b.1, 0), if s < -2147483648 || 2147483647 < s then flOF else 0)
    | 1 => ((if b.1.toInt ≤ a.1.toInt then a.1 else b.1, 0), 0)
    | 2 => ((if a.1.toInt ≤ b.1.toInt then a.1 else b.1, 0), 0)
    | _ => ((a.1 ||| b.1, 0), 0)
  else
    match op with
    | 1 => (if isNan a.1 || isNan b.1 then (qnan, 0) else if pairGt b a then b else a, 0)
    | 2 => (if isNan a.1 || isNan b.1 then (qnan, 0) else if pairGt a b then b else a, 0)
    | _ => pairAdd a b

/-! Payload layouts (R96, R97) -/

/-- Is the format an MX one? -/
def isMx (fmt : Nat) : Bool := fmt == 6 || fmt == 7 || fmt == 8

/-- The blocks of 32 per flit of an MX format. -/
def bpf (fmt : Nat) : Nat := if fmt = 8 then 15 else 10

/-- The element format of an MX or plain float format. -/
def ffmtOf (fmt : Nat) : FFmt :=
  match fmt with
  | 1 => fmtF32 | 2 => fmtBF16 | 3 => fmtF16 | 4 => fmtE4M3 | 5 => fmtE5M2 | 6 => fmtE3M2 | 7 => fmtE2M3
  | _ => fmtE2M1

/-- The bits of element i of a payload, its width in bits; for MX without its scale. -/
def elemBits (fmt : Nat) (p : Payload) (i : Nat) : Nat :=
  match fmt with
  | 1 | 9 => plLe p (4 * i) 4
  | 2 | 3 => plLe p (2 * i) 2
  | 4 | 5 => plByte p i
  | 6 | 7 => bitsOf (plLe p (10 + 24 * (i / 32)) 24) (6 * (i % 32) + 5) (6 * (i % 32))
  | 8 => bitsOf (plLe p (15 + 16 * (i / 32)) 16) (4 * (i % 32) + 3) (4 * (i % 32))
  | 0xA => plLe p (8 * i) 8
  | _ => 0

/-- An MX element times its block scale (R366). -/
def mxVal (fmt scale bits : Nat) : Val × Nat :=
  if scale = 0xFF then (.nan, 0)
  else match (ffmtOf fmt).val bits with
    | .fin neg mag =>
      let m := if 127 ≤ scale then mag <<< (scale - 127) else mag >>> (127 - scale)
      if (2 ^ 128 - 2 ^ 103) <<< 298 ≤ m then (.inf neg, flOF ||| flIX) else (.fin neg m, 0)
    | v => (v, 0)

/-- An element expanded to (hi, lo), and the flags of its expansion (R366, R371). -/
def expandBits (fmt scale bits : Nat) : Elem × Nat :=
  match fmt with
  | 9 => ((BitVec.ofNat 32 bits, 0), 0)
  | 0xA => (normPair (BitVec.ofNat 32 bits, BitVec.ofNat 32 (bits >>> 32)), 0)
  | 1 => ((if isNan (BitVec.ofNat 32 bits) then qnan else BitVec.ofNat 32 bits, 0), 0)
  | _ =>
    if isMx fmt then
      let (v, fl) := mxVal fmt scale bits
      (((rne32 v).1, 0), fl)
    else (((rne32 ((ffmtOf fmt).val bits)).1, 0), 0)

/-- Element i of a payload expanded. -/
def expandElem (fmt : Nat) (p : Payload) (i : Nat) : Elem × Nat :=
  expandBits fmt (if isMx fmt then plByte p (i / 32) else 0) (elemBits fmt p i)

/-- All elements of a dense payload. -/
def expandFlit (fmt : Nat) (p : Payload) : List (Elem × Nat) := (List.range (epf fmt)).map (expandElem fmt p)

/-! Products (R373) and dot products (R374) -/

def fmul (a b : BitVec 32) : BitVec 32 × Nat :=
  match f32Val a, f32Val b with
  | .nan, _ => (qnan, 0)
  | _, .nan => (qnan, 0)
  | .inf s, .inf t => ((rne32 (.inf (s != t))).1, 0)
  | .inf s, .fin t n => if n = 0 then (qnan, flIV) else ((rne32 (.inf (s != t))).1, 0)
  | .fin s m, .inf t => if m = 0 then (qnan, flIV) else ((rne32 (.inf (s != t))).1, 0)
  | .fin s m, .fin t n => rne32 (.fin (s != t) ((m >>> 149) * (n >>> 149)))

/-- A dot product, and the flags raised at each product position. -/
def dot (ws xs : List (Elem × Nat)) : Elem × List Nat :=
  let step := fun (acc : Option Elem × List Nat) (wx : (Elem × Nat) × (Elem × Nat)) =>
    let (p, fp) := fmul wx.1.1.1 wx.2.1.1
    let fl := wx.1.2 ||| wx.2.2 ||| fp
    match acc.1 with
    | none => (some (p, 0), fl :: acc.2)
    | some a =>
      let (s, fs) := pairAdd a (p, 0)
      (some s, (fl ||| fs) :: acc.2)
  let (r, fl) := (ws.zip xs).foldl step (none, [])
  (r.getD (0, 0), fl.reverse)

/-! Stochastic rounding (R377) and conversion (R375, R379) -/

/-- sr_bits of R377. -/
def srBits (seed ctr : Nat) : Nat :=
  let z0 : BitVec 64 := BitVec.ofNat 64 seed + BitVec.ofNat 64 (ctr + 1) * 0x9E3779B97F4A7C15#64
  let z1 := (z0 ^^^ (z0 >>> 30)) * 0xBF58476D1CE4E5B9#64
  let z2 := (z1 ^^^ (z1 >>> 27)) * 0x94D049BB133111EB#64
  (z2 ^^^ (z2 >>> 31)).toNat >>> 32

/-- One block of 32 values re-quantised (R379): the scale, the elements, and the flags of each. rs gives the
random bits of each element, none for round to nearest even. -/
def mxBlock (fmt : Nat) (vs : List (Val × Option Nat)) : Nat × List (Nat × Nat) :=
  let f := ffmtOf fmt
  let special := vs.any fun v => match v.1 with
    | .fin _ _ => false
    | _ => true
  if special then
    (0xFF, vs.map fun v => (0, match v.1 with
      | .inf _ => flIV
      | _ => 0))
  else
    let amax := (vs.map fun v => match v.1 with
      | .fin _ m => m
      | _ => 0).foldl max 0
    if amax = 0 then
      (0, vs.map fun v => match v.1 with
        | .fin neg _ => (b2n neg <<< f.signAt, 0)
        | _ => (0, 0))
    else
      let emax := if fmt = 6 then 4 else 2
      -- the scale byte X + 127, X = floor(log2 amax) - emax clamped to -127 .. 127
      let sb := min 254 (Nat.log2 amax + 127 - 298 - emax)
      let g : FFmt := { f with q0 := f.q0 + sb - 127 }
      let top := g.magOf g.maxBits
      (sb, vs.map fun v => match v.1 with
        | .fin neg m =>
          if top < m then (b2n neg <<< f.signAt ||| f.maxBits, flIX)
          else
            let x := min top (roundMag g.mant g.q0 v.2 m)
            (b2n neg <<< f.signAt ||| g.bitsOfMag x,
              if x = m then 0 else flIX ||| (if m < 2 ^ (g.q0 + g.mant) then flUF else 0))
        | _ => (0, 0))

/-- Elements gathered in groups of n. -/
def chunks {α : Type} (n : Nat) (l : List α) (k : Nat) : List (List α) :=
  (List.range k).map fun i => (l.drop (n * i)).take n

/-- One flit's worth of elements converted to a format: the payload and the flags of each element. rs gives the
random bits of element j, none for nearest even. INT32 elements are copied, pairs normalised. -/
def convFlit (fmt : Nat) (es : List Elem) (rs : Nat → Option Nat) : Payload × List Nat :=
  let n := epf fmt
  let es := es.take n ++ List.replicate (n - es.length) (0, 0)
  if isMx fmt then
    let vs := es.zipIdx.map fun e => (pairVal e.1, rs e.2)
    let bs := (chunks 32 vs (bpf fmt)).map (mxBlock fmt)
    let w := if fmt = 8 then 4 else 6
    let scales := bs.map fun b => BitVec.ofNat 8 b.1
    let body := (bs.map fun b => leBytes (4 * w)
      (b.2.zipIdx.foldl (fun a e => a ||| e.1.1 <<< (w * e.2)) 0)).flatten
    (payloadOf (scales ++ body), (bs.map fun b => b.2.map (·.2)).flatten)
  else
    let xs := es.zipIdx.map fun e => match fmt with
      | 9 => (leBytes 4 e.1.1.toNat, 0)
      | 0xA => (leBytes 4 (normPair e.1).1.toNat ++ leBytes 4 (normPair e.1).2.toNat,
          if isFin e.1.1 && isFin e.1.2 && isInf (normPair e.1).1 then flOF ||| flIX else 0)
      | _ =>
        let (b, fl) := (ffmtOf fmt).round (rs e.2) (pairVal e.1)
        (leBytes (if fmt = 1 then 4 else if fmt ≤ 3 then 2 else 1) b, fl)
    (payloadOf (xs.map (·.1)).flatten, xs.map (·.2))

end Sys2Proof.Machine
end

