-- ==== Sys2Proof/Machine/Memory.lean ====
section
/-! DEFINITION. HBM: access rights, errors, the memory service and the pools (12: R445-R474; 06: R241-R243;
09: R384). -/

namespace Sys2Proof.Machine

/-! Layout (R445-R447, R461) -/

/-- The stack of a granule (R445). -/
def stackOf (g : Nat) : Nat := 2 * gDie g + (g >>> 4) % 2

/-- Granules in a buffer of pool p, and the pool's largest count. -/
def poolGran (p : Nat) : Nat := ([0x10, 0x100, 0x1000, 0x10000, 0x10] : List Nat).getD p 0x10
def poolMax (p : Nat) : Nat := ([1048576, 65536, 16384, 4096, 16384] : List Nat).getD p 0

/-- The buffers in pool p of die k; values above the largest count are used as that count (R470). -/
def Dev.poolCount (d : Dev) (k p : Nat) : Nat :=
  if p = 4 then 16384 else min (poolMax p) (d.fd F.POOL_CFG_COUNT k p)

/-- The die-relative base of a pool (R447): P3 first, then P2, P1, P0; PX at the start of the firmware region. -/
def Dev.poolBase (d : Dev) (k p : Nat) : Nat :=
  let len := fun q => d.poolCount k q * poolGran q
  match p with
  | 3 => 0x180000
  | 2 => 0x180000 + len 3
  | 1 => 0x180000 + len 3 + len 2
  | 0 => 0x180000 + len 3 + len 2 + len 1
  | _ => 0x80000

/-- The die-relative start and end of the service region (R447). -/
def Dev.serviceStart (d : Dev) (k : Nat) : Nat :=
  ceilDiv (d.poolBase k 0 + d.poolCount k 0 * poolGran 0) 0x10000 * 0x10000
def Dev.serviceEnd (d : Dev) (k : Nat) : Nat := d.captureBase k - dieG * k

/-- The pool that holds a die-relative offset (R465). -/
def Dev.poolHolding (d : Dev) (k o : Nat) : Option Nat :=
  (List.range 5).find? fun p => decide (d.poolBase k p ≤ o) &&
    decide (o < d.poolBase k p + d.poolCount k p * poolGran p)

def Dev.pool (d : Dev) (k p : Nat) : PoolSt := tblGet PoolSt.reset d.hbm.pools (8 * k + p)
def Dev.updPool (d : Dev) (k p : Nat) (f : PoolSt → PoolSt) : Dev :=
  { d with hbm := { d.hbm with pools := tblPut PoolSt.reset (8 * k + p) (f (d.pool k p)) d.hbm.pools } }

/-! Rights (R449, R450) -/

/-- Does a matching grant give partition k the rights on granule g? -/
def Dev.granted (d : Dev) (g k : Nat) (rd wr : Bool) : Bool :=
  let dn := gDie g
  let o := g - dieG * dn
  let m := (List.range 64).filter fun e =>
    let b := d.fd F.MEM_GRANT_BASE dn e * 0x10000
    let n := d.fd F.MEM_GRANT_LEN dn e * 0x10000
    d.bit F.MEM_GRANT_VALID dn e && bitAt (d.fd F.MEM_GRANT_PMASK dn e) k && decide (b ≤ o) &&
      decide (o < b + n) && decide (d.serviceStart dn ≤ b) && decide (b + n ≤ d.serviceEnd dn)
  (!rd || m.any fun e => d.bit F.MEM_GRANT_RD dn e) && (!wr || m.any fun e => d.bit F.MEM_GRANT_WR dn e)

/-- The state record of the pool buffer that holds granule g. -/
def Dev.bufRec (d : Dev) (g : Nat) : Nat :=
  let k := gDie g
  let o := g - dieG * k
  match d.poolHolding k o with
  | some p => tblGet 0 (d.pool k p).recs ((o - d.poolBase k p) / poolGran p)
  | none => 0

/-- May partition k reach granule g with these rights (R449)? -/
def Dev.mayReach (d : Dev) (g k : Nat) (rd wr : Bool) : Bool :=
  decide (g < hbmEnd) && (d.granted g k rd wr || d.bufRec g == 2 * (k + 1) + 1)

/-! Errors (R458-R460) -/

/-- Errors a command's reads find, recorded: corrected units are counted, and each granule named for an uncorrectable one
holds one more, up to its 8 units. -/
def Dev.noteHbm (d : Dev) (e : ReadErr) : Dev :=
  let d := e.hbmCorr.foldl (fun d g => d.count .MEM_CORR_CNT (gDie g) (stackOf g % 2)) d
  { d with hbm := { d.hbm with bad := e.hbmBad.foldl (fun t g => tblPut 0 g (min 8 (tblGet 0 t g + 1)) t) d.hbm.bad } }

/-- Does a read of granule g fail? -/
def Dev.hbmFails (d : Dev) (g : Nat) : Bool := tblGet 0 d.hbm.bad g ≠ 0

/-- A write of a whole granule replaces a failing one (R459). -/
def Dev.hbmWhole (d : Dev) (g : Nat) : Dev :=
  { d with hbm := { d.hbm with bad := tblPut 0 g 0 d.hbm.bad } }

/-- An uncorrectable error found at granule g (R460): its units counted (R458), captured, and its event posted. source is that
of MEM_ERR_CAP; tile the physical tile; part none for a pool link or firmware access. -/
def Dev.memError (d : Dev) (g : Nat) (part : Option Nat) (source tile : Nat) : Dev :=
  let k := gDie g
  let v := (g % m32) <<< 32 ||| part.getD 0 <<< 28 ||| source <<< 25 ||| (stackOf g % 2) <<< 24 ||| tile <<< 16 |||
    1 <<< 15
  let d := (d.countN .MEM_UNCORR_CNT k (stackOf g % 2) (max 1 (tblGet 0 d.hbm.bad g))).captureOnce F.MEM_ERR_CAP_VALID k v
  d.post { cls := 4, reason := 0xD4, part := part, body := leBytes 8 v ++ leBytes 1 k }

/-! The memory service (R241, R452) -/

/-- The fields of a request (R241). -/
def memOp (f : Flit) : Nat := f.tag.toNat >>> 12

/-- The granules an operation spans. -/
def memSpan (op fmt : Nat) : Nat := if op = 3 then max 1 (epf fmt * 8 / 256) else 1

/-- Is the format listed for the operation (R241)? -/
def memFmtOk (op fmt : Nat) : Bool :=
  match op with
  | 2 => fmt == 9 || fmt == 1 || fmt == 0xA
  | 3 => fmt == 1 || fmt == 2 || fmt == 3 || fmt == 4 || fmt == 5
  | _ => fmt == 0

/-- The checks of R452 in order: the reason, 0 when all pass. A request for a die whose link has failed does not get
there (R19). -/
def Dev.memCheck (d : Dev) (k : Nat) (f : Flit) : Nat :=
  let op := memOp f
  let fmt := f.fmt.toNat
  let n := memSpan op fmt
  let g := f.ofs.toNat
  let gs := (List.range n).map fun i => g + i
  let rd := op ≠ 1
  let wr := op = 1 || op = 2 || op = 3
  if d.d2dFailed k then 0xE4
  else if 5 ≤ op then 0xCE
  else if f.form = 1 || f.form = 2 then 0xA0
  else if !(memFmtOk op fmt) || (f.form = 3) ≠ (fmt = 0) then 0xD2
  else if op = 3 && g % n ≠ 0 then 0xD3
  else if gs.any fun x => decide (hbmEnd ≤ x) || gDie x ≠ gDie g then 0xD1
  else if gs.any fun x => !(d.mayReach x f.part.toNat rd wr) then 0xD1
  else if rd && gs.any d.hbmFails then 0xD4
  else 0

/-- The old elements of a granule and the result of ATOMIC_ADD on them (R384): the bytes, and the flags. -/
def atomicAdd (fmt : Nat) (old : List (BitVec 8)) (p : Payload) : List (BitVec 8) × Nat :=
  let o := payloadOf old
  let rs := (List.range (epf fmt)).map fun i =>
    match fmt with
    | 9 =>
      let (x, fl) := combine 0 true (BitVec.ofNat 32 (plLe o (4 * i) 4), 0) (BitVec.ofNat 32 (plLe p (4 * i) 4), 0)
      (leBytes 4 x.1.toNat, fl)
    | 1 =>
      let (x, fl) := fadd (BitVec.ofNat 32 (plLe o (4 * i) 4)) (BitVec.ofNat 32 (plLe p (4 * i) 4))
      (leBytes 4 x.toNat, fl)
    | _ =>
      let (x, fl) := pairAdd (expandElem 0xA o i).1 (expandElem 0xA p i).1
      (leBytes 4 x.1.toNat ++ leBytes 4 x.2.toNat, fl)
  ((rs.map (·.1)).flatten, rs.foldl (fun a r => a ||| r.2) 0)

/-- The pairs of a span after REDUCE (R384), and the flags. -/
def reduceAdd (fmt : Nat) (old : List (BitVec 8)) (p : Payload) : List (BitVec 8) × Nat :=
  let rs := (List.range (epf fmt)).map fun i =>
    let w := leAt old (8 * i) 8
    let (x, fx) := expandElem fmt p i
    let (s, fs) := pairAdd (normPair (BitVec.ofNat 32 w, BitVec.ofNat 32 (w >>> 32))) (x.1, 0)
    (leBytes 4 s.1.toNat ++ leBytes 4 s.2.toNat, fx ||| fs)
  ((rs.map (·.1)).flatten, rs.foldl (fun a r => a ||| r.2) 0)

/-- The response to a request (R242), numbered under R149 and queued at the die. -/
def Dev.memRespond (d : Dev) (k : Nat) (f : Flit) (reason : Nat) (dst : BitVec 16) (pay : List (BitVec 8)) : Dev :=
  let base : Flit := { Flit.idle with
    type := 5, vl := 6, dst := dst, src := BitVec.ofNat 16 d.selfId, part := f.part, ofs := f.ofs }
  let r : Flit := if reason = 0 then
      { base with fmt := f.fmt, form := f.form, tag := f.tag, payload := payloadOf pay }
    else
      { base with
        fmt := 0, form := 3
        tag := BitVec.ofNat 16 (0xF000 + f.tag.toNat % 4096)
        payload := payloadOf [BitVec.ofNat 8 reason, BitVec.ofNat 8 (memOp f)] }
  let (r, d) := d.numberFlit (.mem (if k = 0 then 0 else 1)) r
  (if reason = 0 then d else d.count .MEM_SVC_ERR_CNT k).srcPush (.mem (if k = 0 then 0 else 1)) r

/-- One memory request performed at die k (R452): the response, and the memory after it. -/
def memServe (k : Nat) (f : Flit) (m : Mem) (d : Dev) : Mem × Dev :=
  let op := memOp f
  let fmt := f.fmt.toNat
  let d := if d.d2dFailed k then d else d.count .MEM_SVC_REQ_CNT k
  let reason := d.memCheck k f
  let g := f.ofs.toNat
  if reason ≠ 0 then
    let n := memSpan op fmt
    let d := if reason = 0xD1 && decide (g + n ≤ hbmEnd) && gDie g = gDie (g + n - 1) then
        d.count .MEM_ACCESS_DENY_CNT k else d
    let d := if reason = 0xD4 then
        (((List.range n).map fun i => g + i).filter d.hbmFails).foldl (fun (d : Dev) x => d.memError x (some f.part.toNat) 0 0) d
      else d
    (m, d.memRespond k f reason f.src [])
  else
    let old := m.hbmRead (256 * g) (256 * memSpan op fmt)
    let flags := fun (d : Dev) (fl : Nat) => d.flagOr F.MEM_SVC_EXC_FLAGS k f.part.toNat fl
    match op with
    | 0 => (m, d.memRespond k f 0 f.src old)
    | 1 => (m.hbmWrite (256 * g) (payloadBytes f.payload), (d.hbmWhole g).memRespond k f 0 f.src [])
    | 2 =>
      let (new, fl) := atomicAdd fmt old f.payload
      (m.hbmWrite (256 * g) new, (flags d fl).memRespond k f 0 f.src old)
    | 3 =>
      let (new, fl) := reduceAdd fmt old f.payload
      (m.hbmWrite (256 * g) new, (flags d fl).memRespond k f 0 f.src [])
    | _ => (m, d.memRespond k f 0 (BitVec.ofNat 16 (plLe f.payload 0 2)) old)

/-- A memory request at the front of die k is served when its OP is one of those a row names; while the die's
scope is quiesced requests wait (R507). Its cell is freed and its credit returned when it is taken (R185). It waits while the die's domain is not ON; a FAILED one
answers an error (R520, R522). -/
def memRow (k : Nat) (ops : List Nat) (e : ReadErr) (m : Mem) (d : Dev) : Mem × Dev :=
  match tblGet [] d.core.memRx k with
  | [] => (m, d)
  | c :: rest =>
    if d.scopeHeld 4 k || !(ops.contains (memOp c.flit)) then (m, d)
    else if d.domFailed (dieDom k) && !d.d2dFailed k then
      (m, ((d.updCore fun x => { x with memRx := tblPut [] k rest x.memRx }).taken c).memRespond k c.flit 0xE0 c.flit.src
        [])
    else if !d.domOn (dieDom k) && !d.d2dFailed k then (m, d)
    else
      let d := (d.noteHbm e).updCore fun x => { x with memRx := tblPut [] k rest x.memRx }
      memServe k c.flit m (d.taken c)

/-! Pools (R462-R469) -/

/-- A write of POOL_CTRL.EN (R463, R470): 1 from 0 starts threading of P0-P3; 0 sets them OFF when no buffer of
P0-P3 is allocated. -/
def Dev.poolEnable (d : Dev) (k : Nat) (en : Bool) : Dev :=
  if en then
    if d.bit F.POOL_CTRL_EN k then d
    else d.forEach (List.range 4) (fun d p => d.updPool k p fun x => { x with state := 1 })
      |>.fdSet F.POOL_CTRL_EN k 0 1
  else if (List.range 4).any fun p => (d.pool k p).recs.any fun r => r.2 % 2 == 1 then d
  else (d.forEach (List.range 4) fun d p => d.updPool k p fun x => { x with state := 0, head := none, free := 0 }).fdSet
    F.POOL_CTRL_EN k 0 0

/-- Threading of a pool completes (R463): every buffer free, owner none, linked in ascending order. -/
def Dev.poolThread (d : Dev) (k p : Nat) : Dev :=
  if (d.pool k p).state = 1 then
    let n := d.poolCount k p
    d.updPool k p fun _ =>
      { state := 2, head := if n = 0 then none else some (dieG * k + d.poolBase k p), free := n, recs := [],
        freed := [] }
  else d

/-- The link of a free buffer: in HBM for one freed since threading, else the next buffer. -/
def poolLink (m : Mem) (d : Dev) (k p g : Nat) : Nat :=
  let i := (g - dieG * k - d.poolBase k p) / poolGran p
  if tblGet false (d.pool k p).freed i then ofLe (m.hbmRead (256 * g) 8)
  else if i + 1 < d.poolCount k p then g + poolGran p else 0xFFFFFFFFFFFFFFFF

/-- A pool enters FAILED (R469). -/
def Dev.poolFail (d : Dev) (k p : Nat) : Dev :=
  (d.updPool k p fun x => { x with state := 3 }).post
    { cls := 6, reason := 0xDD, part := none, body := leBytes 1 k ++ leBytes 1 p }

/-- pool_alloc of R464 for owner code own (a partition plus one; 17 firmware): the reason or the granule. -/
def poolAlloc (k size own : Nat) (zero px : Bool) (m : Mem) (d : Dev) : (Nat ⊕ Nat) × Mem × Dev :=
  if px && own ≠ 17 then (.inl 0xDB, m, d)
  else if !px && (size = 0 || decide (16 * 1048576 < size)) then (.inl 0xDA, m, d)
  else
    let p := if px then 4 else ((List.range 4).find? fun p => decide (size ≤ 256 * poolGran p)).getD 3
    let x := d.pool k p
    if x.state ≠ 2 then (.inl 0xDC, m, d)
    else match x.head with
      | none => (.inl 0xD9, m, d.count .POOL_EMPTY_CNT k p)
      | some g =>
        if d.hbmFails g then (.inl 0xDD, m, (d.memError g none 3 0).poolFail k p)
        else
          let nxt := poolLink m d k p g
          let idx := fun g => (g - dieG * k - d.poolBase k p) / poolGran p
          let inPool := decide (dieG * k + d.poolBase k p ≤ nxt) &&
            decide (nxt < dieG * k + d.poolBase k p + d.poolCount k p * poolGran p) &&
            (nxt - dieG * k - d.poolBase k p) % poolGran p == 0
          if !(nxt = 0xFFFFFFFFFFFFFFFF || (inPool && tblGet 0 x.recs (idx nxt) % 2 = 0)) then
            (.inl 0xDD, m, d.poolFail k p)
          else
            let wipe := zero || tblGet 0 x.recs (idx g) / 2 ≠ own
            let n := if wipe then 256 * poolGran p else 8
            let d := d.updPool k p fun x => { x with
              head := if nxt = 0xFFFFFFFFFFFFFFFF then none else some nxt
              free := x.free - 1
              recs := tblPut 0 (idx g) (2 * own + 1) x.recs
              freed := tblPut false (idx g) false x.freed }
            let m := { m with hbm := tblDrop (fun a => decide (256 * g ≤ a) && decide (a < 256 * g + n)) m.hbm }
            let d := if wipe then { d with hbm := { d.hbm with
                bad := tblDrop (fun a => decide (g ≤ a) && decide (a < g + poolGran p)) d.hbm.bad } } else d
            (.inr g, m, d.count .POOL_ALLOC_CNT k p)

/-- pool_free of R465 for owner code own: the reason (0: freed). -/
def poolFree (g own : Nat) (m : Mem) (d : Dev) : Nat × Mem × Dev :=
  let k := gDie g
  let fail := fun (r : Nat) => (r, m, d.count .POOL_FREE_ERR_CNT k)
  if hbmEnd ≤ g then fail 0xD5
  else
    let o := g - dieG * k
    match d.poolHolding k o with
    | none => fail 0xD5
    | some p =>
      let x := d.pool k p
      let rel := o - d.poolBase k p
      let i := rel / poolGran p
      let r := tblGet 0 x.recs i
      if p = 4 && own ≠ 17 then (0xDB, m, d)
      else if x.state = 3 then fail 0xDD
      else if x.state ≠ 2 then fail 0xDC
      else if rel % poolGran p ≠ 0 then fail 0xD6
      else if r % 2 = 0 then fail 0xD7
      else if own ≠ 17 && r / 2 ≠ own then fail 0xD8
      else
        let link := match x.head with
          | some h => h
          | none => 0xFFFFFFFFFFFFFFFF
        (0, m.hbmWrite (256 * g) (leBytes 8 link), (d.updPool k p fun x => { x with
          head := some g, free := x.free + 1, recs := tblPut 0 i (r - 1) x.recs
          freed := tblPut false i true x.freed }).count .POOL_FREE_CNT k p)

/-- Every buffer that partition k owns is freed, in ascending address order, as its owner would (R468). -/
def freeAllOf (k : Nat) (m : Mem) (d : Dev) : Mem × Dev :=
  let own := k + 1
  let gs := ((List.range 2).map fun die => ([3, 2, 1, 0].map fun p =>
    (((d.pool die p).recs.filter fun r => r.2 = 2 * own + 1).map fun r =>
      dieG * die + d.poolBase die p + r.1 * poolGran p)).flatten).flatten
  gs.foldl (fun (x : Mem × Dev) g => (poolFree g own x.1 x.2).2) (m, d)

end Sys2Proof.Machine
end

