-- ==== Sys2Proof/Machine/Tile.lean ====
section
/-! DEFINITION. What the tile's units share: numeric exceptions (09: R380-R389), residency, spill and restore
(06: R256-R262), and the contribution groups of a user program (07: R291, R292). -/

namespace Sys2Proof.Machine

/-! Exceptions -/

/-- Flags raised at one position for context c (R381, R382): engine 0 SUM, 1 SIFT. key orders the positions of
one instance of a built-in program (R383). -/
def Dev.raise (d : Dev) (c eng fl out elem tag code : Nat) (builtin : Bool) (key : Nat) : Dev :=
  let x := d.ctx c
  if fl = 0 || x.state == .free then d
  else
    let d := if eng = 0 then
        d.flagOr F.TILE_CTX_EXC_SUM_FLAGS c 0 fl
      else d.flagOr F.TILE_CTX_EXC_SIFT_FLAGS c 0 fl
    let held := d.bit F.TILE_CTX_EXCCAP_VALID c eng
    let replace := builtin && d.bit F.TILE_CTX_EXCCAP_BUILTIN c eng &&
      d.fd F.TILE_CTX_EXCCAP_INSTANCE c eng == x.e && decide (key < x.excKey)
    let d := if fl &&& d.fd F.TILE_EXC_CFG_CAPMASK x.tile = 0 then d else d.heatFlag F.TILE_CTX_EXCCAP_VALID c eng 1
    if fl &&& d.fd F.TILE_EXC_CFG_CAPMASK x.tile ≠ 0 && (!held || replace) then
      let d := d.setRawF .TILE_CTX_EXCCAP 0 c eng
        (tag <<< 48 ||| code <<< 40 ||| x.e <<< 16 ||| 1 <<< 15 ||| b2n builtin <<< 14 ||| fl <<< 8)
      let d := (d.setRawF .TILE_CTX_EXCPOS 0 c eng ((out % m32) <<< 32 ||| elem % m32)).count .TILE_EXC_CAP_CNT x.tile
      let d := if eng = 0 then d.updCtx c fun x => { x with excKey := key } else d
      if d.bit F.TILE_EXC_CFG_EVT x.tile then
        d.post { cls := 5, reason := 0, part := some x.part,
                 body := leBytes 2 c ++ leBytes 1 eng ++ leBytes 1 fl ++ leBytes 2 tag }
      else d
    else d

/-- Flags, captures and positions of a context cleared, as CTX_SETUP does (R381, R382, R387). -/
def Dev.clearExc (d : Dev) (c : Nat) : Dev :=
  ((((d.setRawF .TILE_CTX_EXC 0 c 0 0).setRawF .TILE_CTX_EXCCAP 0 c 0 0).setRawF .TILE_CTX_EXCCAP 0 c 1 0).setRawF
    .TILE_CTX_EXCPOS 0 c 0 0).setRawF .TILE_CTX_EXCPOS 0 c 1 0

/-! Residency -/

/-- The contexts that are set up on a logical tile. -/
def Dev.tileCtxs (d : Dev) (i : Nat) : List Nat :=
  d.liveCtxs.filter fun c => (d.ctx c).state != .free && (d.ctx c).tile = i

/-- A free slot of a tile, the lowest. -/
def Dev.freeSlot (d : Dev) (i : Nat) : Option Nat :=
  (List.range 64).find? fun s => !((d.tileCtxs i).any fun c => (d.ctx c).slot == some s)

/-- Is any command of context c queued or executing on its tile (R323)? -/
def Dev.inFlight (d : Dev) (c : Nat) : Bool :=
  let t := d.tile (d.phys (d.ctx c).tile)
  t.q.any (fun e => e.2.any fun m => m.ctx = c) || t.built.any (fun e => e.2.ctx = c) ||
    t.busy.any fun e => match e.2 with
      | some m => m.ctx = c && !m.dead
      | none => false

/-- Does the tile's sequencer run context c? -/
def Dev.running (d : Dev) (c : Nat) : Bool :=
  match (d.tile (d.phys (d.ctx c).tile)).run with
  | some r => r.ctx = c
  | none => false

/-- The victim of R257: a FAULTED context, else the ARMED one, else the OPEN one without a command in flight,
whose last flit was taken longest ago; ties to the lower CTX. A running context is none (log entry 27). -/
def Dev.victim (d : Dev) (i : Nat) : Option Nat :=
  let l := (d.tileCtxs i).filter fun c =>
    let x := d.ctx c
    x.slot.isSome && !x.spilling && !x.restoring && !(x.state == .open_ && d.inFlight c) && !(d.running c)
  let best := fun (st : CtxState) => (l.filter fun c => (d.ctx c).state == st).foldl
    (fun (b : Option Nat) c => match b with
      | none => some c
      | some y => if st != .faulted && (d.ctx c).lastTaken < (d.ctx y).lastTaken then some c else some y) none
  match best .faulted with
  | some c => some c
  | none => match best .armed with
    | some c => some c
    | none => best .open_

/-- Is a context resident and usable? -/
def CtxSt.resident (x : CtxSt) : Bool := x.slot.isSome && !x.spilling && !x.restoring

/-- The bytes of slot s of a physical tile, relative to its start (the group memory of its context). -/
def slotImage (m : Mem) (t s : Nat) : List Host.Cell :=
  ((m.tileCells t).filter fun e => decide (0x8000 * s ≤ e.1) && decide (e.1 < 0x8000 * (s + 1))).map
    fun e => (e.1 - 0x8000 * s, e.2)

/-- A slot's bytes replaced by an image. -/
def slotLoad (m : Mem) (t s : Nat) (img : List Host.Cell) : Mem :=
  let rest := tblDrop (fun a => decide (0x8000 * s ≤ a) && decide (a < 0x8000 * (s + 1))) (m.tileCells t)
  { m with tile := tblPut [] t (img.foldl (fun t e => tblPut 0 (0x8000 * s + e.1) e.2 t) rest) m.tile }

/-- A context becomes FREE (R228): what it held is forgotten. -/
def Dev.freeCtx (d : Dev) (c : Nat) : Dev :=
  let d := d.abandon c
  let d := d.setRawF .TILE_CTX_EXC 0 c 0 0
  let d := d.setRawF .TILE_CTX_FA 0 c 0 0
  d.updCtx c fun _ => CtxSt.reset

/-- A fault or free that waited for a spill or restore takes effect (R261). -/
def Dev.ctxSettle (d : Dev) (c : Nat) : Dev :=
  let x := d.ctx c
  if x.pendFree then d.freeCtx c
  else match x.pendFault with
    | some r => if x.live then d.faultNow c r else d.updCtx c fun x => { x with pendFault := none }
    | none => d

/-- The saved size S of a context less the 512 bytes beside its footprint (R226, R258). -/
def TreeDesc.footprint (t : TreeDesc) : Nat :=
  if t.prog = 4 then 1024 + ceilDiv (ceilDiv t.nelem (epf t.inFmt)) 8
  else 1024 + t.win * (256 * t.nchild + 8 * epf t.inFmt)

/-- The global granule of context c's spill slot: die c mod 2, 64 KiB x floor(c / 2) (R259). -/
def spillGranule (c : Nat) : Nat := dieG * (c % 2) + 256 * (c / 2)

/-- The granules that the S bytes of context c's saved state take (R258, R259). -/
def Dev.spillGranules (d : Dev) (c : Nat) : List Nat :=
  (List.range (ceilDiv ((d.ctx c).desc.footprint + 512) 256)).map fun k => spillGranule c + k

/-- The S bytes of a context's saved state written to its spill slot (R258, R259). Their layout is not given, so each is
a free value; what a restore brings back is kept with the context (log entry 16). -/
def spillWrite (c : Nat) (m : Mem) (d : Dev) : Mem × Dev :=
  let n := (d.ctx c).desc.footprint + 512
  (m.hbmWrite (256 * spillGranule c) (padTo n (Config.freeBytes d.freeCount n)),
    ((d.spillGranules c).take (n / 256)).foldl Dev.hbmWhole { d with freeCount := d.freeCount + 1 })

/-- The die link of a transfer in progress has failed (R261): the context gives up its slot, and FAULTS with 0xE4 unless a
fault or free waited for the transfer (log entry 112). -/
def Dev.transferCut (d : Dev) (c : Nat) : Dev :=
  let d := d.updCtx c fun x => { x with spilling := false, restoring := false, slot := none, want := false }
  let x := d.ctx c
  if x.pendFree || x.pendFault.isSome then d.ctxSettle c else d.ctxFault c 0xE4

/-- A victim's spill starts; over a failed die link it ends at once (R257, R261). -/
def Dev.spillStart (d : Dev) (v : Nat) : Dev :=
  let d := d.updCtx v fun x => { x with spilling := true }
  if d.d2dFailed (v % 2) then d.transferCut v else d

/-- A restore starts in slot s (R257). -/
def Dev.restoreStart (d : Dev) (c s : Nat) : Dev :=
  let d := d.updCtx c fun x => { x with slot := some s, restoring := true, want := false }
  if d.d2dFailed (c % 2) then d.transferCut c else d

/-- A context that must be resident (R231 step 3, R257): its restore starts in a free slot. Failing that a victim's spill
starts, one for each context of the tile that is needed. The second answer tells that nothing qualifies and the need
waits. -/
def Dev.needSlot (d : Dev) (c : Nat) : Dev × Bool :=
  let i := (d.ctx c).tile
  if (d.ctx c).slot.isSome then (d, false)
  else match d.freeSlot i with
    | some s => (d.restoreStart c s, false)
    | none =>
      let d := d.updCtx c fun x => { x with want := true }
      let l := d.tileCtxs i
      if (l.filter fun c => (d.ctx c).want && (d.ctx c).live && (d.ctx c).slot.isNone).length ≤ (l.filter fun c => (d.ctx c).spilling).length then (d, false)
      else match d.victim i with
        | none => (d, true)
        | some v =>
          let d := d.spillStart v
          match d.freeSlot i with
          | some s => (d.restoreStart c s, false)
          | none => (d, false)

/-- SPILL_COMPLETE of context c (R258-R261): the state is in HBM, the slot free. -/
def spillDone (c : Nat) (m : Mem) (d : Dev) : Mem × Dev :=
  let x := d.ctx c
  match x.spilling, x.slot with
  | true, some s =>
    let img := slotImage m (d.phys x.tile) s
    let (m, d) := spillWrite c m d
    (m, ((d.updCtx c fun x => { x with spilling := false, slot := none, image := img }).count
      .TILE_SPILL_CNT x.tile).ctxSettle c)
  | _, _ => (m, d)

/-- RESTORE_COMPLETE of context c: the state comes back bit for bit, or a read of its spill slot fails and the
context faults with 0xCA (R260, R261, R460). -/
def restoreDone (c : Nat) (e : ReadErr) (m : Mem) (d : Dev) : Mem × Dev :=
  let x := d.ctx c
  match x.restoring, x.slot with
  | true, some s =>
    let d := d.noteHbm e
    match (d.spillGranules c).find? d.hbmFails with
    | some g =>
      let d := d.memError g (some x.part) 2 (d.phys x.tile)
      let d := d.updCtx c fun x => { x with restoring := false, slot := none }
      (m, (if x.pendFault.isSome || x.pendFree then d else d.ctxFault c 0xCA).ctxSettle c)
    | none =>
      (slotLoad m (d.phys x.tile) s x.image, ((d.updCtx c fun x => { x with
        restoring := false, image := [] }).count .TILE_RESTORE_CNT x.tile).ctxSettle c)
  | _, _ => (m, d)

/-! Contribution groups of a user program -/

/-- Does the context run a user program? -/
def TreeDesc.user (t : TreeDesc) : Bool := decide (0x8000 ≤ t.prog)

/-- The flit count n of an instance (R226). -/
def TreeDesc.flits (t : TreeDesc) : Nat := ceilDiv t.nelem (epf t.inFmt)

/-- The tile-memory address of group o (R226, R291; log entry 28). -/
def CtxSt.groupAddr (x : CtxSt) (o : Nat) : Nat :=
  0x8000 * x.slot.getD 0 + 1024 + o % max 1 x.desc.win * (256 * x.desc.nchild + 8 * epf x.desc.inFmt)

/-- Have all commands of context c pushed before a bound completed? -/
def Dev.pushedDone (d : Dev) (c bound : Nat) : Bool :=
  let t := d.tile (d.phys (d.ctx c).tile)
  !(t.q.any fun e => e.2.any fun m => m.ctx = c && !m.builtin && decide (m.serial < bound)) &&
    !(t.busy.any fun e => match e.2 with
      | some m => m.ctx = c && !m.builtin && !m.dead && decide (m.serial < bound)
      | none => false)

/-- Is the memory of group o still in use by an earlier group (R292)? -/
def Dev.groupBusy (d : Dev) (c o : Nat) : Bool :=
  let x := d.ctx c
  x.unfreed.any fun u => u.1 % max 1 x.desc.win = o % max 1 x.desc.win && u.1 ≠ o && !(d.pushedDone c u.2)

/-- The flits held for group memory that has been freed are written into it, in dense layout (R292, R408). -/
def groupWrite (c : Nat) (m : Mem) (d : Dev) : Mem × Dev :=
  let x := d.ctx c
  if x.desc.user && x.state == .open_ && x.resident then
    x.held.foldl (fun (a : Mem × Dev) h =>
      if a.2.groupBusy c h.ofs then a
      else
        let x := a.2.ctx c
        (a.1.tileWrite (a.2.phys x.tile) (x.groupAddr h.ofs + 256 * h.child) (payloadBytes h.pay),
          a.2.updCtx c fun x => { x with held := x.held.filter fun y => !(y == h) })) (m, d)
  else (m, d)

/-- Every context's waiting group writes, once engine commands have completed. -/
def groupWriteAll (i : Nat) (m : Mem) (d : Dev) : Mem × Dev :=
  (d.tileCtxs i).foldl (fun (a : Mem × Dev) c => groupWrite c a.1 a.2) (m, d)

/-- The current contribution group (R291): none released-out, else its OFS and whether it is complete. -/
def Dev.group (d : Dev) (c : Nat) : Option (Nat × Bool) :=
  let x := d.ctx c
  if x.state == .open_ && decide (x.base < x.desc.flits) then
    some (x.base, (List.range x.desc.nchild).all fun k =>
      x.complete k x.base && !(x.held.any fun h => h.ofs = x.base && h.child = k))
  else none

end Sys2Proof.Machine
end

