-- ==== Sys2Proof/Machine/Optics.lean ====
section
/-! DEFINITION. Die-to-die links (01: R17-R22), laser modules, open fibre, training (02: R43-R76; 03:
R120-R123). -/

namespace Sys2Proof.Machine

/-! Die-to-die links -/

/-- The direction of a link that a row of replays belongs to: toward the core die, or away from it. -/
def d2dKey (n : Nat) (up : Bool) : Nat := 2 * n + b2n up

/-- One replay of the transfer in hand in one direction of link n (R17, R21, R22). -/
def Dev.d2dReplay (d : Dev) (n : Nat) (up : Bool) : Dev :=
  let k := min 16 (tblGet 0 d.d2d (d2dKey n up) + 1)
  let d := ({ d with d2d := tblPut 0 (d2dKey n up) k d.d2d }).count .CORE_D2D_RETRY_CNT n
  let d := d.flagOr F.CORE_D2D_STAT_RETRY_SEEN n 0 1
  (d.fdSet F.CORE_D2D_STAT_MAX_CONSEC n 0 (max k (d.fd F.CORE_D2D_STAT_MAX_CONSEC n))).emit (.d2dReplay n)

/-- D2D_TRANSFER_RECEIVE: a good transfer ends the row of replays; a bad one is counted and replayed. -/
def Dev.d2dReceive (d : Dev) (n : Nat) (up crcOk : Bool) : Dev :=
  if d.d2dFailed n then d
  else if crcOk then { d with d2d := tblPut 0 (d2dKey n up) 0 d.d2d }
  else (d.count .CORE_D2D_CRC_CNT n).d2dReplay n up

/-- D2D_ACK_TIMEOUT. -/
def Dev.d2dTimeout (d : Dev) (n : Nat) (up : Bool) : Dev := if d.d2dFailed n then d else d.d2dReplay n up

/-- A context whose state lies in HBM on die k, where that of context c lies while it is not resident (R256, R259), or is
on its way there or back. -/
def Dev.stateOnDie (d : Dev) (c k : Nat) : Bool :=
  let x := d.ctx c
  x.live && c % 2 == k && (x.slot.isNone || x.spilling || x.restoring)

/-- A context with data in HBM on die k: a command of it, queued or executing, has an operand there (log entry 123). -/
def Dev.dataOnDie (d : Dev) (c k : Nat) : Bool :=
  let x := d.ctx c
  let t := d.tile (d.phys x.tile)
  x.live && ((t.q.any fun e => e.2.any fun m => m.ctx = c && (m.hbmNames e.1).any fun g => dieOf g == some k) ||
    t.busy.any fun e => match e.2 with
      | some m => m.ctx = c && !m.dead && (m.hbmNames e.1).any fun g => dieOf g == some k
      | none => false)

/-- D2D_LINK_FAIL: sixteen consecutive replays, or 1 ms out of lock (R18-R20). -/
def Dev.d2dFail (d : Dev) (n : Nat) (unlocked : Bool) : Dev :=
  if d.d2dFailed n || !(unlocked || 16 ≤ max (tblGet 0 d.d2d (d2dKey n false)) (tblGet 0 d.d2d (d2dKey n true))) then d
  else
    let reason := if n = 2 then 0xE5 else 0xE4
    let d := (d.fdSet F.CORE_D2D_STAT_STATE n 0 3).fdSet F.CORE_D2D_STAT_FAIL_REASON n 0 reason
    if n = 2 then
      let d := ((d.faultAll d.liveCtxs 0xE5).emit (.aer 0)).emit (.aer 1)
      if d.bit F.FLT_FM_CFG_HB_EN then d.hbSuspend 2 else d
    else
      let moving := fun (c : Nat) => ((d.ctx c).spilling || (d.ctx c).restoring) && c % 2 == n
      let hit := d.liveCtxs.filter fun c => !(moving c) && (d.stateOnDie c n || d.dataOnDie c n)
      (d.forEach (d.liveCtxs.filter moving) Dev.transferCut).faultAll hit 0xE4

/-! Photodiodes and laser modules -/

/-- Is wavelength i of laser fibre m within 3 dB of its commanded power (R47)? -/
def Dev.lineOk (d : Dev) (m i : Nat) : Bool := bitAt (d.fd F.OPT_ELS_STAT_LINE_OK (m / 4)) (5 * (m % 4) + i)

/-- WAVELENGTH_FAIL: while UP or DEGRADED a wavelength of one direction fails (R52, R53, R56). -/
def Dev.waveFail (d : Dev) (p : Nat) (rx : Bool) (i : Nat) : Dev :=
  if portUp (d.port p).state then (if rx then d.failRx p i else d.failTx p i) else d

/-- PHOTODIODE_SAMPLE of engine e, bit 5f + i of low set when that photodiode reads more than 3 dB below: the
fifth sample in a row, at 50 µs, marks the wavelength failed (R43), and it fails on the four ports it serves (R42, R52). -/
def Dev.photodiode (d : Dev) (e : Nat) (low : Nat) : Dev :=
  d.forEach (List.range 20) fun d k =>
    let m := 4 * e + k / 5
    let i := k % 5
    let n := if bitAt low k then min 5 (at_ 0 (d.fibre m).low i + 1) else 0
    let d := d.updFibre m fun x => { x with low := updAt x.low i fun _ => n }
    let stat := d.fd F.OPT_ELS_STAT_LINE_OK e
    if n = 0 then d.fdSet F.OPT_ELS_STAT_LINE_OK e 0 (bitPut stat k true)
    else if n = 5 && bitAt stat k then
      (d.fdSet F.OPT_ELS_STAT_LINE_OK e 0 (bitPut stat k false)).forEach (siblings m) fun d p => d.waveFail p false i
    else d

/-- The device asks a supported module for the output power of the factory record on each wavelength of an output fibre,
and enables the fibre (R46, R66). -/
def Dev.fibreOn (d : Dev) (k f : Nat) : Dev :=
  ((List.range 5).foldl (fun (d : Dev) i => d.emit (.cmisPower k f i (Config.laserPower k f i))) d).emit (.cmis k f true)

/-- Does an advertisement pass (R45): five wavelengths of the grid of R39 on each output fibre, and a laser disable time of
at most 2 ms? -/
def elsSupported (a : ElsAdv) : Bool :=
  a.present && a.fibres == List.replicate 4 [1271, 1291, 1311, 1331, 1351] && decide (a.disableUs ≤ 2000)

/-- The output fibres of a module that have no light now (R48): those it reports, all four while it is absent. -/
def dimFibres (r : ElsFlags) (old : BitVec 4) : BitVec 4 :=
  if !r.present then 0xF else if r.busOk then r.dark else old

/-- The CMIS flags of module k polled (R45, R48): FAULT on a fault flag or three failed transactions in a
row; the ports of a fibre that newly goes dark go DOWN with 0xED, those of a supported module's fibre that recovers go
DARK, REASON kept; a module that is back after it was absent is set up again (log entry 125). -/
def Dev.elsPoll (d : Dev) (k : Nat) (r : ElsFlags) : Dev :=
  let back := r.present && !(d.bit F.OPT_ELS_STAT_PRESENT k) && d.bit F.OPT_ELS_STAT_SUPPORTED k
  let old := (d.elsOf k).dark
  let dark := dimFibres r old
  let d := d.fdSet F.OPT_ELS_STAT_PRESENT k 0 (b2n r.present)
  let d := d.updEls k fun x => { x with
    busFails := if !r.present then x.busFails else if r.busOk then 0 else min 3 (x.busFails + 1), dark := dark }
  let d := if r.present && ((r.busOk && r.fault) || (!r.busOk && (d.elsOf k).busFails == 3)) then
    d.flagOr F.OPT_ELS_STAT_FAULT k 0 1 else d
  let d := if back then
      d.forEach ((List.range 4).filter fun f => !(d.fibre (4 * k + f)).cut && !(d.fibre (4 * k + f)).cutting) fun d f => d.fibreOn k f
    else d
  d.forEach (List.range 4) fun d f =>
    d.forEach (siblings (4 * k + f)) fun d p =>
      let x := d.port p
      if dark.getLsbD f && !(old.getLsbD f) then
        if x.state == .absent || x.state == .disabled then d else d.portToDown p 0xED
      else if old.getLsbD f && !(dark.getLsbD f) && x.state == .down && x.reason == 0xED &&
          d.bit F.OPT_ELS_STAT_SUPPORTED k then
        d.setPort p .dark 0xED
      else d

/-! Loss of signal, laser cut, probe windows -/

/-- Is the port one with a fibre in use? -/
def portLive (st : PortState) : Bool := !(st == .absent || st == .disabled)

/-- 5 ms in core cycles. -/
def fiveMs : Nat := 9500000

/-- LOS: PEER_CUT after a cut notice of the last 5 ms, else DARK and a laser cut (R65, R69). A port that is DISABLED, or
DOWN for want of its laser module (R45, R82), stays as it is; its LOS bit and counter follow the fibre (R79, R81). -/
def Dev.losEvent (d : Dev) (p : Nat) : Dev :=
  let x := d.port p
  if x.state == .absent || x.los then d
  else
    let d := (d.updPort p fun x => { x with los := true }).count .PORT_LOS_CNT p
    let noticed := match x.noticeAt with
      | some t => decide (d.cycle ≤ t + fiveMs)
      | none => false
    if x.state == .disabled || (x.state == .down && x.reason == 0xED) then d
    else if noticed then
      ((d.setPort p .peerCut 0xEC).updPort p fun x => { x with
        modOn := true, wake := true, step := 0, noticeAt := none }).sendWake p
    else
      ((d.setPort p .dark 0xE8).updPort p fun x => { x with modOn := false, wake := false, step := 0 }).cutFibre
        (p / 4)

/-- The DARK ports of a fibre. -/
def Dev.darkPorts (d : Dev) (m : Nat) : List Nat := (siblings m).filter fun p => (d.port p).state == .dark

/-- Does no DARK port of the fibre lack light (R70)? -/
def Dev.mayLight (d : Dev) (m : Nat) : Bool := (d.darkPorts m).all fun p => !(d.port p).los

/-- LASER_CUT_COMPLETE of fibre m: the cut bit is set and every sibling with light enters LASER_CUT (R67, R68;
log entry 25). Light that came back meanwhile restores the fibre (R72). -/
def Dev.cutComplete (d : Dev) (m : Nat) : Dev :=
  if !(d.fibre m).cutting then d
  else
    let want := (d.fibre m).want
    let d := d.updFibre m fun x => { x with cutting := false, cut := true, want := false, restoring := false, probing := false }
    let d := d.fdSet F.OPT_ELS_STAT_CUT (m / 4) 0 (bitPut (d.fd F.OPT_ELS_STAT_CUT (m / 4)) (m % 4) true)
    let d := d.forEach (siblings m) fun d p =>
      let x := d.port p
      if portLive x.state && !x.los && x.state != .dark && x.state != .laserCut then
        (d.setPort p .laserCut 0xEC).updPort p fun x => { x with modOn := false, wake := false, step := 0 }
      else d
    if want && d.mayLight m then d.restoreFibre m else d

/-- CUT_NOTICE_SEND_END (R69). -/
def Dev.noticeEnd (d : Dev) (p : Nat) : Dev := d.updLink p fun l => { l with cutNotice := false }

/-- The fibre has light again: the cut ends. -/
def Dev.uncut (d : Dev) (m : Nat) : Dev :=
  (d.updFibre m fun x => { x with cut := false, want := false, cutting := false, restoring := false, probing := false }).fdSet
    F.OPT_ELS_STAT_CUT (m / 4) 0 (bitPut (d.fd F.OPT_ELS_STAT_CUT (m / 4)) (m % 4) false)

/-- PROBE_WINDOW_START: every 4 s a cut fibre of a supported module is restored for a window (R45, R71). The cut lasts
until the window succeeds: the CUT bits keep reading 1 (R66, R79; log entry 125). -/
def Dev.probeStart (d : Dev) (m : Nat) : Dev :=
  let x := d.fibre m
  if x.cut && !x.probing && !x.cutting && d.bit F.OPT_ELS_STAT_SUPPORTED (m / 4) then
    let d := ((d.updFibre m fun x => { x with probing := true }).count .OPT_PROBE_CNT m).emit
      (.cmis (m / 4) (m % 4) true)
    d.forEach (d.darkPorts m) fun d p =>
      (d.updPort p fun x => { x with modOn := true, wake := true }).sendWake p
  else d

/-- PROBE_WINDOW_END: with light at every DARK port, or with none DARK (R70; log entry 126), the fibre stays on and its
DARK and LASER_CUT ports train; else it is cut again (R71). -/
def Dev.probeEnd (d : Dev) (m : Nat) : Dev :=
  if !(d.fibre m).probing then d
  else if d.mayLight m then
    d.uncut m |>.forEach (siblings m) fun d p =>
      if (d.port p).state == .dark || (d.port p).state == .laserCut then d.toTraining p false else d
  else
    (d.forEach (d.darkPorts m) fun d p => d.updPort p fun x => { x with modOn := false, wake := false }).cutFibre m

/-- LIGHT_DETECTED: 1 ms of light (R72), which ends the port's LOS (R79; log entry 126). On a cut fibre a DARK port waits
for its restoration, which starts when no DARK port of the fibre is without light (R70); a PEER_CUT port trains, and
its fibre is restored on the same condition. -/
def Dev.lightDetected (d : Dev) (p : Nat) : Dev :=
  let x := d.port p
  let m := p / 4
  if x.state == .absent then d
  else
    let d := d.updPort p fun x => { x with los := false }
    let dimmed := (d.fibre m).cut || (d.fibre m).cutting
    let relit := fun (d : Dev) => if dimmed && !(d.fibre m).probing && d.mayLight m then d.restoreFibre m else d
    match x.state with
    | .peerCut => relit (d.toTraining p false)
    | .dark => if dimmed then relit d else d.toTraining p false
    | _ => d

/-- LASER_FIBRE_RESTORED: the CMIS write completes; LASER_CUT ports and the DARK ports with light train. -/
def Dev.fibreRestored (d : Dev) (m : Nat) : Dev :=
  if !(d.fibre m).restoring then d
  else d.uncut m |>.forEach (siblings m) fun d p =>
    let x := d.port p
    if x.state == .laserCut || (x.state == .dark && !x.los) then d.toTraining p false else d

/-- DOWN_RETRY_TIMER: a DOWN port with light trains again (R74); a port whose module is dark or not supported
has none of its own to send and stays (R45). -/
def Dev.downRetry (d : Dev) (p : Nat) : Dev :=
  let x := d.port p
  if x.state == .down && !x.los && x.reason ≠ 0xED then d.toTraining p false else d

/-! Registers of a port -/

/-- Does a HARD fence keep the port DISABLED (17: R589)? -/
def Dev.hardFenced (d : Dev) (p : Nat) : Bool := d.fd F.FLT_FENCE_LEVEL p == 3

/-- The state a port that may run takes from DISABLED (R74); REASON as it was on an entry into DARK, for which the spec
gives no code (log entry 125). -/
def Dev.portStart (d : Dev) (p : Nat) : Dev :=
  if d.bit F.OPT_ELS_STAT_SUPPORTED (p / 16) then d.setPort p .dark (d.port p).reason
  else d.setPort p .down 0xED

/-- A port goes to DISABLED: at once, modulators off (R74, R75). -/
def Dev.portDisable (d : Dev) (p : Nat) : Dev :=
  (d.setPort p .disabled 0).updPort p fun x => { x with
    modOn := false, wake := false, step := 0, txSteer := none, rxSteer := none, restripe := none
    pendFail := [], steerReq := none, retrainAfter := false }

/-- A value written to PORT_MODE.EN takes effect (R76); REASON as in `portStart`. -/
def Dev.enableWrite (d : Dev) (p : Nat) (en : Bool) : Dev :=
  match (d.port p).state with
  | .absent => d
  | .disabled => if en && !(d.hardFenced p) then d.setPort p .dark (d.port p).reason else d
  | _ => if en then d else d.portDisable p

/-! Training -/

/-- The length of the measurement in bits (R59, R122). -/
def Dev.berBits (d : Dev) (p : Nat) : Nat :=
  let own := max 10 (d.fd F.PORT_BER_CFG_LEN_GBIT)
  let peer := match (d.port p).peerCap with
    | some b => max 10 (bitsOf b.toNat 20 13)
    | none => own
  max own peer * 10 ^ 9

/-- Does an error count exceed threshold x bits (R60)? -/
def Dev.berFails (d : Dev) (p count : Nat) : Bool :=
  decide (d.fd F.PORT_BER_CFG_THR_M * d.berBits p < count * 10 ^ d.fd F.PORT_BER_CFG_THR_E)

/-- Will this training resume (R123)? Both ends ask for it. -/
def PortSt.resumes (x : PortSt) : Bool :=
  x.wantResume && match x.peerCap with
    | some b => b.getLsbD 8
    | none => false

/-- The wavelengths of the transmit direction that have failed (R122). -/
def Dev.judgeTx (d : Dev) (p : Nat) : BitVec 5 :=
  let x := d.port p
  (List.range 5).foldl (fun (a : BitVec 5) i =>
    let n := match at_ none x.peerErr i with
      | some c => c.toNat
      | none => 0
    if !(d.lineOk (p / 4) i) || d.sys.flash.waves.contains (p, false, i) || d.berFails p n then a ||| BitVec.ofNat 5 (1 <<< i) else a) 0

/-- The CAP word of the device (R121): role switch, version 1; a wavelength that the defect map marks failed counts
as dark (15: R544). -/
def Dev.capBody (d : Dev) (p : Nat) : Nat :=
  let x := d.port p
  let dark := (List.range 5).foldl (fun a i => if d.lineOk (p / 4) i && !(d.sys.flash.waves.contains (p, false, i)) then a
    else a + 2 ^ i) 0
  widthCode x.maxW <<< 30 ||| widthCode x.minW <<< 28 ||| dark <<< 23 ||| b2n x.spareEn <<< 22 |||
    max 10 (d.fd F.PORT_BER_CFG_LEN_GBIT) <<< 13 ||| 1 <<< 9 ||| b2n x.wantResume <<< 8

/-- Step 3 has finished: the widths, the spare and RESUME are agreed (R122, R123); a training that does not
resume drops what the link kept, and PRBS31 goes out (R60). -/
def Dev.capsAgreed (d : Dev) (p : Nat) (cap : Nat) : Dev :=
  let peerMax := match bitsOf cap 31 30 with
    | 0 => 4
    | c => widthOf c
  let d := d.updPort p fun x => { x with
    maxW := min x.maxW peerMax, minW := min x.minW (min x.maxW peerMax)
    spareEn := x.spareEn && bitAt cap 22, step := 4, state := .measuring }
  (if (d.port p).resumes then d else d.linkFresh p).emit (.prbs p)

/-- Has the defect map marked a receive wavelength failed (15: R544)? -/
def Dev.waveBad (d : Dev) (p i : Nat) : Bool := d.sys.flash.waves.contains (p, true, i)

/-- Step 4 has finished with the error counts of the five receive wavelengths (R60, R61): which of them failed. -/
def Dev.measured (d : Dev) (p : Nat) (errs : List (BitVec 32)) : Dev :=
  let cap := match (d.port p).peerCap with
    | some b => bitsOf b.toNat 27 23
    | none => 0
  let d := d.forEach (List.range 5) fun d i => d.setRawF .PORT_BER_ERR 0 p i (at_ 0 errs i).toNat
  let fail := (List.range 5).foldl (fun (a : BitVec 5) i =>
    if d.waveBad p i || d.berFails p (at_ 0 errs i).toNat || bitAt cap i then a ||| BitVec.ofNat 5 (1 <<< i) else a) 0
  d.updPort p fun x => { x with rxFail := fail, step := 5 }

/-- The width of the port after step 5 (R63): its own judgement of both directions, what the peer's MAP
says, and the cap. -/
def Dev.agreedWidth (d : Dev) (p : Nat) : Nat :=
  let x := d.port p
  let peer := match x.peerMap with
    | some b => widthOf (bitsOf b.toNat 19 18)
    | none => 4
  min (min (dirWidth x.txFail x.spareEn) (dirWidth x.rxFail x.spareEn)) (min peer x.maxW)

/-- The receive map at width w from the peer's MAP (R49, R50): its map, or at a lower width the lowest of its
wavelengths. -/
def peerRxMap (body : BitVec 32) (w : Nat) : BitVec 12 :=
  let m := BitVec.ofNat 12 (bitsOf body.toNat 31 20)
  let pw := widthOf (bitsOf body.toNat 19 18)
  if pw ≤ w then m
  else
    let waves := (List.range 5).filter fun i => match mapLane m i with
      | some l => decide (l < pw)
      | none => false
    (List.range w).foldl (fun a l => mapPut a l (waves.getD l 7)) 0xFFF

/-- Step 5 has finished: each direction has its map (R49, R63); the receive map is the one the peer
announced (R50). Step 6 begins with a marker. -/
def Dev.mapped (d : Dev) (p : Nat) : Dev :=
  let w := d.agreedWidth p
  (d.updPort p fun x => { x with
    width := w, txMap := laneMap x.txFail x.spareEn w
    rxMap := match x.peerMap with
      | some b => peerRxMap b w
      | none => laneMap x.rxFail x.spareEn w
    step := 6 }).updLink p fun l => { l with blkTx := 6472 }

/-- TRAINING_COMPLETE (R63): UP or DEGRADED once the lanes are aligned, or DOWN with ABORT sent to the peer; the link enters INIT, or
resumes by replay from its oldest unacknowledged flit (R123); the port event; the queues. -/
def Dev.trained (d : Dev) (p : Nat) : Dev :=
  let x := d.port p
  let w := x.width
  if w = 0 || w < x.minW then
    let reason := if w = 0 then 0xEA else 0xEB
    ((d.portToDown p reason).sendTrain p 4 reason 0).portOutcome p reason
  else if !(d.link p).aligned then d
  else
    let d := (d.setPort p (if w = x.maxW then .up else .degraded) 0).updPort p fun x => { x with step := 0 }
    let d := if x.resumes then
        (d.updLink p fun l => { l with
          lstate := .init, resumed := true, gotRx := false, gotAck := false, consec := 0, lackMoved := true
          nakPending := false, nakDue := none, cursor := if l.replayList.isEmpty then none else some 0 })
      else d.updLink p fun l => { l with
          lstate := .init, resumed := false, gotRx := false, gotAck := false
          initDue := (List.range 8).map fun v => d.fd F.PORT_VL_CREDIT_ADV p v }
    (d.portOutcome p 0).queuesResume p

/-- TRAINING_STEP_COMPLETE (R62). The exchange of step 3 needs the peer's CAP, that of step 5 its five
RESULTs and its MAP. -/
def Dev.trainStep (d : Dev) (p : Nat) (errs : List (BitVec 32)) : Dev :=
  let x := d.port p
  if !(x.state == .training || x.state == .measuring) then d
  else match x.step with
    | 1 => d.updPort p fun x => { x with step := 2 }
    | 2 => d.updPort p fun x => { x with step := 3, retrainOp := none }
    | 3 => match x.peerCap with
      | some b => d.capsAgreed p b.toNat
      | none => d
    | 4 => d.measured p errs
    | 5 => if x.peerErr.all (·.isSome) && x.peerMap.isSome then d.mapped p else d
    | 6 => d.trained p
    | _ => d

/-- TRAINING_ADAPT_TIMEOUT (R62). -/
def Dev.adaptTimeout (d : Dev) (p : Nat) : Dev :=
  if (d.port p).state == .training && (d.port p).step = 2 then
    (d.portToDown p 0xE9).portOutcome p 0xE9
  else d

/-- The training word of a type that a block is accepted as (R90, R120). -/
def trainOf (ttype : Nat) (blk : Block) : Option TrainWord := (acceptTrain blk).filter fun t => t.ttype.toNat == ttype

/-- TRAINING_WORD_CAP: taken in step 3. -/
def Dev.wordCap (d : Dev) (p : Nat) (blk : Block) : Dev :=
  match trainOf 1 blk with
  | none => d
  | some t =>
    if (d.port p).state == .training && (d.port p).step = 3 then d.updPort p fun x => { x with peerCap := some t.body } else d

/-- TRAINING_WORD_RESULT: taken in step 5; with the fifth the transmit wavelengths are judged (R122). -/
def Dev.wordResult (d : Dev) (p : Nat) (blk : Block) : Dev :=
  match (trainOf 2 blk).filter fun t => decide (t.wave.toNat < 5) with
  | none => d
  | some t =>
    if (d.port p).state == .measuring && (d.port p).step = 5 then
      let d := d.updPort p fun x => { x with peerErr := updAt x.peerErr t.wave.toNat fun _ => some t.body }
      if (d.port p).peerErr.all (·.isSome) then d.updPort p fun x => { x with txFail := d.judgeTx p } else d
    else d

/-- TRAINING_WORD_MAP: taken in step 5. -/
def Dev.wordMap (d : Dev) (p : Nat) (blk : Block) : Dev :=
  match trainOf 3 blk with
  | none => d
  | some t =>
    if (d.port p).state == .measuring && (d.port p).step = 5 then d.updPort p fun x => { x with peerMap := some t.body } else d

/-- TRAINING_WORD_ABORT: the port goes DOWN with the peer's reason (R122). -/
def Dev.wordAbort (d : Dev) (p : Nat) (blk : Block) : Dev :=
  match trainOf 4 blk with
  | none => d
  | some t =>
    let reason := t.body.toNat % 256
    if (d.port p).state == .training || (d.port p).state == .measuring then
      (d.portToDown p reason).portOutcome p reason
    else d

/-- TX_SLOT of a port in training: in steps 1 and 2 after a RETRAIN, slots that say so on the last map (R115); in step 3
the CAP word; in step 5 the RESULT words in turn, and the MAP once the transmit wavelengths are judged (R120, R121); in
step 6 slots with their markers (R62). A failed receive wavelength of the defect map is reported with all ones (R544). -/
def Dev.txTraining (d : Dev) (p : Nat) : Dev :=
  let x := d.port p
  match x.step with
  | 1 | 2 => match x.retrainOp with
    | some (w, map) => d.sendFill p w map 0x7000
    | none => d
  | 3 => d.sendTrain p 1 (d.capBody p) 0
  | 5 =>
    let d := d.updPort p fun x => { x with turn := (x.turn + 1) % 6 }
    if x.turn < 5 then
      d.sendTrain p 2 (if d.waveBad p x.turn then 0xFFFFFFFF else d.rawF .PORT_BER_ERR 0 p x.turn) x.turn
    else if x.peerErr.all (·.isSome) then
      let w := d.agreedWidth p
      d.sendTrain p 3 ((laneMap x.txFail x.spareEn w).toNat <<< 20 ||| widthCode w <<< 18) 0
    else d
  | 6 => if x.width = 0 then d else d.sendFill p x.width x.txMap 0
  | _ => d

end Sys2Proof.Machine
end

