-- ==== Sys2Proof/Machine/Rings.lean ====
section
/-! DEFINITION. Command, completion and event rings, doorbell passes, polling (13: R479-R494, R497-R503). -/

namespace Sys2Proof.Machine

/-! Rings -/

def FnSt.ring (f : FnSt) (r : Nat) : RingSt := tblGet RingSt.reset f.rings r
def Dev.ring (d : Dev) (h r : Nat) : RingSt := (d.fn h).ring r
def Dev.updRing (d : Dev) (h r : Nat) (g : RingSt → RingSt) : Dev :=
  d.updFn h fun f => { f with rings := tblPut RingSt.reset r (g (f.ring r)) f.rings }
def FnSt.cq (f : FnSt) (c : Nat) : CqSt := tblGet CqSt.reset f.cqs c
def Dev.updCq (d : Dev) (h c : Nat) (g : CqSt → CqSt) : Dev :=
  d.updFn h fun f => { f with cqs := tblPut CqSt.reset c (g (f.cq c)) f.cqs }

/-- The code of a ring state (R503). -/
def ringCode : RState → Nat
  | .disabled => 0 | .running => 1 | .stopping => 2 | .stopped => 3 | .error => 4

/-- Fields of a descriptor (R480). -/
def Desc.op (x : Desc) : Nat := byteAt x.bytes 0
def Desc.flags (x : Desc) : Nat := byteAt x.bytes 1
def Desc.part (x : Desc) : Nat := byteAt x.bytes 2 % 16
def Desc.seq (x : Desc) : Nat := leAt x.bytes 4 4
def Desc.buf (x : Desc) : Nat := leAt x.bytes 16 8
def Desc.buflen (x : Desc) : Nat := leAt x.bytes 24 4
/-- The n-byte argument at byte offset i. -/
def Desc.arg (x : Desc) (i n : Nat) : Nat := leAt x.bytes i n

/-- The memory-side dies a descriptor acts on. -/
def diesOf (x : Desc) : List Nat :=
  match x.op with
  | 6 => [x.arg 32 1]
  | 7 => [gDie (x.arg 28 4)]
  | 8 | 9 => [gDie (x.arg 28 4), gDie (x.arg 28 4 + x.buflen / 256 - 1)]
  | 0xA | 0xB | 0xC => if x.arg 28 1 = 4 then [x.arg 30 2] else []
  | 0xF => if x.arg 28 1 = 0 && x.arg 29 1 = 1 && x.arg 30 2 < 2 then [x.arg 30 2] else []
  | _ => []

/-- Ring r's entry of the status block, each field in one write (R498, R499). -/
def Dev.sbRing (d : Dev) (h r : Nat) : Dev :=
  let x := d.ring h r
  let o := 64 + 16 * r
  (((d.sbWrite h (o + 8) (leBytes 4 x.lastCompleted)).sbWrite h (o + 4) (leBytes 4 x.lastConsumed)).sbWrite
    h o (leBytes 4 x.cons)).sbWrite h (o + 12) (leBytes 1 (ringCode x.state) ++ leBytes 1 x.reason ++ leBytes 2 0)

/-- A STOPPING ring whose accepted descriptors have all completed becomes STOPPED or DISABLED (R503). A
completion that is still to be written keeps it STOPPING (R500). -/
def Dev.ringSettle (d : Dev) (h r : Nat) : Dev :=
  let x := d.ring h r
  if x.state == .stopping && x.accepted.isEmpty && x.active.isEmpty && x.done.isEmpty then
    (d.updRing h r fun x => { x with
      state := if x.disabling then .disabled else .stopped, disabling := false }).sbRing h r
  else d

/-- The descriptor in hand on a ring whose opcode a row names. -/
def Dev.inHand (d : Dev) (h r op : Nat) : Option Desc := (d.ring h r).active.find? fun x => x.op = op

/-- A descriptor completes (R492): it leaves the active ones and its completion waits to be written. -/
def Dev.complete (d : Dev) (x : Desc) (status reason result : Nat) : Dev :=
  d.updRing x.fn x.ring fun g => { g with
    active := g.active.filter fun y => y.order ≠ x.order
    done := g.done ++ [{ desc := x, status := status, reason := reason, result := result,
                         time := d.fabricTime }] }

def Dev.completeOk (d : Dev) (x : Desc) (result : Nat) : Dev := d.complete x 0 0 result
def Dev.refuse (d : Dev) (x : Desc) (reason : Nat) : Dev := d.complete x 2 reason 0

/-- The 32 bytes of a completion (R492). -/
def complBytes (c : Compl) (phase : Nat) : List (BitVec 8) :=
  leBytes 4 c.desc.seq ++ leBytes 1 c.status ++ leBytes 1 c.reason ++ leBytes 1 c.desc.ring ++
    leBytes 1 phase ++ (c.desc.bytes.drop 8).take 8 ++ leBytes 8 c.result ++ leBytes 8 c.time

/-- The vector of a completion ring is signalled at COAL_N (R494). -/
def Dev.cqSignal (d : Dev) (h c : Nat) : Dev :=
  if max 1 (d.fdF F.HOST_CQ_CFG_COAL_N h c 0) ≤ ((d.fn h).cq c).pend then
    (d.msixSend h (d.fdF F.HOST_CQ_CFG_VEC h c 0)).updCq h c fun q => { q with pend := 0 }
  else d

/-- COMPLETION_WRITE of ring r: completions go out in SEQ order; a full completion ring holds them and counts
the wait once (R484, R493); those bound for a function that is away are discarded (R500). -/
def Dev.complWrite (d : Dev) (h r : Nat) : Dev :=
  let x := d.ring h r
  let first := (x.active.map (·.order) ++ x.done.map (·.desc.order)).min?
  match x.done.find? fun c => some c.desc.order == first with
  | none => d
  | some c =>
    let q := d.fdF F.HOST_CR_CFG_CQ h r 0
    let f := d.fn h
    let size := 2 ^ ringExp (d.fdF F.HOST_CQ_CFG_SIZE_LOG2 h q 0)
    let t := f.cq q
    let wrote := fun (d : Dev) => ((d.updRing h r fun g => { g with
      done := g.done.filter fun y => y.desc.order ≠ c.desc.order, lastCompleted := c.desc.seq }).sbRing h r).ringSettle
        h r
    if !(f.linkUp && f.busMaster && !f.flr) then wrote d
    else if d.fdF F.HOST_CQ_CFG_EN h q 0 = 0 then d
    else if dist32 t.prod t.cons = size then
      if t.held then d else (d.updCq h q fun t => { t with held := true }).countF .HOST_CQ_FULL_CNT h q
    else
      let base := ringBase (d.fdF F.HOST_CQ_BASE_BASE h q 0) (32 * size)
      let d := (d.hostWrite h (base + 32 * (t.prod % size)) (complBytes c ((t.prod / size + 1) % 2))).updCq h q
        fun t => { t with
          prod := (t.prod + 1) % m32, held := false
          pend := if bitAt c.desc.flags 0 then t.pend + 1 else t.pend }
      (wrote d).cqSignal h q

/-- IRQ_COALESCE_TIMER of an event ring or a completion ring (R494). -/
def Dev.irqTimer (d : Dev) (h : Nat) (evt : Bool) (n : Nat) : Dev :=
  if evt then
    if 0 < ((d.fn h).eqOf n).pend && 0 < d.fdF F.HOST_EQ_CFG_COAL_T h n 0 then
      (d.msixSend h (d.fdF F.HOST_EQ_CFG_VEC h n 0)).updEq h n fun q => { q with pend := 0 }
    else d
  else if 0 < ((d.fn h).cq n).pend && 0 < d.fdF F.HOST_CQ_CFG_COAL_T h n 0 then
    (d.msixSend h (d.fdF F.HOST_CQ_CFG_VEC h n 0)).updCq h n fun q => { q with pend := 0 }
  else d

/-! Passes -/

/-- A command ring enters ERROR (R503): the ring event goes to the function that owns the ring. -/
def Dev.ringError (d : Dev) (h r reason : Nat) : Dev :=
  let e := (d.ring h r).expSeq
  ((d.updRing h r fun x => { x with state := .error, reason := reason }).postTo h
    { cls := 8, reason := reason, part := none, body := leBytes 1 r ++ leBytes 3 0 ++ leBytes 4 e }).sbRing h r

/-- Word i of a doorbell line. -/
def lineWord (line : BitVec 512) (i : Nat) : Nat := (line.extractLsb' (32 * i) 32).toNat

/-- A CR_PROD taken (R489). -/
def Dev.takeProd (d : Dev) (h r w : Nat) : Dev :=
  let x := d.ring h r
  let size := 2 ^ ringExp (d.fdF F.HOST_CR_CFG_SIZE_LOG2 h r 0)
  let far := decide (size < dist32 w x.cons)
  match x.state with
  | .running => if far then d.ringError h r 0xE7 else d.updRing h r fun x => { x with prod := w }
  | .stopping | .stopped => if far then d else d.updRing h r fun x => { x with prod := w }
  | _ => d

/-- A CQ_CONS taken, unless it lies ahead of what the device has written (R489). -/
def Dev.takeCqCons (d : Dev) (h c w : Nat) : Dev :=
  let q := (d.fn h).cq c
  if dist32 w q.cons ≤ dist32 q.prod q.cons then d.updCq h c fun q => { q with cons := w } else d

/-- An EQ_CONS taken. -/
def Dev.takeEqCons (d : Dev) (h e w : Nat) : Dev :=
  let q := (d.fn h).eqOf e
  if dist32 w q.cons ≤ dist32 q.prod q.cons then d.updEq h e fun q => { q with cons := w } else d

/-- TELE_CONS taken. -/
def Dev.takeTeleCons (d : Dev) (h w : Nat) : Dev :=
  let f := d.fn h
  if dist32 w f.teleCons ≤ dist32 f.teleProd f.teleCons then d.updFn h fun f => { f with teleCons := w } else d

/-- One line of the doorbell page taken (R486, R489). -/
def Dev.takeLine (d : Dev) (h j : Nat) (line : BitVec 512) : Dev :=
  if j ≤ 4 then d.forEach (List.range 16) fun d i => d.takeProd h (16 * (j - 1) + i) (lineWord line i)
  else if j ≤ 8 then d.forEach (List.range 16) fun d i => d.takeCqCons h (16 * (j - 5) + i) (lineWord line i)
  else (d.forEach (List.range 4) fun d e => d.takeEqCons h e (lineWord line e)).takeTeleCons h (lineWord line 4)

/-- A descriptor read at an index of a ring, if its read completed. -/
def findDesc (l : List DescRead) (r idx : Nat) : Option (BitVec 512) :=
  (l.find? fun x => x.ring.val = r && x.idx.toNat = idx).map (·.bytes)

/-- Up to n descriptors of ring r accepted (R482, R490); the read of one the pass was not given has failed
(R503). Before ready only NOP and IMAGE_STAGE are (15: R541). -/
def Dev.acceptRing (d : Dev) (h r : Nat) (l : List DescRead) : Nat → Dev
  | 0 => d
  | n + 1 =>
    let x := d.ring h r
    if x.state == .running && x.cons ≠ x.prod then
      match findDesc l r x.cons with
      | none => d.ringError h r 0xFB
      | some b =>
        let bytes := leBytes 64 b.toNat
        if !d.bit F.BOOT_STAT_READY && byteAt bytes 0 ≠ 0 && byteAt bytes 0 ≠ 0x11 then d
        else if leAt bytes 4 4 ≠ x.expSeq then d.ringError h r 0xE6
        else
          let desc : Desc := { fn := h, ring := r, bytes := bytes, order := d.accOrder,
                               prim := d.primary == some h, mcast := false, data := [] }
          let d := ({ d with accOrder := d.accOrder + 1 }).countF .HOST_DESC_CNT h
          let d := (d.updRing h r fun x => { x with
            cons := (x.cons + 1) % m32, expSeq := (x.expSeq + 1) % m32, lastConsumed := leAt bytes 4 4
            accepted := x.accepted ++ [desc] })
          d.acceptRing h r l n
    else d

/-- The intervals of polling after a pass (R491). -/
def Dev.schedulePoll (d : Dev) (h : Nat) (found : Bool) : Dev :=
  let lo := max 1 (d.fdF F.HOST_DB_CFG_POLL_MIN h 0 0)
  let hi := d.fdF F.HOST_DB_CFG_POLL_MAX h 0 0
  d.updFn h fun f => { f with
    poll := if d.fdF F.HOST_DB_CFG_POLL_EN h 0 0 = 0 then none
      else if found then some lo
      else match f.poll with
        | none => none
        | some t => if hi ≤ t then none else some (min hi (2 * t)) }

/-- db_pass of R488: the lines the summary names, which the Swap clears (in MODE 1 all), index checks, up to 16 descriptors from each
ring, in ascending order from the ring after the one served first before (R490). -/
def Dev.dbPass (d : Dev) (h : Nat) (summary : BitVec 64) (lines : List (BitVec 512)) (l : List DescRead) : Dev :=
  let swap := d.fdF F.HOST_DB_CFG_MODE h 0 0 = 0
  let s := if swap then summary.toNat else 0x3FE
  let d := if swap then d.emit (.hostSwap h (d.fdF F.HOST_DB_BASE_BASE h 0 0 / 4096 * 4096) 0) else d
  let d := d.forEach (List.range 9) fun d j =>
    if bitAt s (j + 1) then d.takeLine h (j + 1) (at_ 0 lines j) else d
  let before := d.accOrder
  let start := (d.fn h).first + 1
  let (d, first) := (List.range 64).foldl (fun (acc : Dev × Option Nat) k =>
    let r := (start + k) % 64
    let n := acc.1.accOrder
    let d := acc.1.acceptRing h r l 16
    let d := if d.accOrder = n then d else d.sbRing h r
    (d, if acc.2.isSome || d.accOrder = n then acc.2 else some r)) (d, none)
  let d := d.updFn h fun f => { f with first := first.getD f.first }
  d.schedulePoll h (d.accOrder ≠ before || (bitsOf s 9 1 ≠ 0 && swap))

/-- Can the ring engine reach the memory of function h? -/
def Dev.fnReach (d : Dev) (h : Nat) : Bool :=
  let f := d.fn h
  f.linkUp && f.busMaster && !f.flr

/-- HOST_KICK (R488, R491). -/
def Dev.hostKick (d : Dev) (h : Nat) : Dev :=
  (d.updFn h fun f => { f with
    kick := true
    poll := if d.fdF F.HOST_DB_CFG_POLL_EN h 0 0 = 1 then
        some (max 1 (d.fdF F.HOST_DB_CFG_POLL_MIN h 0 0)) else none }).countF .HOST_KICK_CNT h

/-- DOORBELL_PASS: runs for a pending kick. -/
def Dev.doorbell (d : Dev) (h : Nat) (summary : BitVec 64) (lines : List (BitVec 512)) (l : List DescRead) : Dev :=
  if (d.fn h).kick && d.fnReach h then
    (d.updFn h fun f => { f with kick := false }).dbPass h summary lines l
  else d

/-- POLL_TIMER: runs a pass while polling is on. -/
def Dev.pollTimer (d : Dev) (h : Nat) (summary : BitVec 64) (lines : List (BitVec 512)) (l : List DescRead) :
    Dev :=
  if (d.fn h).poll.isSome && d.fnReach h then
    (d.countF .HOST_POLL_CNT h).dbPass h summary lines l
  else d

/-- STATUS_HEARTBEAT: every 1 ms (R498). -/
def Dev.statusBeat (d : Dev) : Dev :=
  d.forEach [0, 1] fun d h =>
    let d := d.updFn h fun f => { f with beat := (f.beat + 1) % m32 }
    let f := d.fn h
    let own := d.fd F.HOST_OWN_STATE
    let prim := d.fd F.HOST_OWN_PRIMARY
    let offered := own == 1 && prim ≠ h
    d.sbWrite h 0 (leBytes 4 (d.fd F.HOST_EPOCH_EPOCH) ++ leBytes 4 f.beat ++ leBytes 8 d.fabricTime ++
      leBytes 1 (if own == 2 then 0xFF else prim) ++
      leBytes 1 (b2n (d.primary == some h) ||| b2n offered <<< 1) ++
      leBytes 2 ((List.range 16).foldl (fun a k => if d.partOwner k == some h then a + 2 ^ k else a) 0) ++
      leBytes 4 f.teleProd)

/-! Ring states (R503) -/

/-- EN ← 1: a DISABLED ring runs from START; so does a ring that an FLR left STOPPED with EN reset. -/
def Dev.ringEnable (d : Dev) (h r : Nat) : Dev :=
  let x := d.ring h r
  if x.state == .disabled || x.state == .stopped then
    let idx := d.fdF F.HOST_CR_START_IDX h r 0
    let seq := d.fdF F.HOST_CR_START_SEQ h r 0
    (d.updRing h r fun x => { x with
      state := .running, cons := idx, prod := idx, expSeq := seq, disabling := false
      lastConsumed := (seq + 4294967295) % m32, lastCompleted := (seq + 4294967295) % m32 }).sbRing h r
  else d

/-- EN ← 0: DISABLED once every accepted descriptor has completed. -/
def Dev.ringDisable (d : Dev) (h r : Nat) : Dev :=
  if (d.ring h r).state == .disabled then d
  else ((d.updRing h r fun x => { x with state := .stopping, disabling := true }).sbRing h r).ringSettle h r

/-- STOP. -/
def Dev.ringStop (d : Dev) (h r : Nat) : Dev :=
  if (d.ring h r).state == .running then
    ((d.updRing h r fun x => { x with state := .stopping, disabling := false }).sbRing h r).ringSettle h r
  else d

/-- RESUME. -/
def Dev.ringResume (d : Dev) (h r : Nat) : Dev :=
  if (d.ring h r).state == .stopped then (d.updRing h r fun x => { x with state := .running }).sbRing h r else d

/-! Starting a descriptor (R483, R484) -/

/-- Is completion ring c of function h full (R493)? -/
def Dev.cqFull (d : Dev) (h c : Nat) : Bool :=
  let q := (d.fn h).cq c
  dist32 q.prod q.cons == 2 ^ ringExp (d.fdF F.HOST_CQ_CFG_SIZE_LOG2 h c 0)

/-- Does completion ring c hold a completion for want of room (R493)? -/
def Dev.cqHolds (d : Dev) (h c : Nat) : Bool :=
  ((d.fn h).cq c).held || (d.cqFull h c &&
    (d.fn h).rings.any fun e => !e.2.done.isEmpty && d.fdF F.HOST_CR_CFG_CQ h e.1 0 == c)

/-- May the first accepted descriptor of a ring start (R480, R484, R493)? A TABLE_UPDATE may while its predecessor,
a TABLE_UPDATE too, is committed and drains. -/
def Dev.mayStart (d : Dev) (x : Desc) : Bool :=
  let g := d.ring x.fn x.ring
  (g.active.isEmpty || (x.op == 1 && match g.active.getLast? with
    | some y => d.core.updates.any fun u => u.order == y.order
    | none => true)) &&
  !d.cqHolds x.fn (d.fdF F.HOST_CR_CFG_CQ x.fn x.ring 0) &&
  !(bitAt x.flags 1 && (d.fn x.fn).rings.any fun e =>
    (e.2.accepted ++ e.2.active).any fun y => y.order < x.order)

/-- The ARGS bytes an opcode uses, from byte 28 on. -/
def argsUsed (op : Nat) : List Nat :=
  match op with
  | 0 => [] | 1 => [28] | 2 => [28, 29, 30] | 3 => [28, 29] | 4 => [28, 29] | 5 => [30]
  | 6 => [28, 29, 30, 31, 32, 33] | 7 => [28, 29, 30, 31] | 8 => [28, 29, 30, 31] | 9 => [28, 29, 30, 31]
  | 0xA => [28, 30, 31] | 0xB => [28, 29, 30, 31] | 0xC => [28, 29, 30, 31] | 0xD => [28, 30, 31]
  | 0xE => [28] | 0xF => [28, 29, 30, 31, 32, 33, 34, 35, 36, 37] | 0x10 => [28]
  | 0x11 => [28, 29, 30, 31, 32, 33] | _ => []

/-- Does an opcode use BUF? MAINT uses it for MARGIN (R606). -/
def usesBuf (x : Desc) : Bool :=
  [1, 2, 5, 8, 9, 0x10, 0x11].contains x.op || (x.op == 0xF && x.arg 28 1 == 0 && x.arg 29 1 == 2)

/-- Is the scope of FUNC and INDEX one of R507? -/
def scopeOk (func index : Nat) : Bool :=
  match func with
  | 1 => decide (index < 256)
  | 2 | 5 | 6 => index == 0
  | 3 => decide (index < 32)
  | 4 => decide (index < 2)
  | _ => false

/-- The entries of 16 bytes of a BUF. -/
def recs16 (bs : List (BitVec 8)) (n : Nat) : List (List (BitVec 8)) :=
  (List.range n).map fun i => (bs.drop (16 * i)).take 16

/-- Step 1 of R483: reserved opcode, reserved bytes and flags, BUF, arguments out of range. -/
def badFields (x : Desc) : Bool :=
  let op := x.op
  decide (0x12 ≤ op) || decide (4 ≤ x.flags) || decide (16 ≤ byteAt x.bytes 2) || byteAt x.bytes 3 ≠ 0 ||
  x.buf % 64 ≠ 0 || (!(usesBuf x) && (x.buf ≠ 0 || x.buflen ≠ 0)) ||
  ((List.range 36).any fun i => !((argsUsed op).contains (28 + i)) && byteAt x.bytes (28 + i) ≠ 0) ||
  ((op == 2 || op == 3 || op == 4) && 4096 ≤ x.arg 28 2) ||
  ((op == 2 || op == 5) && 32 ≤ x.arg 30 1) ||
  (op == 1 && !(1 ≤ x.arg 28 1 && x.arg 28 1 ≤ 64)) ||
  (op == 6 && (2 ≤ x.arg 32 1 || 4 ≤ x.arg 33 1)) ||
  ((op == 8 || op == 9) && (x.buflen % 256 ≠ 0 || !(256 ≤ x.buflen && x.buflen ≤ 2 ^ 24))) ||
  ((op == 0xA || op == 0xB || op == 0xC) && !(scopeOk (x.arg 28 1) (x.arg 30 2))) ||
  (op == 0xB && 2 ≤ x.arg 29 1) ||
  (op == 0xD && (!(1 ≤ x.arg 28 1 && x.arg 28 1 ≤ 4) || (x.arg 28 1 ≠ 4 && x.arg 30 2 ≠ 0) ||
    256 ≤ x.arg 30 2)) ||
  (op == 0xE && 4 ≤ x.arg 28 1) ||
  (op == 0xF && (2 ≤ x.arg 28 1 || (x.arg 28 1 == 0 && (!(1 ≤ x.arg 29 1 && x.arg 29 1 ≤ 6) ||
    (x.arg 29 1 == 2 && x.buflen < 640))))) ||
  (op == 0x10 && !(1 ≤ x.arg 28 1 && x.arg 28 1 ≤ 32)) ||
  (op == 0x11 && (4 ≤ x.arg 32 1 || 2 ≤ x.arg 33 1 || x.buflen % 256 ≠ 0 ||
    !(256 ≤ x.buflen && x.buflen ≤ 2 ^ 24)))

end Sys2Proof.Machine
end

