-- ==== Sys2Proof/Machine/Sparse.lean ====
section
/-! DEFINITION. Sparse forms (10: R390-R398, R404): checking, decoding and encoding flits. -/

namespace Sys2Proof.Machine

/-- Element bytes of a format that travels in sparse forms, 0 for the others (R390). -/
def sparseB (fmt : Nat) : Nat :=
  match fmt with
  | 1 | 9 => 4 | 2 | 3 => 2 | 4 | 5 => 1 | _ => 0

/-- The PAIR-IN-FOUR limit of R390. -/
def p4fMax (fmt : Nat) : Nat :=
  match sparseB fmt with
  | 4 => 3 | 2 => 7 | 1 => 12 | _ => 0

/-- START and NSEG of a sparse header (R391). -/
def spStart (p : Payload) : Nat := plByte p 0
def spNseg (p : Payload) : Nat := plByte p 1

/-- The number of set bits of a 32-bit mask. -/
def popcount32 (m : Nat) : Nat := ((List.range 32).filter fun i => bitAt m i).length

/-- Bit e of segment s's mask in a BITMAP payload (R392). -/
def bmBit (p : Payload) (s e : Nat) : Bool := bitAt (plLe p (4 + 4 * s) 4) e

/-- The codes (c0, c1) of group g in a PAIR-IN-FOUR payload (R393). -/
def p4Codes (p : Payload) (g : Nat) : Nat × Nat :=
  let n := plByte p (4 + g / 2) >>> (4 * (g % 2))
  (n % 4, (n >>> 2) % 4)

/-- Value v of a PAIR-IN-FOUR payload with elements of b bytes. -/
def p4Val (p : Payload) (b v : Nat) : Nat := plLe p (4 + 4 * spNseg p + b * v) b

/-- The bytes a sparse payload uses (R392, R393). -/
def spUsed (fmt form : Nat) (p : Payload) : Nat :=
  let n := spNseg p
  if form = 2 then 4 + n * (4 + 16 * sparseB fmt)
  else 4 + 4 * n + sparseB fmt * ((List.range n).map fun s => popcount32 (plLe p (4 + 4 * s) 4)).sum

/-- The element codes of each segment a sparse payload covers, +0 where absent (R392-R394). -/
def spSegs (fmt form : Nat) (p : Payload) : List (List Nat) :=
  let b := sparseB fmt
  let n := spNseg p
  if form = 2 then
    (List.range n).map fun s => (List.range 32).map fun e =>
      let g := 8 * s + e / 4
      let (c0, c1) := p4Codes p g
      if e % 4 = c0 then p4Val p b (2 * g) else if e % 4 = c1 then p4Val p b (2 * g + 1) else 0
  else
    ((List.range n).foldl (fun (acc : List (List Nat) × Nat) s =>
      let (seg, at_) := (List.range 32).foldl (fun (a : List Nat × Nat) e =>
        if bmBit p s e then (plLe p a.2 b :: a.1, a.2 + b) else (0 :: a.1, a.2)) ([], acc.2)
      (seg.reverse :: acc.1, at_)) ([], 4 + 4 * n)).1.reverse

/-- Does a sparse payload name a non-zero element at or beyond L (R404)? A set mask bit counts; a filled +0
value does not. -/
def spBeyond (fmt form : Nat) (p : Payload) (ofs l : Nat) : Bool :=
  let first := ofs * segsPer fmt + spStart p
  if form = 2 then
    (spSegs fmt form p).zipIdx.any fun s => s.1.zipIdx.any fun e =>
      e.1 ≠ 0 && decide (l ≤ 32 * (first + s.2) + e.2)
  else (List.range (spNseg p)).any fun s => (List.range 32).any fun e =>
    bmBit p s e && decide (l ≤ 32 * (first + s) + e)

/-- check_sparse of R404 for a BITMAP or PAIR-IN-FOUR payload against an operand of l elements: the reason (0:
none), and the group index of a code error. -/
def checkSparse (fmt form : Nat) (p : Payload) (ofs l : Nat) : Nat × Nat :=
  let d := segsPer fmt
  let n := spNseg p
  if sparseB fmt = 0 then (0xA0, 0)
  else if d ≤ spStart p || n = 0 || (if form = 2 then p4fMax fmt else 2 * d) < n || plByte p 2 ≠ 0 ||
      plByte p 3 ≠ 0 then (0xA1, 0)
  else
    let badGroup := if form = 2 then
        (List.range (8 * n)).find? fun g => (p4Codes p g).2 ≤ (p4Codes p g).1
      else none
    match badGroup with
    | some g => (0xA3, g)
    | none =>
      let e := spUsed fmt form p
      if 256 < e then (0xA5, 0)
      else if p.toNat >>> (8 * e) ≠ 0 then (0xA6, 0)
      else if ceilDiv l 32 < ofs * d + spStart p + n || spBeyond fmt form p ofs l then (0xA4, 0)
      else (0, 0)

/-- The segments a flit covers, first and count, in the segments of its message (R391). -/
def flitSpan (fmt form ofs : Nat) (p : Payload) : Nat × Nat :=
  let d := segsPer fmt
  if form = 1 || form = 2 then (ofs * d + spStart p, spNseg p) else (ofs * d, d)

/-- The little-endian payload bits of one segment of a plain format with b-byte elements. -/
def segBits (b : Nat) (seg : List Nat) : Nat :=
  seg.zipIdx.foldl (fun a e => a ||| e.1 <<< (8 * b * e.2)) 0

/-- The element codes of segment s of a dense payload. -/
def denseSeg (fmt : Nat) (p : Payload) (s : Nat) : List Nat :=
  (List.range 32).map fun e => elemBits fmt p (32 * s + e)

/-! The encoder (R396, R397) -/

/-- Has a segment no group of four with three or more non-zeros? -/
def pairable (seg : List Nat) : Bool :=
  (List.range 8).all fun g => ((seg.drop (4 * g)).take 4).countP (· ≠ 0) ≤ 2

/-- p4f_run of R397 over the segments from pos on. -/
def p4fRun (cap : Nat) (segs : List (List Nat)) : Nat := ((segs.take cap).takeWhile pairable).length

/-- bitmap_fit of R397: the largest count of segments that fits, at least 1. -/
def bitmapFit (b cap : Nat) (segs : List (List Nat)) : Nat :=
  let nz := segs.map fun s => s.countP (· ≠ 0)
  max 1 (((List.range (min cap segs.length + 1)).filter fun k =>
    4 + 4 * k + b * (nz.take k).sum ≤ 256).foldl max 0)

/-- The form of the next flit and the segments it covers, and whether it counts a fallback (R397). enc 1 is
automatic, 2 declared. -/
def nextFlit (fmt enc pos : Nat) (segs : List (List Nat)) : Nat × Nat × Bool :=
  let d := segsPer fmt
  let kp := p4fRun (p4fMax fmt) segs
  let kb := bitmapFit (sparseB fmt) (2 * d) segs
  let atB := pos % d == 0
  if enc == 2 && 1 ≤ kp then (2, kp, false)
  else if enc == 1 then
    if atB && max kp kb ≤ d then (0, d, false) else if kb ≤ kp then (2, kp, false) else (1, kb, false)
  else if atB && kb ≤ d then (0, d, true)
  else (1, min kb (d - pos % d), true)

/-- Do the segments from pos that are there decide the next flit, whatever the others to stop hold (R397)? The runs that
its choice rests on end before them or reach their limits. -/
def encReady (fmt enc pos stop : Nat) (segs : List (List Nat)) : Bool :=
  let d := segsPer fmt
  let h := segs.length
  let kp := p4fRun (p4fMax fmt) segs
  let kb := bitmapFit (sparseB fmt) (2 * d) segs
  let sp := decide (kp < h) || kp == p4fMax fmt
  0 < h && (decide (min stop (pos + 2 * d) ≤ pos + h) ||
    (if enc == 2 && 1 ≤ kp then sp
     else if enc == 1 then sp && decide (kb < h)
     else decide (kb < h) || (pos % d != 0 && decide (d - pos % d ≤ kb))))

/-- The code pair of a group of four: the positions of its non-zeros, filled up with the lowest others
(R395). -/
def pairOf (g : List Nat) : Nat × Nat :=
  let nz := (List.range 4).filter fun i => g.getD i 0 ≠ 0
  let z := (List.range 4).filter fun i => g.getD i 0 = 0
  match nz, z with
  | [a, b], _ => (a, b)
  | [a], b :: _ => (min a b, max a b)
  | _, a :: b :: _ => (a, b)
  | _, _ => (0, 1)

/-- A sparse payload over the given segments from START (R391-R395). -/
def spPayload (fmt form start : Nat) (segs : List (List Nat)) : Payload :=
  let b := sparseB fmt
  let n := segs.length
  let head := [BitVec.ofNat 8 start, BitVec.ofNat 8 n, 0, 0]
  if form = 2 then
    let groups := (segs.map fun s => (List.range 8).map fun g => (s.drop (4 * g)).take 4).flatten
    let codes := groups.zipIdx.foldl (fun a g =>
      let (c0, c1) := pairOf g.1
      a ||| (c0 ||| c1 <<< 2) <<< (4 * g.2)) 0
    payloadOf (head ++ leBytes (4 * n) codes ++ (groups.map fun g =>
      leBytes b (g.getD (pairOf g).1 0) ++ leBytes b (g.getD (pairOf g).2 0)).flatten)
  else
    payloadOf (head ++ (segs.map fun s => leBytes 4 (s.zipIdx.foldl (fun a e =>
        if e.1 ≠ 0 then a + 2 ^ e.2 else a) 0)).flatten ++
      (segs.map fun s => ((s.filter (· ≠ 0)).map (leBytes b)).flatten).flatten)

/-- A flit out of an encoder: its form, OFS relative to the stream, and payload. -/
structure EncFlit where
  form : Nat
  ofs : Nat
  payload : Payload
  deriving DecidableEq, Repr

/-- One flit taken off a stream whose segments from pos to its end are segs: the flit, the segments it takes,
and whether it counts a fallback (R396-R398). A dense flit holds the d segments of its dense flit. -/
def encodeOne (fmt enc pos : Nat) (segs : List (List Nat)) : EncFlit × Nat × Bool :=
  let d := segsPer fmt
  let (form, n, fb) := nextFlit fmt enc pos segs
  if form = 0 then
    ({ form := 0, ofs := pos / d,
       payload := BitVec.ofNat 2048 (segBits (sparseB fmt) (segs.take d).flatten) }, n, fb)
  else
    ({ form := form, ofs := pos / d, payload := spPayload fmt form (pos % d) (segs.take n) }, n, fb)

/-- A whole stream encoded, with the fallbacks counted; fuel bounds the flits. -/
def encodeFrom (fmt enc : Nat) : Nat → Nat → List (List Nat) → List EncFlit × Nat
  | 0, _, _ => ([], 0)
  | fuel + 1, pos, segs =>
    if segs.isEmpty then ([], 0)
    else
      let (f, n, fb) := encodeOne fmt enc pos segs
      let (rest, k) := encodeFrom fmt enc fuel (pos + n) (segs.drop n)
      (f :: rest, k + b2n fb)

/-- The stream of the dense payloads ps (R396); formats that travel dense only give dense flits (R398). -/
def encodeStream (fmt enc : Nat) (ps : List Payload) : List EncFlit × Nat :=
  if enc = 0 || enc = 3 || sparseB fmt = 0 then
    (ps.zipIdx.map fun p => { form := 0, ofs := p.2, payload := p.1 }, 0)
  else
    let segs := (ps.map fun p => (List.range (segsPer fmt)).map (denseSeg fmt p)).flatten
    encodeFrom fmt enc segs.length 0 segs

end Sys2Proof.Machine
end

