-- ==== Sys2Proof/Machine/Contexts.lean ====
section
/-! DEFINITION. Contexts: set-up, contributions, canonical combining, emission, first-arrival modes (06:
R224-R243; 10: R396-R412; 11: R434-R438). -/

namespace Sys2Proof.Machine

/-! Set-up (R225-R227, R238, R239) -/

/-- The tree descriptor in a buffer (R225). -/
def treeOf (bs : List (BitVec 8)) : TreeDesc :=
  { role := byteAt bs 2, nchild := byteAt bs 3, op := byteAt bs 4, inFmt := byteAt bs 5, upFmt := byteAt bs 6,
    outFmt := byteAt bs 7, round := byteAt bs 8, win := byteAt bs 9, prog := leAt bs 10 2,
    nelem := leAt bs 12 4, parentId := leAt bs 16 2, upCtx := leAt bs 18 2 % 4096, upRank := leAt bs 20 2,
    resBase := leAt bs 22 2, seed := leAt bs 24 8, tmo := leAt bs 32 4, block := leAt bs 36 4
    children := (List.range (byteAt bs 3)).map fun k =>
      { rank := leAt bs (64 + 8 * k) 2, src := leAt bs (66 + 8 * k) 2 } }

/-- Does OP accept the input format (R333)? 0 sum, 1 max, 2 min, 3 OR. -/
def opAccepts (op fmt : Nat) : Bool :=
  if op = 3 then fmt == 9 else decide (op < 3) && decide (1 ≤ fmt) && decide (fmt ≤ 0xA)

/-- Is an output format in the output column for an input format (R333)? -/
def outColumn (inF outF : Nat) : Bool :=
  if inF = 9 then outF == 9
  else decide (1 ≤ inF) && decide (inF ≤ 0xA) && decide (1 ≤ outF) && decide (outF ≤ 0xA) && outF != 9

/-- The constraints of R238; mcast: the R_MODE of the context's CORE_CTX is multicast (R239). -/
def progOk (mcast : Bool) (t : TreeDesc) : Bool :=
  match t.prog with
  | 1 => t.role == 0 || mcast
  | 3 => t.block != 0 && (t.role == 0 || t.block % epf t.outFmt == 0) && t.nelem % t.block == 0
  | 4 => t.role == 1 && t.outFmt == t.inFmt && t.block != 0 && t.block % epf t.inFmt == 0 &&
      t.nelem % t.block == 0
  | _ => true

/-- The checks of R227 that refuse with 0xC6; NELEM 0 lies outside its range too (log entry 29). -/
def Dev.treeOk (d : Dev) (mcast : Bool) (tile part buflen : Nat) (t : TreeDesc) : Bool :=
  decide (t.role ≤ 1) && decide (t.op ≤ 3) && decide (t.inFmt ≤ 0xA) && decide (t.round ≤ 1) &&
  (t.prog == 1 || t.prog == 2 || t.prog == 3 || t.prog == 4 ||
    (decide (0x8000 ≤ t.prog) && decide (t.prog ≤ 0x8FFF))) &&
  t.nelem != 0 && opAccepts t.op t.inFmt && outColumn t.inFmt (if t.role = 0 then t.upFmt else t.outFmt) &&
  decide (64 ≤ buflen) && buflen == 64 + 8 * t.nchild &&
  (if t.prog = 4 then t.nchild == 0 else decide (1 ≤ t.nchild) && decide (t.nchild ≤ 64)) &&
  decide (1 ≤ t.win) && decide (t.win ≤ 32) &&
  (t.children.zip (t.children.drop 1)).all (fun p => decide (p.1.rank < p.2.rank)) &&
  decide (t.footprint ≤ 32768) && d.fd F.TILE_PART_PART tile == part && progOk mcast t

/-- A context set up on a tile (R228, R256): ARMED at E = 0, in a free slot if there is one. -/
def Dev.setupCtx (d : Dev) (c tile part : Nat) (t : TreeDesc) : Dev :=
  let slot := d.freeSlot tile
  let d := ((d.clearExc c).setRawF .TILE_CTX_ENC 0 c 0 0).setRawF .TILE_CTX_FA 0 c 0 0
  d.updCtx c fun _ => { CtxSt.reset with state := .armed, part := part, tile := tile, desc := t, slot := slot }

/-- A context that has been set up without a slot is written to its spill slot (R256); over a failed die link it faults
(R19). -/
def setupSpill (c : Nat) (m : Mem) (d : Dev) : Mem × Dev :=
  if (d.ctx c).slot.isSome then (m, d)
  else if d.d2dFailed (c % 2) then (m, d.ctxFault c 0xE4)
  else spillWrite c m d

/-- The CTX_SETUP descriptor (R227). -/
def ctxSetup (m : Mem) (d : Dev) (x : Desc) : Mem × Dev :=
  let c := x.arg 28 2 % 4096
  let tile := x.arg 30 1 % 32
  let t := treeOf x.data
  if (d.ctx c).state != .free then (m, d.refuse x 0xC8)
  else if d.treeOk x.mcast tile x.part x.buflen t then
    let (m, d) := setupSpill c m (d.setupCtx c tile x.part t)
    (m, d.completeOk x 0)
  else (m, d.refuse x 0xC6)

/-- The CTX_FREE descriptor (R228, R261). -/
def Dev.ctxFree (d : Dev) (x : Desc) : Dev :=
  let c := x.arg 28 2 % 4096
  let y := d.ctx c
  match y.state with
  | .free => d.refuse x 0xC7
  | .open_ => d.complete x 4 0 0
  | _ =>
    (if y.spilling || y.restoring then d.updCtx c fun y => { y with pendFree := true } else d.freeCtx c).completeOk x 0

/-- The CTX_ABORT descriptor (R228, R261). -/
def Dev.ctxAbort (d : Dev) (x : Desc) : Dev :=
  let c := x.arg 28 2 % 4096
  match (d.ctx c).state with
  | .free => d.refuse x 0xC7
  | _ => (d.ctxFault c 0xC9).completeOk x 0

/-! Emission (R235-R238, R378, R396) -/

/-- The source of flits a logical tile sends. -/
def srcTile (i : Nat) : Source := .tile (Fin.ofNat 32 i)

/-- The output format of a context (R225). -/
def TreeDesc.outF (t : TreeDesc) : Nat := if t.role = 0 then t.upFmt else t.outFmt

/-- One flit of an instance's output leaves its tile: form, OFS and payload; key is the leaf rank of a
reduce-scatter (R235, R236, R238, R399). -/
def Dev.emitFlit (d : Dev) (c key : Nat) (f : EncFlit) : Dev :=
  let x := d.ctx c
  let t := x.desc
  let base : Flit := { Flit.idle with
    part := BitVec.ofNat 4 x.part, src := BitVec.ofNat 16 d.selfId, mseq := BitVec.ofNat 16 x.e
    ofs := BitVec.ofNat 32 f.ofs, fmt := BitVec.ofNat 5 t.outF, form := BitVec.ofNat 2 f.form
    payload := f.payload }
  let g : Flit := if t.role = 0 then
      { base with
        type := 2, vl := 3, dst := BitVec.ofNat 16 t.parentId, ctx := BitVec.ofNat 12 t.upCtx
        rank := BitVec.ofNat 16 t.upRank }
    else
      { base with
        type := 3, vl := 4, ctx := BitVec.ofNat 12 c
        dst := BitVec.ofNat 16 (match t.prog with
          | 1 => d.selfId
          | 2 => t.parentId
          | _ => t.resBase + key) }
  (d.count .TILE_SPARSE_TX_CNT x.tile f.form).srcPush (srcTile x.tile) g

/-- The encoder of a built-in output stream takes what it can decide (R396, R397); nfl is the stream's flits,
fuel bounds the flits taken. -/
def Dev.drainEnc (d : Dev) (c key nfl : Nat) : Nat → Dev
  | 0 => d
  | fuel + 1 =>
    let x := d.ctx c
    let fmt := x.desc.outF
    let dd := segsPer fmt
    let stop := nfl * dd
    let segs := ((x.encBuf.map fun p => (List.range dd).map (denseSeg fmt p)).flatten).drop (x.encPos % dd)
    if stop ≤ x.encPos then d.updCtx c fun x => { x with encBuf := [], encPos := 0 }
    else if !(encReady fmt x.enc x.encPos stop segs) then d
    else
      let (f, n, fb) := encodeOne fmt x.enc x.encPos segs
      let d := if fb then d.count .TILE_P4F_FALLBACK_CNT x.tile else d
      let d := d.emitFlit c key f
      let d := d.updCtx c fun x => { x with
        encPos := x.encPos + n, encBuf := x.encBuf.drop ((x.encPos + n) / dd - x.encPos / dd) }
      d.drainEnc c key nfl fuel

/-- Output flit u of an instance converted and handed to the encoder; o is the position whose fold completed it
(R235, R378, R383). -/
def Dev.emitOut (d : Dev) (c u o : Nat) (es : List Elem) : Dev :=
  let x := d.ctx c
  let t := x.desc
  let fmt := t.outF
  let eo := epf fmt
  let (p, fls) := convFlit fmt es fun j =>
    if t.round = 1 then some (srBits t.seed (x.e * m32 + u * eo + j)) else none
  let d := fls.zipIdx.foldl (fun d e =>
    d.raise c 0 e.1 0xFFFFFFFF (u * eo + e.2) 0 0 true (((2 * o + 1) * m32) * m32 + u * eo + e.2)) d
  let scatter := t.prog == 3 && t.role == 1
  let nfl := if scatter then t.block / eo else ceilDiv t.nelem eo
  let key := if scatter then u / nfl else 0
  let pos := if scatter then u % nfl else u
  if x.enc = 0 || sparseB fmt = 0 then d.emitFlit c key { form := 0, ofs := pos, payload := p }
  else
    (d.updCtx c fun x => { x with encBuf := x.encBuf ++ [p] }).drainEnc c key nfl (nfl * segsPer fmt + 1)

/-- Output flits that are complete leave in ascending order; fuel bounds them. -/
def Dev.emitReady (d : Dev) (c o : Nat) : Nat → Dev
  | 0 => d
  | fuel + 1 =>
    let x := d.ctx c
    let eo := epf x.desc.outF
    if x.outNext < ceilDiv x.desc.nelem eo && (eo ≤ x.outBuf.length || x.base == x.desc.flits) then
      let es := x.outBuf.take eo
      let d := d.updCtx c fun x => { x with outBuf := x.outBuf.drop eo, outNext := x.outNext + 1 }
      (d.emitOut c x.outNext o es).emitReady c o fuel
    else d

/-! Folding (R234, R435, R437) -/

/-- The state of a context between instances. -/
def CtxSt.fresh (x : CtxSt) : CtxSt :=
  { x with
    base := 0, next := [], cov := [], part_ := [], held := [], acc := [], ready := [], outBuf := []
    outNext := 0, encBuf := [], encPos := 0, srCnt := 0, foldSet := [], firstTaken := 0, unfreed := [] }

/-- The instance closes (R228): ARMED, E + 1. -/
def Dev.closeCtx (d : Dev) (c : Nat) : Dev :=
  d.updCtx c fun x => { x.fresh with
    state := .armed, e := (x.e + 1) % 65536, prevQuorum := x.faMode == 1, saved := none }

/-- The elements of position o that lie in the instance (R232). -/
def TreeDesc.elemsAt (t : TreeDesc) (o : Nat) : Nat := min (epf t.inFmt) (t.nelem - o * epf t.inFmt)

/-- One child's dense flit folded into the accumulator of position o: the first value becomes it unchanged
(R234); order is its place in the folds of o (R383, R437). -/
def Dev.foldOne (d : Dev) (c o k order : Nat) (p : Payload) : Dev :=
  let x := d.ctx c
  let t := x.desc
  let n := t.elemsAt o
  let es := (List.range n).map (expandElem t.inFmt p)
  let acc := tblGet [] x.acc o
  let rs := if order = 0 then es
    else (acc.zip es).map fun ae =>
      let (r, fl) := combine t.op (t.inFmt == 9) ae.1 ae.2.1
      (r, ae.2.2 ||| fl)
  let d := d.updCtx c fun x => { x with acc := tblPut [] o (rs.map (·.1)) x.acc }
  rs.zipIdx.foldl (fun d e =>
    d.raise c 0 e.1.2 k (o * epf t.inFmt + e.2) 0 0 true ((2 * o * m32 + order) * m32 + e.2)) d

/-- Positions folded are emitted in ascending order, and base advances past them (R231, R235, R435); the
instance closes after the last. fuel bounds the positions. -/
def Dev.advance (d : Dev) (c : Nat) : Nat → Dev
  | 0 => d
  | fuel + 1 =>
    let x := d.ctx c
    let o := x.base
    if x.ready.contains o then
      let d := d.updCtx c fun x => { x with
        ready := x.ready.filter fun y => y ≠ o, base := o + 1
        outBuf := x.outBuf ++ tblGet [] x.acc o, acc := tblPut [] o [] x.acc
        ndet := if x.faMode ≠ 0 then min 0xFFFF (x.ndet + 1) else x.ndet }
      let d := if x.faMode ≠ 0 then d.count .TILE_NDET_CNT x.tile else d
      let d := d.emitReady c o (x.desc.nelem + 1)
      if o + 1 = x.desc.flits then d.closeCtx c else d.advance c fuel
    else d

/-- Held flits of position o folded in child-record order while the next child's is there (R234). -/
def Dev.foldNext (d : Dev) (c o : Nat) : Nat → Dev
  | 0 => d
  | fuel + 1 =>
    let x := d.ctx c
    let n := tblGet 0 x.next o
    match x.held.find? fun h => h.ofs = o && h.child = n with
    | none => d
    | some h =>
      let d := d.foldOne c o n n h.pay
      (d.updCtx c fun x => { x with
        held := x.held.filter fun y => !(y == h), next := tblPut 0 o (n + 1) x.next }).foldNext c o fuel

/-- A position is folded: it waits for base, which may be it. -/
def Dev.positionDone (d : Dev) (c o : Nat) : Dev :=
  let d := d.updCtx c fun x => { x with ready := x.ready ++ [o] }
  d.advance c (d.ctx c).ready.length

/-- A complete dense flit of child k at position o enters the fold in the mode of the instance. -/
def Dev.foldIn (d : Dev) (c k o : Nat) (p : Payload) : Dev :=
  let x := d.ctx c
  match x.faMode with
  | 1 =>
    let fs := tblGet [] x.foldSet o ++ [k]
    let d := d.updCtx c fun x => { x with
      foldSet := tblPut [] o fs x.foldSet, held := x.held ++ [{ ofs := o, child := k, pay := p }] }
    if fs.length = x.faQ then
      let members := (List.range x.desc.nchild).filter fun k => fs.contains k
      let d := members.zipIdx.foldl (fun d m =>
        match (d.ctx c).held.find? fun h => h.ofs = o && h.child = m.1 with
        | some h => d.foldOne c o m.1 m.2 h.pay
        | none => d) d
      (d.updCtx c fun x => { x with held := x.held.filter fun h => h.ofs ≠ o }).positionDone c o
    else d
  | 2 =>
    let n := tblGet 0 x.next o
    let d := (d.foldOne c o k n p).updCtx c fun x => { x with next := tblPut 0 o (n + 1) x.next }
    if n + 1 = x.desc.nchild then d.positionDone c o else d
  | _ =>
    let d := (d.updCtx c fun x => { x with held := x.held ++ [{ ofs := o, child := k, pay := p }] }).foldNext c o
      x.desc.nchild
    if tblGet 0 (d.ctx c).next o = x.desc.nchild then d.positionDone c o else d

/-! Taking a contribution (R231, R405, R436) -/

/-- An instance opens with its first contribution (R228); settings written since the last apply (R423, R434,
R438). -/
def Dev.openCtx (d : Dev) (c : Nat) : Dev :=
  let t := (d.ctx c).desc
  let e := if t.role = 0 then d.fd F.TILE_CTX_ENC_UP_ENC c else d.fd F.TILE_CTX_ENC_RES_ENC c
  let q := d.fd F.TILE_CTX_FA_Q c
  let q := if q = 0 || t.nchild < q then t.nchild else q
  let m := d.fd F.TILE_CTX_FA_MODE c
  let m := if t.user || t.gather || m = 3 || (m = 1 && q = t.nchild) || (m = 2 && t.nchild = 1) then 0 else m
  d.updCtx c fun x => { x.fresh with state := .open_, enc := if e = 3 then 0 else e, faMode := m, faQ := q }

/-- The dense flits a contribution touches: (OFS, mask of its covered segments) in ascending order (R405). -/
def touched (fmt form ofs : Nat) (p : Payload) : List (Nat × Nat) :=
  let d := segsPer fmt
  let (s0, n) := flitSpan fmt form ofs p
  (List.range (if n = 0 then 0 else (s0 + n - 1) / d + 1 - s0 / d)).map fun j =>
    let o := s0 / d + j
    (o, (List.range d).foldl (fun m b =>
      if decide (s0 ≤ o * d + b) && decide (o * d + b < s0 + n) then m + 2 ^ b else m) 0)

/-- The dense bits a flit gives dense flit o. -/
def denseBits (fmt form ofs : Nat) (p : Payload) (o : Nat) : Nat :=
  if form = 1 || form = 2 then
    let b := sparseB fmt
    let d := segsPer fmt
    let first := ofs * d + spStart p
    (spSegs fmt form p).zipIdx.foldl (fun a s =>
      if (first + s.2) / d = o then a ||| segBits b s.1 <<< (8 * b * 32 * ((first + s.2) % d)) else a) 0
  else p.toNat

/-- Late under QUORUM (R436): of this instance and outside a full fold set that it touches, or of the previous
instance when that closed under QUORUM. -/
def CtxSt.late (x : CtxSt) (f : Flit) (k : Option Nat) : Bool :=
  (x.prevQuorum && f.mseq.toNat == (x.e + 65535) % 65536) ||
  (x.state == .open_ && x.faMode == 1 && f.mseq.toNat == x.e &&
    match k with
    | none => false
    | some k => (touched x.desc.inFmt f.form.toNat f.ofs.toNat f.payload).any fun t =>
        let fs := tblGet [] x.foldSet t.1
        fs.length == x.faQ && !(fs.contains k))

/-- The first form failure on a tile is captured (R412, R424). -/
def Dev.formCap (d : Dev) (i c : Nat) (f : Flit) (reason item : Nat) : Dev :=
  let d := (d.count .TILE_FORM_FAULT_CNT i).heatFlag F.TILE_FORM_CAP_VALID i 0 1
  if d.bit F.TILE_FORM_CAP_VALID i then d
  else (d.setRawF .TILE_FORM_CAP 0 i 0 (reason <<< 56 ||| c <<< 44 ||| f.rank.toNat <<< 28 |||
    f.form.toNat <<< 26 ||| 1 <<< 15 ||| item % 256)).setRawF .TILE_FORM_CAP_OFS 0 i 0 f.ofs.toNat

/-- The re-emission of a contribution at the root of an all-gather (R236, R238, R409). -/
def Dev.gatherEmit (d : Dev) (c : Nat) (f : Flit) : Dev :=
  let x := d.ctx c
  let t := x.desc
  let g : Flit := { f with
    type := 3, vl := 4, exp := false, src := BitVec.ofNat 16 d.selfId, dst := BitVec.ofNat 16 d.selfId
    ctx := BitVec.ofNat 12 c, rank := 0, mseq := BitVec.ofNat 16 x.e, part := BitVec.ofNat 4 x.part
    ofs := BitVec.ofNat 32 (f.rank.toNat * (t.block / epf t.inFmt) + f.ofs.toNat)
    lseq := 0, lack := 0, cred := 0, cvl := 0, rsv5 := 0, rsv6 := 0, hcrc := 0 }
  let n := (flitSpan t.inFmt f.form.toNat f.ofs.toNat f.payload).2
  let d := (if f.form.toNat < 3 then d.count .TILE_SPARSE_TX_CNT x.tile f.form.toNat else d).srcPush
    (srcTile x.tile) g
  let d := d.updCtx c fun x => { x with outNext := x.outNext + n }
  if t.nelem / 32 ≤ (d.ctx c).outNext then d.closeCtx c else d

/-- Step 10 of R231: the flit of child (or rank) k is taken. -/
def takeFlit (i c k : Nat) (q : QCell) (m : Mem) (d : Dev) : Mem × Dev :=
  let f := q.flit
  let form := f.form.toNat
  let d := d.taken q
  let d := if (d.ctx c).state == .armed then d.openCtx c else d
  let no := (d.tile (d.phys i)).takeNo + 1
  let d := (d.updTile (d.phys i) fun t => { t with takeNo := no }).updCtx c fun x => { x with
    lastTaken := no, firstTaken := if x.firstTaken = 0 then no else x.firstTaken }
  let d := if form = 1 || form = 2 then d.count .TILE_SPARSE_RX_CNT i form else d
  let t := (d.ctx c).desc
  let ts := touched t.inFmt form f.ofs.toNat f.payload
  let d := d.updCtx c fun x => { x with
    cov := ts.foldl (fun cv o => tblPut 0 (covKey k o.1) (tblGet 0 cv (covKey k o.1) ||| o.2) cv) x.cov }
  if t.gather then (m, d.gatherEmit c f)
  else
    let d := ts.foldl (fun (d : Dev) o =>
      let x := d.ctx c
      let p := tblGet 0 x.part_ (covKey k o.1) |||
        BitVec.ofNat 2048 (denseBits t.inFmt form f.ofs.toNat f.payload o.1)
      if x.complete k o.1 then
        let d := d.updCtx c fun x => { x with part_ := tblPut 0 (covKey k o.1) 0 x.part_ }
        if t.user then d.updCtx c fun x => { x with held := x.held ++ [{ ofs := o.1, child := k, pay := p }] }
        else d.foldIn c k o.1 p
      else d.updCtx c fun x => { x with part_ := tblPut 0 (covKey k o.1) p x.part_ }) d
    groupWrite c m d

/-- What the steps of R231 decide about a contribution. -/
inductive Verdict where
  /-- Discarded and counted in TILE_CTX_DROP_CNT (steps 1 and 2, R551). -/
  | drop
  /-- Waits; need tells that its context must become resident (step 3). -/
  | wait (need : Bool)
  /-- Discarded as late (R436). -/
  | late
  /-- Discarded, and the context faults; a form failure carries its item. -/
  | fail (reason : Nat) (form : Option Nat)
  /-- Taken for a child or rank. -/
  | take (k : Nat)
  deriving DecidableEq, Repr

/-- Is a compute reset running, or a partition reset of k (R551, R552)? -/
def Dev.computeReset (d : Dev) : Bool := d.sys.resets.any fun r => r.cls = 2

/-- Steps 4 to 10 of R231 (R405, R436) for a contribution to context x. -/
def CtxSt.verdict (x : CtxSt) (f : Flit) : Verdict :=
  let t := x.desc
  let form := f.form.toNat
  let ofs := f.ofs.toNat
  let k := if t.gather then
      if f.rank.toNat < t.nelem / t.block then some f.rank.toNat else none
    else (t.children.zipIdx.find? fun e => e.1.rank = f.rank.toNat).map (·.2)
  if x.late f k then .late
  else if x.state == .open_ && f.mseq.toNat = (x.e + 1) % 65536 then .wait false
  else if f.mseq.toNat ≠ x.e then .fail 0xC5 none
  else match k with
    | none => .fail 0xC1 none
    | some k =>
      if !t.gather && (t.children.getD k { rank := 0, src := 0 }).src ≠ f.src.toNat then .fail 0xC1 none
      else if f.fmt.toNat ≠ t.inFmt then .fail 0xC4 none
      else
        let (r, item) := if form = 1 || form = 2 then checkSparse t.inFmt form f.payload ofs t.len else (0, 0)
        let ts := touched t.inFmt form ofs f.payload
        let last := (ts.map (·.1)).foldl max ofs
        let base := if x.state == .open_ then x.base else 0
        if r ≠ 0 then .fail r (some (if r = 0xA3 then item else 0))
        else if (if t.gather then t.block / epf t.inFmt else t.flits) ≤ ofs then .fail 0xC3 none
        else if x.state == .open_ && ts.any fun o => tblGet 0 x.cov (covKey k o.1) &&& o.2 ≠ 0 then
          .fail 0xC2 none
        else if !t.gather && base + t.win ≤ last then .wait false
        else .take k

/-- The steps of R231 for a contribution bound to logical tile i. A flit for a FAULTED context is dropped, but for a form
failure in the cc in which the context's TMO expires (R412). -/
def Dev.verdict (d : Dev) (i : Nat) (f : Flit) : Verdict :=
  let c := f.ctx.toNat
  let x := d.ctx c
  if d.computeReset || d.partReset (d.fd F.TILE_PART_PART i) then .drop
  else if x.state == .free || x.tile ≠ i then .drop
  else if x.state == .faulted then
    if d.tmoNow c then
      match CtxSt.verdict { x with state := .open_ } f with
      | .fail r (some item) => .fail r (some item)
      | _ => .drop
    else .drop
  else if d.domFailed i then .fail 0xE0 none
  else if !d.domOn i || d.scopeHeld 3 i then .wait false
  else if !x.resident || x.pendFree then .wait true
  else x.verdict f

/-- A waiting contribution stays at its ingress; its context's restore is started, and a need that finds no
slot is counted once (R231, R257). counted tells whether it has been. -/
def Dev.waitFlit (d : Dev) (i : Nat) (q : QCell) (need counted : Bool) : Dev × Bool :=
  if need && !(d.ctx q.flit.ctx.toNat).pendFree then
    let (d, w) := d.needSlot q.flit.ctx.toNat
    if w && !counted then (d.count .TILE_RESIDENT_WAIT_CNT i, true) else (d, counted)
  else (d, counted)

/-- A verdict other than waiting carried out. -/
def settleFlit (i : Nat) (q : QCell) (v : Verdict) (m : Mem) (d : Dev) : Mem × Dev :=
  let c := q.flit.ctx.toNat
  match v with
  | .drop => (m, (d.taken q).count .TILE_CTX_DROP_CNT i)
  | .late => (m, (d.taken q).count .TILE_FA_LATE_CNT i)
  | .fail r none => (m, (d.taken q).ctxFault c r)
  | .fail r (some item) => (m, ((d.taken q).formCap i c q.flit r item).formFault c r)
  | .take k => takeFlit i c k q m d
  | .wait _ => (m, d)

/-- CONTRIBUTION_ARRIVE at tile i: the first flit bound to the tile. A flit behind a waiting one of its source
waits with it (R231, R233). A result bound to the tile is taken without effect (log entry 30). -/
def ctxArrive (i : Nat) (m : Mem) (d : Dev) : Mem × Dev :=
  match tblGet [] d.core.tileRx i with
  | [] => (m, d)
  | q :: rest =>
    let d := d.updCore fun x => { x with tileRx := tblPut [] i rest x.tileRx }
    if q.flit.type ≠ 2 then
      (m, if d.computeReset then (d.taken q).count .TILE_CTX_DROP_CNT i
          else if d.domFailed i then (d.taken q).ctxFault q.flit.ctx.toNat 0xE0 else d.taken q)
    else if d.core.ctxWait.any fun w => w.2.1.src == q.src then
      (m, d.updCore fun x => { x with ctxWait := x.ctxWait ++ [(i, q, false)] })
    else
      match d.verdict i q.flit with
      | .wait need =>
        let (d, n) := d.waitFlit i q need false
        (m, d.updCore fun x => { x with ctxWait := x.ctxWait ++ [(i, q, n)] })
      | v => settleFlit i q v m d

/-- The waiting contributions that no earlier one of their source holds up. -/
def unblocked (l : List (Nat × QCell × Bool)) : List (Nat × QCell × Bool) :=
  (l.zipIdx.filter fun w => !((l.take w.2).any fun v => v.2.1.src == w.1.2.1.src)).map (·.1)

/-- CONTRIBUTION_RETRY: the first waiting contribution that can proceed does; while none can, those whose
context must become resident ask for a slot again. -/
def ctxRetry (m : Mem) (d : Dev) : Mem × Dev :=
  match (unblocked d.core.ctxWait).find? fun w => match d.verdict w.1 w.2.1.flit with
      | .wait _ => false
      | _ => true with
  | some w =>
    settleFlit w.1 w.2.1 (d.verdict w.1 w.2.1.flit) m (d.updCore fun x => { x with
      ctxWait := x.ctxWait.filter fun v => v.2.1.id ≠ w.2.1.id })
  | none =>
    (m, (unblocked d.core.ctxWait).foldl (fun (d : Dev) w =>
      match d.verdict w.1 w.2.1.flit with
      | .wait true =>
        let (d, n) := d.waitFlit w.1 w.2.1 true w.2.2
        d.updCore fun x => { x with
          ctxWait := x.ctxWait.map fun v => if v.2.1.id = w.2.1.id then (v.1, v.2.1, n) else v }
      | _ => d) d)

/-- CTX_TMO_EXPIRY (R228): an OPEN context with a timeout faults. -/
def Dev.ctxTmo (d : Dev) (c : Nat) : Dev :=
  let x := d.ctx c
  if x.state == .open_ && x.desc.tmo ≠ 0 then d.tmoFault c else d

end Sys2Proof.Machine
end

