-- ==== Sys2Proof/Machine/SelfCheck.lean ====
section
/-! DEFINITION. What every self-check failure does, and retirement (17: R599-R604). -/

namespace Sys2Proof.Machine

/-- A self-check failure (R602): check 0 residue, 1 SUM canary, 2 shadow, 3 SIFT canary; lane none: a canary. -/
structure ScFail where
  check : Nat
  tile : Nat
  lane : Option Nat
  ctx : Option Nat
  tag : Nat
  temp : Nat
  rail : Nat
  pattern : Nat
  deriving DecidableEq, Repr

/-- The VALUE of a field entry of the defect map, private to firmware: a tile, a spare, or a lane of a physical
tile (log entry 34). -/
def entryTile (t : Nat) : Nat := if t < 32 then m32 + t else 2 * m32 + t
def entryLane (t l : Nat) : Nat := 3 * m32 + t * 0x10000 + l

/-- Firmware appends a field entry (R544, R603); each entry has a key of its own. -/
def Dev.fieldEntry (d : Dev) (value : Nat) : Dev := d.fwRecord 3 (0x80000000 + d.sys.flash.rseq % 0x80000000) value

/-- The field entries firmware has appended, in RSEQ order. -/
def FlashSt.entries (f : FlashSt) : List Nat :=
  ((f.live ++ (f.open_.map (·.recs)).flatten).filter fun r => r.kind == 3).map (·.value)

/-- FAILS has reached RETIRE_N (R603): the one lane all failures name, or the tile, is retired. -/
def Dev.retire (d : Dev) (t : Nat) : Dev :=
  let ls := tblGet [] d.sys.scLanes t
  let v := match ls with
    | some l :: rest => if rest.all (· == some l) then entryLane t l else entryTile t
    | _ => entryTile t
  (d.fieldEntry v).fdSet F.FLT_SC_STAT_RETIRED t 0 1

/-- A self-check failure of a physical tile (R602, R603, R615). -/
def Dev.scFail (d : Dev) (x : ScFail) : Dev :=
  let n := min 255 (d.fd F.FLT_SC_STAT_FAILS x.tile + 1)
  let d := (d.fdSet F.FLT_SC_STAT_FAILS x.tile 0 n).fltSet F.FLT_STATUS_SC_FAIL
  let d := d.updSys fun s => { s with
    scLanes := tblPut [] x.tile (tblGet [] s.scLanes x.tile ++ [x.lane]) s.scLanes }
  let d := d.post
    { cls := 0xB, reason := ([0x26, 0x27, 0x28, 0x86] : List Nat).getD x.check 0
      part := x.ctx.map fun c => (d.ctx c).part
      body := leBytes 1 2 ++ leBytes 1 x.check ++ leBytes 1 x.tile ++ leBytes 1 (x.lane.getD 0xFF) ++
        leBytes 2 (x.ctx.getD 0xFFFF) ++ leBytes 2 x.tag ++ leBytes 2 x.temp ++ leBytes 2 x.rail ++
        leBytes 4 x.pattern ++ leBytes 8 d.fabricTime }
  let r := d.fd F.FLT_SC_CFG_RETIRE_N
  if r ≠ 0 && n = r && !d.bit F.FLT_SC_STAT_RETIRED x.tile then d.retire x.tile else d

/-- Is shadowing off on logical tile i, every spare lane standing in for a failed one (R600)? -/
def Dev.shadowOff (d : Dev) (i : Nat) : Bool := d.fd F.SUM_LANE_STAT_SPARE_USED i == 0xFF

end Sys2Proof.Machine
end

