-- ==== Sys2Proof/Machine/Power.lean ====
section
/-! DEFINITION. Power domains, device states and the load-step governor (14: R518-R535). -/

namespace Sys2Proof.Machine

/-! Domains (R519) -/

/-- The domains of unlicensed features stay off (R3, R518). -/
def Dev.domLicensed (d : Dev) (n : Nat) : Bool :=
  if n < 68 then d.tilesLicensed else if 78 ≤ n && n < 86 then d.portLicensed 128 else true

/-- The wakes that are granted in waves: tile logic and memory-side dies (R529). -/
def waved (n : Nat) : Bool := decide (n < 34) || n == 68 || n == 69

/-- Domain n becomes WAKING. -/
def Dev.wakeDom (d : Dev) (n : Nat) : Dev :=
  (((d.fdSet F.PWR_DOM_STAT_STATE n 0 1).fdSet F.PWR_DOM_STAT_HELD n 0 0).fdSet F.PWR_DOM_STAT_FAIL_PLL n 0 0).count
    .PWR_WAKE_CNT n

/-- The wake of domain n, begun in this cc, is taken back: it waits for a wave slot. -/
def Dev.unwakeDom (d : Dev) (n : Nat) : Dev :=
  let k := regKey .PWR_WAKE_CNT 0 n 0
  let h := d.hotAt k
  (((d.fdSet F.PWR_DOM_STAT_STATE n 0 0).fdSet F.PWR_DOM_STAT_HELD n 0 1).setRawF .PWR_WAKE_CNT 0 n 0
    (d.rawF .PWR_WAKE_CNT 0 n 0 - 1)).setHot k (h.1, h.2 - 1)

/-- Is the governor on in this interval, and how many domains a wave holds (R529, R532). -/
def Dev.govOn (d : Dev) : Bool := bitAt d.sys.pwr.gcfg 31
def Dev.waveSize (d : Dev) : Nat := max 1 (bitsOf d.sys.pwr.gcfg 25 20)

/-- A demand that waits takes its place: by arrival cc, within one cc the lower n first (R529). -/
def holdAt (now n : Nat) (l : List (Nat × Nat)) : List (Nat × Nat) :=
  let before := l.takeWhile fun e => !(e.1 = now && n < e.2)
  before ++ (now, n) :: l.drop before.length

/-- A demand on domain n that the governor paces (R529): it joins the wave granted last while that has room and none
waits before it; within one cc the lower n goes first. -/
def Dev.demandWave (d : Dev) (n : Nat) : Dev :=
  let w := d.sys.pwr
  let now := d.cycle
  if w.held.any fun e => e.2 = n then d
  else if w.wave.length < d.waveSize && w.held.isEmpty then
    (d.wakeDom n).updPwr fun w => { w with wave := w.wave ++ [(now, n)] }
  else match ((w.wave.filter fun e => e.1 = now && n < e.2 && d.domState e.2 = 1).map (·.2)).max? with
    | some m =>
      ((d.unwakeDom m).wakeDom n).updPwr fun w => { w with
        wave := w.wave.map fun e => if e = (now, m) then (now, n) else e
        held := holdAt now m w.held }
    | none => (d.fdSet F.PWR_DOM_STAT_HELD n 0 1).updPwr fun w => { w with held := holdAt now n w.held }

/-- A demand that is remembered until its domain can wake. -/
def Dev.demandLater (d : Dev) (n : Nat) : Dev :=
  d.updPwr fun w => { w with demanded := if w.demanded.contains n then w.demanded else w.demanded ++ [n] }

/-- A demand on domain n (R519, R521, R529). -/
def Dev.demand (d : Dev) (n : Nat) : Dev :=
  if !d.domLicensed n then d
  else match d.domState n with
  | 0 =>
    if d.govOn && waved n then d.demandWave n
    else if 34 ≤ n && n < 68 && !(d.domOn (n - 34)) then d.demandLater n
    else d.wakeDom n
  | 3 => d.demandLater n
  | _ => d

/-- GOVERNOR_WAVE_GRANT (R529): the previous wave's time has passed; the domains that have waited longest wake. -/
def Dev.waveGrant (d : Dev) : Dev :=
  let k := if d.govOn then d.waveSize else d.sys.pwr.held.length
  let now := d.sys.pwr.held.take k
  (now.foldl (fun (d : Dev) e => if d.domState e.2 = 0 then d.wakeDom e.2 else d) d).updPwr fun w => { w with
    held := w.held.drop k, wave := now }

/-- Domain n is ON: a SIFT array that a demand has reached meanwhile wakes with its tile (R529). -/
def Dev.domWoken (d : Dev) (n : Nat) : Dev :=
  let d := d.fdSet F.PWR_DOM_STAT_STATE n 0 2
  if n < 34 && d.sys.pwr.demanded.contains (siftDom n) then
    (d.wakeDom (siftDom n)).updPwr fun w => { w with demanded := w.demanded.erase (siftDom n) }
  else d

/-- A power event (R533). -/
def Dev.powerEvent (d : Dev) (kind reason n : Nat) : Dev :=
  d.post { cls := 0xA, reason := reason, part := none
           body := leBytes 1 kind ++ leBytes 1 n ++ leBytes 6 (if kind = 2 then d.rawF .PWR_REFUSE_CAP 0 0 0 else 0) }

/-- Power-good or PLL lock does not come: the domain enters FAILED (R519, R522). The ports of an optical engine are
held as ports that went down. -/
def Dev.domFail (d : Dev) (n : Nat) (pll : Bool) : Dev :=
  if d.domState n = 1 then
    let d := (d.fdSet F.PWR_DOM_STAT_STATE n 0 4).fdSet F.PWR_DOM_STAT_FAIL_PLL n 0 (b2n pll)
    let d := (d.fltSet F.FLT_STATUS_DOM_FAIL).powerEvent 1 0xE0 n
    if 70 ≤ n && n < 86 then
      d.forEach ((List.range 16).map fun j => 16 * (n - 70) + j) fun d p =>
        if (d.queue p).pdn == .active then
          let d := d.unselect p
          if d.fd F.QOS_PDN_CFG_HOLD p = 0 then d.flush p
          else d.updQueue p fun t => { t with
            pdn := .held, timer := true, cap := d.fd F.QOS_PDN_CFG_HOLD_CAP p, noHold := false }
        else d
    else d
  else d

/-! Idleness (R519, R523) -/

/-- Is tile i idle: no resident OPEN context, no command, no run? -/
def Dev.tileIdle (d : Dev) (i : Nat) : Bool :=
  let t := d.tile (d.phys i)
  t.run.isNone && !(t.q.any fun e => !e.2.isEmpty) && !(t.busy.any fun e => e.2.isSome) && t.built.isEmpty &&
    !((d.tileCtxs i).any fun c => (d.ctx c).slot.isSome && (d.ctx c).state == .open_)

/-- Has die k no request, transfer or other work in flight (R523): memory requests and responses, spills and restores, pools
that thread, descriptors and engine commands on its HBM, a SCRUB? -/
def Dev.dieIdle (d : Dev) (k : Nat) : Bool :=
  (tblGet [] d.core.memRx k).isEmpty && (tblGet [] d.core.srcQ (288 + k)).isEmpty &&
    !(d.liveCtxs.any fun c => c % 2 == k && ((d.ctx c).spilling || (d.ctx c).restoring)) &&
    !(d.hbm.pools.any fun e => e.1 / 8 == k && e.2.state == 1) &&
    !([0, 1].any fun h => (d.fn h).rings.any fun e => e.2.active.any fun x =>
      decide (6 ≤ x.op) && decide (x.op ≤ 9) && (diesOf x).contains k) &&
    !(d.tiles.any fun e => e.2.busy.any fun b => match b.2 with
      | some x => (x.hbmNames b.1).any fun g => decide (dieG * k ≤ g) && decide (g < dieG * (k + 1))
      | none => false) &&
    !((List.range 16).any fun n => d.maintBusy n && d.maintAct n == 1 && d.maintIdx n == k)

/-- The device state in force. -/
def Dev.pwrState (d : Dev) : Nat := d.fd F.PWR_STAT_STATE

/-- May the device state gate domain n when it is idle (R523), with no ballast (R530)? In A2 and A3 a tile whose
contexts are not all spilled is not gated, for its slots would be lost. -/
def Dev.gateable (d : Dev) (n : Nat) : Bool :=
  let x := d.pwrState
  if n < 32 then
    decide (1 ≤ x) && d.tileIdle n && d.sys.pwr.tileBal == 0 &&
      (x == 1 || !((d.tileCtxs n).any fun c => (d.ctx c).slot.isSome))
  else if 34 ≤ n && n < 66 then decide (1 ≤ x) && (tblGet none (d.tile (d.phys (n - 34))).busy 3).isNone &&
    (tblGet [] (d.tile (d.phys (n - 34))).q 3).isEmpty
  else if n == 68 || n == 69 then decide (2 ≤ x) && d.dieIdle (n - 68)
  else false

/-- Domain n begins to switch off. -/
def Dev.enterOff (d : Dev) (n : Nat) : Dev := if d.domOn n then d.fdSet F.PWR_DOM_STAT_STATE n 0 3 else d

/-- DOMAIN_IDLE_GATE: domain n has been idle for GATE_IDLE. -/
def Dev.idleGate (d : Dev) (n : Nat) : Dev := if d.domOn n && d.gateable n then d.enterOff n else d

/-- DOMAIN_ENTRY_COMPLETE: OFF, or WAKING at once when a demand came during entry. Outside A1 a tile's memory is not
kept (R518). -/
def domEntered (n : Nat) (m : Mem) (d : Dev) : Mem × Dev :=
  if d.domState n = 3 then
    let lost := n < 32 && (2 ≤ d.pwrState || d.sys.pwr.step = 4)
    let m := if lost then { m with tile := tblPut [] (d.phys n) [] m.tile } else m
    let d := d.fdSet F.PWR_DOM_STAT_STATE n 0 0
    (m, if d.sys.pwr.demanded.contains n then
        (d.wakeDom n).updPwr fun w => { w with demanded := w.demanded.erase n }
      else d)
  else (m, d)

/-! Requests (R524-R527) -/

/-- The outcome of a refused or aborted entry captured and counted (R525): agent class and index. -/
def Dev.refuseNote (d : Dev) (target cls index : Nat) (abort : Bool) : Dev :=
  ((d.captureOnce F.PWR_REFUSE_CAP_VALID 0
    (0xE1 <<< 24 ||| cls <<< 21 ||| b2n abort <<< 20 ||| target <<< 18 ||| index)).countN .PWR_REFUSE_CNT cls 0
      1).powerEvent 2 0xE1 target

/-- The refusal checks of step 1 (R525): the agent class and index of the first that holds. -/
def Dev.entryRefused (d : Dev) (y : Nat) : Option (Nat × Nat) :=
  let opn := d.liveCtxs.find? fun c => (d.ctx c).state == .open_
  let load := (List.range 32).find? fun i => !(d.tile (d.phys i)).loads.isEmpty
  let set_ := d.liveCtxs.find? fun c => (d.ctx c).state != .free
  match opn, load with
  | some c, _ => some (0, (d.ctx c).tile)
  | none, some i => some (0, i)
  | none, none =>
    if (List.range 16).any fun n => d.fd F.FLT_MAINT_STAT_STATE n ≠ 0 then some (5, 0)
    else if d.qmr.any fun e => e.2.isSome then some (4, 0)
    else if y = 3 then
      match set_ with
      | some c => some (0, (d.ctx c).tile)
      | none =>
        if d.bars.any fun e => e.2.state != .idle then some (3, 0)
        else if d.core.refs.any fun e => 0 < e.2.copies then some (3, 0)
        else none
    else none

/-- The domains that device state y keeps on and that are not on yet (R523). -/
def Dev.wanted (d : Dev) (y : Nat) : List Nat :=
  let keep := match y with
    | 0 => List.range 32 ++ (List.range 32).map (34 + ·) ++ [68, 69]
    | 1 => [68, 69]
    | _ => []
  (keep ++ (if y = 3 then [] else 86 :: (List.range 16).map (70 + ·))).filter fun n =>
    d.domLicensed n && !(d.domOn n) && !(d.domFailed n)

/-- The next of the optical engines and the core wakes, one at a time; tiles and dies under the governor (R524,
R529). -/
def Dev.wakeSome (d : Dev) (y : Nat) : Dev :=
  let l := d.wanted y
  let d := (l.filter (· < 70)).foldl (fun (d : Dev) n => d.demand n) d
  let big := l.filter (70 ≤ ·)
  if big.any fun n => d.domState n ≠ 0 then d
  else match big.find? (· = 86) with
    | some n => d.wakeDom n
    | none => match big with
      | n :: _ => d.wakeDom n
      | [] => d

/-- A dozing port that the state keeps up wakes (R526). -/
def Dev.wakePorts (d : Dev) (y : Nat) : Dev :=
  if 2 ≤ y then d
  else d.forEach ((List.range 256).filter fun p =>
      (d.link p).lstate == .doze && !(bitAt (d.fd F.PWR_DOZE_EN_PORTS (p / 64)) (p % 64))) fun d p => d.wakePort p

/-- An entry begins (R524, R527): refused, or its first step is in progress. -/
def Dev.entryStart (d : Dev) (x : Desc) : Dev :=
  let y := x.arg 28 1 % 4
  if y < 2 then
    (d.updPwr fun w => { w with cur := some x, step := 8, off := [] }).wakeSome y
  else match d.entryRefused y with
    | some (cls, i) => (d.refuseNote y cls i false).refuse x 0xE1
    | none => d.updPwr fun w => { w with cur := some x, step := 1, off := [] }

/-- The pending request starts: at once OK when its target is the state reached (R527). -/
def Dev.pendStart (d : Dev) : Dev :=
  match d.sys.pwr.pend with
  | none => d
  | some x =>
    let d := d.updPwr fun w => { w with pend := none }
    if x.arg 28 1 % 4 = d.pwrState then d.completeOk x 0 else d.entryStart x

/-- POWER_REQ (R527, R554). -/
def Dev.powerReq (d : Dev) (x : Desc) : Dev :=
  let y := x.arg 28 1 % 4
  if d.sys.resets.any fun r => r.cls = 2 || r.cls = 3 then (d.refuseNote y 4 0 false).refuse x 0xE1
  else match d.sys.pwr.cur, d.sys.pwr.pend with
    | none, _ => if y = d.pwrState then d.completeOk x 0 else d.entryStart x
    | some _, none => d.updPwr fun w => { w with pend := some x }
    | some _, some p =>
      ((((d.refuse p 0xE2).count .PWR_SUPERSEDE_CNT).powerEvent 3 0xE2 (p.arg 28 1 % 4))).updPwr fun w => { w with
        pend := some x }

/-- Waking the domains that an entry has switched off (R525). -/
def Dev.rewake (d : Dev) (l : List Nat) : Dev :=
  l.foldl (fun (d : Dev) n => if waved n || n < 68 then d.demand n else
    match d.domState n with
    | 0 => d.wakeDom n
    | 3 => d.updPwr fun w => { w with demanded := w.demanded ++ [n] }
    | _ => d) d

/-- The entry in progress is aborted (R525): class and index of the agent. -/
def Dev.entryAbort (d : Dev) (cls index : Nat) : Dev :=
  match d.sys.pwr.cur with
  | none => d
  | some x =>
    let off := d.sys.pwr.off
    let d := ((d.refuseNote (x.arg 28 1 % 4) cls index true).refuse x 0xE1).updPwr fun w => { w with
      cur := none, step := 0, off := [] }
    ((d.rewake off).wakePorts d.pwrState).pendStart

/-- The target is reached (R527). -/
def Dev.entryDone (d : Dev) (x : Desc) : Dev :=
  let y := x.arg 28 1 % 4
  let d := (d.fdSet F.PWR_STAT_STATE 0 0 y).updPwr fun w => { w with cur := none, step := 0, off := [] }
  (((d.wakePorts y).completeOk x 0).powerEvent 0 0 y).pendStart

/-- Domains that the change switches off. -/
def Dev.switchOff (d : Dev) (l : List Nat) : Dev :=
  (l.foldl (fun (d : Dev) n => d.enterOff n) d).updPwr fun w => { w with off := w.off ++ l.filter fun n => d.domOn n }

/-- A port of the device's UP or DEGRADED ports asks its peer to doze (R125, R524). -/
def Dev.dozeAsk (d : Dev) (p : Nat) : Dev :=
  if portUp (d.port p).state && (d.link p).lstate == .active && !(d.link p).dozeReq then
    d.updLink p fun l => { l with dozeReq := true }
  else d

/-- What step n of an entry into y keeps doing until it has finished: resident contexts are spilled, dies whose work has
ended go OFF, ports are asked to doze. -/
def Dev.stepMore (d : Dev) (n y : Nat) : Dev :=
  match n with
  | 2 => d.forEach (d.liveCtxs.filter fun c => (d.ctx c).resident) fun d c => d.spillStart c
  | 5 => if y = 3 then d.switchOff ([68, 69].filter fun n => d.domOn n && d.dieIdle (n - 68)) else d
  | 6 => if y = 3 then d.forEach (List.range 256) fun d p => d.dozeAsk p else d
  | _ => d

/-- Step n of an entry into y begins. -/
def Dev.stepBegin (d : Dev) (n y : Nat) : Dev :=
  let d := d.updPwr fun w => { w with step := n }
  match n with
  | 2 | 6 => d.stepMore n y
  | 4 => d.switchOff ((List.range 68).filter fun n => d.domOn n)
  | 5 => d.switchOff ([68, 69].filter fun n => d.dieIdle (n - 68))
  | 7 => d.switchOff ((List.range 16).map (70 + ·))
  | 8 => d.wakeSome y
  | _ => d

/-- Has the step in progress finished? -/
def Dev.stepDone (d : Dev) (n y : Nat) : Bool :=
  match n with
  | 2 => !(d.liveCtxs.any fun c => (d.ctx c).slot.isSome)
  | 4 => !((List.range 68).any fun n => d.domState n = 3)
  | 5 => !([68, 69].any fun n => d.domState n = 3 || (y = 3 && d.domOn n))
  | 6 => !(y == 3) || !((List.range 256).any fun p => portUp (d.port p).state && (d.link p).lstate != .doze)
  | 7 => !((List.range 17).any fun e => d.domState (70 + e) = 3)
  | 8 => (d.wanted y).isEmpty
  | _ => true

/-- The agent that has not finished step n (R525): class and index. -/
def Dev.laggard (d : Dev) (n : Nat) : Nat × Nat :=
  match n with
  | 2 => (0, match d.liveCtxs.find? fun c => (d.ctx c).slot.isSome with
      | some c => (d.ctx c).tile
      | none => 0)
  | 4 => (0, (((List.range 68).find? fun n => d.domState n = 3).getD 0) % 34)
  | 5 => (1, if d.domState 68 = 3 || d.domOn 68 then 0 else 1)
  | 6 => (2, ((List.range 256).find? fun p => portUp (d.port p).state && (d.link p).lstate != .doze).getD 0)
  | _ => (3, 0)

/-- POWER_ENTRY_TIMEOUT (R525). -/
def Dev.entryTimeout (d : Dev) : Dev :=
  let n := d.sys.pwr.step
  if n = 0 || n = 8 then d
  else
    let (cls, i) := d.laggard n
    d.entryAbort cls i

/-! Doze (R526) -/

/-- PORT_DOZE_IDLE: port p has carried only idle flits for DOZE_IDLE, and its state or PWR_DOZE_EN calls for doze. -/
def Dev.dozeIdle (d : Dev) (p : Nat) : Dev :=
  if 2 ≤ d.pwrState || d.sys.pwr.step = 6 || bitAt (d.fd F.PWR_DOZE_EN_PORTS (p / 64)) (p % 64) then d.dozeAsk p else d

/-- DOZE_REQ_TIMEOUT (R115, R525): unacknowledged for 1 µs. The third try of an entry into A3 aborts it. -/
def Dev.dozeTimeout (d : Dev) (p : Nat) : Dev :=
  let l := d.link p
  if l.dozeReq then
    let d := (d.updLink p fun l => { l with dozeReq := false, dozeTries := l.dozeTries + 1 }).count .PWR_DOZE_NAK_CNT
    let a3 := d.sys.pwr.step = 6 && match d.sys.pwr.cur with
      | some x => x.arg 28 1 % 4 == 3
      | none => false
    if a3 then
      if 3 ≤ l.dozeTries + 1 then (d.updLink p fun l => { l with dozeTries := 0 }).entryAbort 2 p
      else d.dozeAsk p
    else d.updLink p fun l => { l with dozeTries := 0 }
  else d

/-! Load-step governor (R528-R531) -/

/-- The estimate P in 0.1 W from the activity counts by unit. -/
def govEstimate (act : List (Nat × Nat)) : Nat := act.foldl (fun a e => a + e.2 * Config.govWeight e.1) 0

/-- GOVERNOR_INTERVAL: P is formed; ballast holds the level above its falling slope and the core above its floor
(R528, R530, R531). The core's floor comes first, and tiles hold what it leaves (log entry 118). Writes of the settings apply
from the next interval (R532). -/
def Dev.governor (d : Dev) (act : List (Nat × Nat)) : Dev :=
  let w := d.sys.pwr
  let p := govEstimate act
  let fall := max 1 (bitsOf w.gcfg 9 0)
  let core := govEstimate (act.filter fun e => e.1 = coreDom)
  let floor_ := 10 * min 190 (bitsOf w.gfloor 7 0) - core
  let slope := if d.govOn then w.gov - fall - p else 0
  let ballast := max slope floor_
  ((d.fdSet F.PWR_GOV_STAT_EST 0 0 (min 0xFFFF ((p + ballast) / 10))).fdSet F.PWR_GOV_STAT_BALLAST 0 0
    (min 0xFFFF (ballast / 10))).updPwr fun w => { w with
      gov := p + ballast, tileBal := slope - floor_
      gcfg := d.rawF .PWR_GOV_CFG 0 0 0, gfloor := d.rawF .PWR_GOV_FLOOR 0 0 0 }

end Sys2Proof.Machine
end

