-- ==== Sys2Proof/Machine/Maint.lean ====
section
/-! DEFINITION. The maintenance queue and its activities (17: R605-R609). -/

namespace Sys2Proof.Machine

def Dev.maint (d : Dev) (n : Nat) : Maint := tblGet Maint.reset d.sys.maint n
def Dev.updMaint (d : Dev) (n : Nat) (f : Maint → Maint) : Dev :=
  d.updSys fun s => { s with maint := tblPut Maint.reset n (f (d.maint n)) s.maint }

/-- The slot that runs an activity, if one does. -/
def Dev.maintSlot (d : Dev) (act : Nat) : Option Nat :=
  (List.range 16).find? fun n => d.maintBusy n && d.maintAct n == act

/-- The conflicts of R608. -/
def maintConflict (a i b j : Nat) : Bool :=
  match a, b with
  | 1, 1 | 2, 2 | 3, 3 => i == j
  | 2, 4 | 4, 2 | 2, 6 | 6, 2 | 4, 4 | 4, 5 | 5, 4 | 4, 6 | 6, 4 | 5, 5 | 6, 6 => true
  | _, _ => false

/-- Is physical tile t marked failed, in the factory record or by a field entry (15: R544)? -/
def FlashSt.marked (f : FlashSt) (t : Nat) : Bool :=
  (if t < 32 then f.tiles.contains t else f.spares.contains t) || f.entries.contains (entryTile t)

/-- Does spare t serve a tile? -/
def Dev.spareUsed (d : Dev) (t : Nat) : Bool :=
  if t = 32 then d.bit F.BOOT_TILE_MAP_S32_EN else d.bit F.BOOT_TILE_MAP_S33_EN

/-- Is the target of an activity out of range, absent or FAILED (R608)? -/
def Dev.maintNoTarget (d : Dev) (act idx : Nat) : Bool :=
  match act with
  | 1 => decide (2 ≤ idx) || d.domFailed (dieDom idx)
  | 2 => decide (16 ≤ idx) || d.domFailed (engineDom idx) || (d.port (16 * idx)).state == .absent ||
      !d.portLicensed (16 * idx)
  | 3 => !(idx == 32 || idx == 33) || d.domFailed idx || !d.tilesLicensed
  | 4 | 5 => idx ≠ 0
  | _ => false

/-- Why a start is refused, in the order of R608: the detail, and for a conflict the activity and its INDEX. -/
def Dev.maintRefusal (d : Dev) (act idx : Nat) : Option (Nat × Nat × Nat) :=
  match (List.range 16).find? fun n => d.maintBusy n && maintConflict act idx (d.maintAct n) (d.maintIdx n) with
  | some n => some (0x80, d.maintAct n, d.maintIdx n)
  | none =>
    if (List.range 16).all fun n => d.maintBusy n then some (0x81, 0, 0)
    else if d.maintNoTarget act idx then some (0x82, 0, 0)
    else if act = 3 && (d.spareUsed idx || d.sys.flash.marked idx) then some (0x83, 0, 0)
    else none

/-- A refused start counts (R608, R616). -/
def Dev.maintRefused (d : Dev) (act : Nat) : Dev := d.count .FLT_MAINT_REFUSE_CNT act

/-- The port and wavelength of each receive lane an engine's scan visits (R607). -/
def Dev.marginLanes (d : Dev) (e : Nat) : List (Nat × Nat) :=
  ((List.range 16).map fun k =>
    let p := 16 * e + k
    if portUp (d.port p).state && d.fd F.FLT_FENCE_LEVEL p == 0 then
      ((List.range 5).filter fun i => (mapLane (d.port p).rxMap i).isSome).map fun i => (p, i)
    else []).flatten

/-- An activity takes the lowest free slot and starts, waking what it needs (R608). -/
def Dev.maintStart (d : Dev) (act idx param fn buf : Nat) : Nat × Dev :=
  let n := ((List.range 16).find? fun n => !d.maintBusy n).getD 0
  let d := d.setRawF .FLT_MAINT_STAT 0 n 0 ((idx % 65536) <<< 48 ||| act <<< 40 ||| 1 <<< 38)
  let d := d.updMaint n fun _ => { Maint.reset with param := param, fn := fn, buf := buf
                                                    lanes := if act = 2 then d.marginLanes idx else []
                                                    counts := [0, 0, 0, 0, 0] }
  (n, match act with
    | 1 => d.demand (dieDom idx)
    | 2 => if d.domState (engineDom idx) = 0 then d.wakeDom (engineDom idx) else d
    | _ => d)

/-- An activity ends (R605, R609, R615): its slot is free, its event is posted, its cancels complete OK. -/
def Dev.maintEnd (d : Dev) (n outcome reason detail n1 n2 : Nat) : Dev :=
  let act := d.maintAct n
  let idx := d.maintIdx n
  let cs := (d.maint n).cancels
  let d := ((d.setRawF .FLT_MAINT_STAT 0 n 0 0).updMaint n fun _ => Maint.reset).fltSet F.FLT_STATUS_MAINT_DONE
  let d := d.post
    { cls := 0xC, reason := reason, part := none
      body := leBytes 1 act ++ leBytes 1 outcome ++ leBytes 2 idx ++ leBytes 1 detail ++ leBytes 1 0 ++
        leBytes 2 n ++ leBytes 4 n1 ++ leBytes 4 n2 }
  cs.foldl (fun d x => d.completeOk x 0) d

/-- The partner's part of a state transfer is over. -/
def XferSt.jobOver (x : XferSt) : XferSt := { x with job := none, taken := false, image := [], next := 0, high := 0 }

/-- A start by MAINT (R605, R608). -/
def Dev.maintByDesc (d : Dev) (x : Desc) : Dev :=
  let act := x.arg 29 1
  let idx := x.arg 30 2
  match d.maintRefusal act idx with
  | some (dt, a, i) => (d.maintRefused act).complete x 2 0xFC (dt ||| a <<< 8 ||| i <<< 16)
  | none =>
    let (n, d) := d.maintStart act idx (x.arg 32 4) x.fn x.buf
    d.completeOk x n

/-- A start by firmware, retried 1 s after a refusal (R608): the slot, none when refused. -/
def Dev.maintByFw (d : Dev) (act idx : Nat) : Option Nat × Dev :=
  match d.maintRefusal act idx with
  | some _ =>
    (none, (d.maintRefused act).updSys fun s => { s with
      retry := if s.retry.contains (act, idx) then s.retry else s.retry ++ [(act, idx)] })
  | none =>
    let (n, d) := d.maintStart act idx 0 0 0
    (some n, d.updSys fun s => { s with retry := s.retry.erase (act, idx) })

/-- MAINT_CANCEL (R609): an empty slot and COMPACT cannot be cancelled. -/
def Dev.maintCancel (d : Dev) (x : Desc) : Dev :=
  let n := x.arg 36 2
  if 16 ≤ n || !d.maintBusy n || d.maintAct n = 5 then d.complete x 2 0xFC 0x86
  else (d.fdSet F.FLT_MAINT_STAT_STATE n 0 2).updMaint n fun m => { m with cancels := m.cancels ++ [x] }

/-! MARGIN (R607) -/

/-- The lane in hand is done with, scanned or abandoned. -/
def Dev.marginNext (d : Dev) (n : Nat) (scanned : Bool) : Dev :=
  (d.fdSet F.FLT_MAINT_STAT_PROGRESS n 0 (d.fd F.FLT_MAINT_STAT_PROGRESS n + 1)).updMaint n fun m => { m with
    lanes := m.lanes.drop 1, step := 0, counts := [0, 0, 0, 0, 0]
    n1 := m.n1 + b2n scanned, n2 := m.n2 + b2n (!scanned) }

/-- MARGIN_STEP of slot n: 100 µs at a step, with the corrected symbols counted in it and whether it met an
uncorrectable slot. Step 0 is the nominal setting; 1 and 2 move the phase, 3 and 4 the threshold, each through 16
steps of its direction or to the step that is abandoned. -/
def Dev.marginStep (d : Dev) (n corr : Nat) (bad : Bool) : Dev :=
  let m := d.maint n
  if !(d.maintAct n = 2 && d.fd F.FLT_MAINT_STAT_STATE n = 1) then d
  else match m.lanes with
  | [] => d
  | (p, i) :: _ =>
    if !portUp (d.port p).state || d.fd F.FLT_FENCE_LEVEL p ≠ 0 then d.marginNext n false
    else if m.step = 0 then d.updMaint n fun m => { m with step := 1, counts := updAt m.counts 0 fun _ => corr }
    else
      let c := at_ 0 m.counts m.step + b2n (!bad)
      let counts := updAt m.counts m.step fun _ => c
      let last := bad || decide (16 ≤ c)
      if !last then d.updMaint n fun m => { m with counts := counts }
      else if m.step < 4 then d.updMaint n fun m => { m with counts := counts, step := m.step + 1 }
      else
        let k := p % 16
        let rec_ := leBytes 1 k ++ leBytes 1 i ++ [Config.margin (at_ 0 counts 1) (at_ 0 counts 2),
          Config.margin (at_ 0 counts 3) (at_ 0 counts 4)] ++ leBytes 4 (at_ 0 counts 0)
        (d.hostWrite m.fn (m.buf + 8 * (5 * k + i)) rec_).marginNext n true

/-- A reset of port p has every scan skip its lanes, which count as abandoned (R609, R615). -/
def Dev.marginSkip (d : Dev) (p : Nat) : Dev :=
  d.forEach (List.range 16) fun d n =>
    if d.maintBusy n && d.maintAct n = 2 && (d.maint n).lanes.any fun l => l.1 = p then
      d.updMaint n fun m => { m with
        lanes := m.lanes.filter fun l => l.1 ≠ p
        step := if (m.lanes.head?.map (·.1)) = some p then 0 else m.step
        counts := if (m.lanes.head?.map (·.1)) = some p then [0, 0, 0, 0, 0] else m.counts
        n2 := m.n2 + (m.lanes.filter fun l => l.1 = p).length }
    else d

/-- Is receive wavelength i of port p under scan (R607)? -/
def Dev.underScan (d : Dev) (p i : Nat) : Bool :=
  (List.range 16).any fun n => d.maintBusy n && d.maintAct n == 2 && (d.maint n).lanes.head? == some (p, i)

/-- The end of an activity of ACT 1 to 3 that is not cancelled: its counts and outcome. ok: the march test passed. e:
what the SCRUB found. -/
def Dev.maintFinish (d : Dev) (n : Nat) (ok : Bool) (e : ReadErr) : Dev :=
  let i := d.maintIdx n
  match d.maintAct n with
  | 1 =>
    let d := d.noteHbm e
    let bad := (d.hbm.bad.map (·.1)).filter fun g => gDie g == i
    let d := bad.foldl (fun d g => d.memError g none 4 0) d
    d.maintEnd n 0 0 0 (e.hbmCorr.filter fun g => gDie g == i).length (bad.map fun g => tblGet 0 d.hbm.bad g).sum
  | 2 => if (d.maint n).lanes.isEmpty then d.maintEnd n 0 0 0 (d.maint n).n1 (d.maint n).n2 else d
  | 3 => if ok then d.maintEnd n 0 0 0 0 0 else (d.fieldEntry (entryTile i)).maintEnd n 1 0 0 1 0
  | _ => d

end Sys2Proof.Machine
end

