-- ==== Sys2Proof/Machine/FaultMgr.lean ====
section
/-! DEFINITION. The fault manager, port fences (17: R582-R593). -/

namespace Sys2Proof.Machine

/-! Firmware's management flits -/

/-- Bytes at an offset of a frame. -/
def frame (n : Nat) (parts : List (Nat × List (BitVec 8))) : List (BitVec 8) :=
  parts.foldl (fun a e => bytesPut a e.1 e.2) (List.replicate n 0)

/-- The first management flit of a KIND that firmware holds: its port (256: from inside) and flit (R582). Frames reach
the host I/O die over link 2 (R13): none does once it has failed. -/
def Dev.takeFm (d : Dev) (kind : Nat) : Option ((Nat × Flit) × Dev) :=
  if d.d2dFailed 2 then none else
  match takeFirst (fun (x : Nat × Flit) => plByte x.2.payload 0 = kind) d.core.fmRx with
  | some (x, rest) => some (x, d.updCore fun c => { c with fmRx := rest })
  | none => none

/-- A frame to the fault manager. -/
def Dev.toFm (d : Dev) (bytes : List (BitVec 8)) : Dev :=
  d.srcPush .host (mgmtFlit d.selfId (d.fd F.FLT_FM_CFG_FM_ID) bytes)

/-! Heartbeats (R582-R584) -/

/-- Can a heartbeat leave: link 2 works and the switch core is neither OFF nor FAILED (R583)? -/
def Dev.hbCan (d : Dev) : Bool :=
  !d.inReset && !d.sys.therm.trip && !d.d2dFailed 2 && d.domState coreDom ≠ 0 && d.domState coreDom ≠ 4

/-- A temperature as a byte in two's complement. -/
def tempByte (t : Int) : Nat := ((t + 256) % 256).toNat

/-- A HEARTBEAT is sent. -/
def Dev.heartbeat (d : Dev) (last : Bool) : Dev :=
  let n := (d.fd F.FLT_FM_STAT_HBSEQ + 1) % m32
  let d := d.fdSet F.FLT_FM_STAT_HBSEQ 0 0 n
  let up := ((List.range 256).filter fun p => portUp (d.port p).state).length
  let fenced := ((List.range 256).filter fun p => d.fd F.FLT_FENCE_LEVEL p ≠ 0).length
  let hot := (d.sys.therm.temps.take 4).foldl max (-128)
  d.toFm (frame 32
    [(0, leBytes 1 0x40), (4, leBytes 4 n), (8, leBytes 8 d.fabricTime), (16, leBytes 1 d.pwrState)
     , (17, leBytes 1 (d.fd F.BOOT_STAT_READY ||| d.fd F.BOOT_STAT_DEGRADED <<< 1 ||| b2n d.time.locked <<< 2 |||
        b2n last <<< 3))
     , (18, leBytes 2 up), (20, leBytes 2 fenced), (22, leBytes 1 (tempByte hot))
     , (24, leBytes 4 (d.fd F.HOST_EPOCH_EPOCH)), (28, leBytes 4 d.flt.repSeq)])

/-- HEARTBEAT: every 10 ms while HB_EN = 1 and the device is ready (R583). -/
def Dev.heartbeatDue (d : Dev) : Dev :=
  if d.bit F.FLT_FM_CFG_HB_EN && d.bit F.BOOT_STAT_READY && d.hbCan then d.heartbeat false else d

/-- What leaves before the switch core goes OFF (R584). -/
def Dev.lastHeartbeat (d : Dev) : Dev :=
  let d := if d.bit F.FLT_FM_CFG_HB_EN && d.hbCan then d.heartbeat true else d
  d.hbSuspend 0

/-! Fences (R589-R593) -/

/-- How much a fence level passes. -/
def passRank (level : Nat) : Nat :=
  match level with
  | 0 => 3
  | 2 => 2
  | 1 => 1
  | _ => 0

/-- The fence of port p takes a value (R589, R590, R592): a level that passes less flushes the port's queues and
fails its barriers; HARD disables the port, and its end gives the state of PORT_MODE.EN. source as in R615. -/
def Dev.setFence (d : Dev) (p level bar epoch source : Nat) : Dev :=
  let old := d.fd F.FLT_FENCE_LEVEL p
  let before := d.rawF .FLT_FENCE 0 p 0
  let d := d.setRawF .FLT_FENCE 0 p 0 ((level % 4) <<< 30 ||| (bar % 256) <<< 16 ||| epoch % 65536)
  if d.rawF .FLT_FENCE 0 p 0 = before then d
  else
    let d := d.fenceEvent p source
    let tight := decide (passRank level < passRank old)
    let d := if level = 3 && (d.port p).state != .absent then d.portDisable p else d
    let d := if tight then d.flush p else d
    let d := if old = 3 && level ≠ 3 then d.enableWrite p (d.bit F.PORT_MODE_EN p) else d
    if tight && level ≠ 2 then
      d.forEach (List.range 256) fun d b => if d.barNames b p then d.barFail b 0xF9 else d
    else d

/-- FLT_FENCE written by the primary host, and journaled (R592, R614). -/
def Dev.fenceWrite (d : Dev) (p v : Nat) : Dev :=
  let before := d.rawF .FLT_FENCE 0 p 0
  let d := d.setFence p (bitsOf v 31 30) (bitsOf v 23 16) (bitsOf v 15 0) 1
  if d.rawF .FLT_FENCE 0 p 0 = before then d else d.journalFence p

/-! Commands (R586-R588) -/

/-- FM_COMMAND_RX: the first COMMAND is taken in hand, answered with a copy of the last ACK, or discarded and
counted. One command is in hand at a time; a later one waits. -/
def Dev.fmRx (d : Dev) : Dev :=
  if d.sys.fm.isSome then d
  else match d.takeFm 0x42 with
  | none => d
  | some ((p, f), d) =>
    let cseq := plLe f.payload 4 4
    let last := d.fd F.FLT_FM_STAT_CSEQ
    let ahead := dist32 cseq last
    if ahead = 0 && !d.sys.fmAck.isEmpty then d.toFm d.sys.fmAck
    else if !(d.bit F.FLT_FM_CFG_EN && f.src.toNat == d.fd F.FLT_FM_CFG_FM_ID && decide (p < 256) &&
        bitAt (d.fd F.FLT_FM_PORTS_PORTS (p / 64)) (p % 64)) then d.count .FLT_FM_REJ_CNT
    else if 1 ≤ ahead && ahead ≤ 2147483647 then
      (d.fdSet F.FLT_FM_STAT_CSEQ 0 0 cseq).updSys fun s => { s with
        fm := some { cseq := cseq, op := plByte f.payload 8, level := plByte f.payload 9
                     index := plLe f.payload 10 2, arg := plLe f.payload 12 4, epoch := plLe f.payload 16 2
                     xid := plLe f.payload 18 2, applied := false, status := 0, reason := 0, detail := 0 } }
    else d.count .FLT_FM_REJ_CNT

/-- Is a field of a command outside its range (R588)? -/
def fmBad (c : FmCmd) : Bool :=
  match c.op with
  | 1 => decide (256 ≤ c.index) || !(1 ≤ c.level && c.level ≤ 3)
  | 2 => decide (256 ≤ c.index)
  | 3 => decide (16 ≤ c.index)
  | 4 | 5 => c.index ≠ 0
  | 6 => false
  | _ => true

/-- The 12 bytes of an ACK (R582). -/
def ackBytes (c : FmCmd) : List (BitVec 8) :=
  leBytes 4 0x43 ++ leBytes 4 c.cseq ++ leBytes 1 c.op ++ leBytes 1 c.status ++ leBytes 1 c.reason ++
    leBytes 1 c.detail

/-- The VALUE of named item 0x0003: CSEQ, and what a copy of its ACK needs (log entry 35). -/
def ackValue (c : FmCmd) : Nat := c.cseq + m32 * (c.op + 256 * (c.status + 256 * (c.reason + 256 * c.detail)))

/-- A command has taken effect: CSEQ is journaled with the fence it changed, and the event is posted (R587). -/
def Dev.fmApplied (d : Dev) (c : FmCmd) (fences : List Nat) (status reason detail : Nat) : Dev :=
  let c := { c with applied := true, status := status, reason := reason, detail := detail }
  let items := fences.map fun p =>
    ({ kind := 4, func := 0xFF, key := itemFence p, value := d.rawF .FLT_FENCE 0 p 0 } : JItem)
  let d := d.appendGroup ({ kind := 4, func := 0xFF, key := 3, value := ackValue c } :: items) none
  let d := d.updSys fun s => { s with fm := some c }
  d.post
    { cls := 0xB, reason := 0, part := none
      body := leBytes 1 1 ++ leBytes 1 c.op ++ leBytes 2 c.index ++ leBytes 4 c.cseq }

/-- The command in hand that has not been applied, if it has this OP and its fields are in range. -/
def Dev.fmInHand (d : Dev) (op : Nat) : Option FmCmd :=
  match d.sys.fm with
  | some c => if !c.applied && c.op == op && !fmBad c then some c else none
  | none => none

/-- A command gives the fence of its port a value; a fence it changed is journaled with it (R587). -/
def Dev.fmSetFence (d : Dev) (c : FmCmd) (level bar epoch : Nat) : Dev :=
  let before := d.rawF .FLT_FENCE 0 c.index 0
  let d := d.setFence c.index level bar epoch 0
  d.fmApplied c (if d.rawF .FLT_FENCE 0 c.index 0 = before then [] else [c.index]) 0 0 0

/-- FM_FENCE. -/
def Dev.fmFence (d : Dev) : Dev :=
  match d.fmInHand 1 with
  | some c =>
    let adm := c.level = 2
    d.fmSetFence c c.level (if adm then bitsOf c.arg 23 16 else 0) (if adm then bitsOf c.arg 15 0 else 0)
  | none => d

/-- FM_UNFENCE. -/
def Dev.fmUnfence (d : Dev) : Dev :=
  match d.fmInHand 2 with
  | some c => d.fmSetFence c 0 0 0
  | none => d

/-- FM_ABORT_PART: as CTX_ABORT on every ARMED or OPEN context of the partition (R588). -/
def Dev.fmAbort (d : Dev) : Dev :=
  match d.fmInHand 3 with
  | some c =>
    (d.faultAll (d.liveCtxs.filter fun k => (d.ctx k).live && (d.ctx k).part == c.index) 0xC9).fmApplied c [] 0 0 0
  | none => d

/-- FM_RESET: the ACK goes first (R588). -/
def Dev.fmResetCmd (d : Dev) : Dev :=
  match d.fmInHand 4 with
  | some c => d.fmApplied c [] 0 0 0
  | none => d

/-- FM_QUERY. -/
def Dev.fmQuery (d : Dev) : Dev :=
  match d.fmInHand 5 with
  | some c => (if d.hbCan then d.heartbeat false else d).fmApplied c [] 0 0 0
  | none => d

/-- FM_XFER_START (R588, R594): a STATE_XFER in the maintenance queue, waiting for its barrier. -/
def Dev.fmXfer (d : Dev) : Dev :=
  match d.fmInHand 6 with
  | some c =>
    match d.maintRefusal 6 c.index with
    | some (dt, _, _) => (d.maintRefused 6).fmApplied c [] 1 0xFC dt
    | none =>
      let (n, d) := d.maintStart 6 c.index c.arg 0 0
      let job : XferJob := { xid := c.xid, dst := c.index, parts := bitsOf c.arg 15 0, bar := bitsOf c.arg 23 16
                             epoch := c.epoch, tables := bitsOf c.arg 29 24, slot := n }
      (d.updSys fun s => { s with xfer := { s.xfer.jobOver with job := some job } }).fmApplied c [] 0 0 0
  | none => d

/-- FM_RESERVED_OP: another OP, or a field outside its range. -/
def Dev.fmReserved (d : Dev) : Dev :=
  match d.sys.fm with
  | some c => if !c.applied && fmBad c then d.fmApplied c [] 1 0xFC 0 else d
  | none => d

/-- FM_ACK_SEND: once the record is durable the ACK leaves (R587); a RESET then follows. -/
def Dev.fmAckSend (d : Dev) : Dev :=
  match d.sys.fm with
  | some c =>
    if c.applied && d.sys.flash.item 3 == some (ackValue c) then
      (d.toFm (ackBytes c)).updSys fun s => { s with
        fm := none, fmAck := ackBytes c, fmReset := s.fmReset || (c.op == 4 && c.status == 0) }
    else d
  | none => d

end Sys2Proof.Machine
end

