-- ==== Sys2Proof/Machine/Entry.lean ====
section
/-! DEFINITION. The steps of a device-state change (14: R524). -/

namespace Sys2Proof.Machine

/-- The step after step n of an entry into y. -/
def nextStep (n y : Nat) : Nat :=
  match n with
  | 2 => if y = 3 then 3 else 4
  | 6 => if y = 3 then 7 else 8
  | _ => n + 1

/-- POWER_ENTRY_STEP_COMPLETE: when the step in progress has finished, the next one starts; at the end the target is
reached. In step 7 the core follows the engines
once the last heartbeat has left (R584). -/
def Dev.entryStep (d : Dev) : Dev :=
  match d.sys.pwr.cur with
  | none => d
  | some x =>
    let y := x.arg 28 1 % 4
    match d.sys.pwr.step with
    | 0 => d
    | 7 =>
      if (List.range 16).any fun e => d.domState (70 + e) = 3 then d
      else if d.domOn coreDom then d.lastHeartbeat.switchOff [coreDom]
      else if d.domState coreDom = 3 then d
      else d.entryDone x
    | 8 =>
      let d := d.wakeSome y
      if (d.wanted y).isEmpty then d.entryDone x else d
    | n =>
      let d := d.stepMore n y
      if d.stepDone n y then d.stepBegin (nextStep n y) y else d

/-- A reset aborts an entry in progress, agent class host (15: R554). -/
def Dev.entryReset (d : Dev) : Dev := if d.sys.pwr.cur.isSome then d.entryAbort 4 0 else d

/-- DOMAIN_RESET: a FAILED domain starts a new wake (R519, R522). -/
def Dev.domReset (d : Dev) (n : Nat) : Dev := d.atHome n fun n => if d.domFailed n then
  d.wakeDom n else d

/-- A wake pattern met while the engine or the core is off wakes them; the dozing link relocks, without a wake pattern of
its own (R125, R526). -/
def Dev.wakeDetect (d : Dev) (p : Nat) : Dev :=
  let e := engineDom (p / 16)
  let d := if d.domState e = 2 then d else d.demand e
  if d.domState coreDom = 2 then d.relockPort p else d.demand coreDom

/-- Does anything for a port wait in its egress queues? -/
def Dev.portWaits (d : Dev) (p : Nat) : Bool :=
  ((List.range 16).any fun q => !((d.queue p).cells q).isEmpty) || !(d.s2Of p).isEmpty || !(d.link p).txSel.isEmpty

/-- TX_SLOT: a transmit boundary of port p (R100): restripe markers in RESTRIPE (R118), training words or slots in a
training (R120), markers while a dozing link relocks (R125). A dozing port that a flit waits for wakes, its engine first
(R526). -/
def Dev.txBoundary (d : Dev) (p : Nat) : Dev :=
  match (d.port p).state with
  | .restripe => d.txRestripe p
  | .training | .measuring => d.txTraining p
  | _ =>
    if (d.link p).lstate == .doze then
      if (d.link p).waking then d.sendMarkers p 1
      else if !d.portWaits p then d
      else if d.domOn (engineDom (p / 16)) then d.wakePort p
      else d.demand (engineDom (p / 16))
    else d.txSlot p

/-- Is an error count over 1 ms above ten times the readiness threshold (R52, R59)? -/
def Dev.rateFails (d : Dev) (errs : Nat) : Bool :=
  decide (10 * d.fd F.PORT_BER_CFG_THR_M * 226560000 < errs * 10 ^ d.fd F.PORT_BER_CFG_THR_E)

/-- WAVELENGTH_FAIL (R52): a transmit wavelength that its photodiode has marked, a receive wavelength that has lost clock
lock or has too many errors; while a receive lane is under a margin scan its error rate fails no wavelength (R607). -/
def Dev.waveLost (d : Dev) (p : Nat) (rx : Bool) (i : Nat) (errs : Option Nat) : Dev :=
  match rx, errs with
  | false, _ => if d.lineOk (p / 4) i then d else d.waveFail p false i
  | true, none => d.waveFail p true i
  | true, some n => if d.rateFails n && !(d.underScan p i) then d.waveFail p true i else d

end Sys2Proof.Machine
end

