-- ==== Sys2Proof/Machine/Sequencer.lean ====
section
/-! DEFINITION. The sequencer (07: R268-R310). A word issues with its FLOW command; a slot's own command makes
that slot act ahead of it, in the same cc. -/

namespace Sys2Proof.Machine

/-- Does the word read KSRC (R277)? -/
def usesKsrc (w : BitVec 128) : Bool :=
  [3, 4, 5].contains (wKop w) || (wPush w ≠ 0 && ((wMux w).contains 4 || wTagsel w = 2))

/-- The fields no active slot uses: their value, to be zero (R277). -/
def unusedBits (w : BitVec 128) : List Nat :=
  let fl := wFlow w
  let z := fun (used : Bool) (v : Nat) => if used then 0 else v
  [z (fl == 1 || fl == 2 || fl == 3) (wTarget w), z (fl == 2 || fl == 3) (wCsel w), z (fl == 4) (wWsel w),
   z (wKop w != 0) (wKdst w), z (usesKsrc w) (wKsrc w),
   z ([1, 2, 6].contains (wKop w) || (wCop w != 0 && wCbi w == 1) || (wPush w != 0 && wTagsel w == 1))
     (wImm w).toNat,
   z (wCop w != 0) (wCdst w), z (wCop w != 0) (wCa w), z (wCop w != 0) (wCbi w),
   z (wCop w != 0 && wCbi w == 0) (wCb w), z (wAgsel w != 0) (wAgop w),
   z (wAgsel w != 0 && wAgop w == 2) (wPset w), z (wPush w != 0) (wTpl w), z (wPush w != 0) (wf w 51 43),
   z (wPush w != 0) (wTagsel w), z (wBarr w || (fl == 4 && wWsel w == 0xB)) (wBar w), wf w 29 0]

/-- The checks of R277 in the first cc of a word: reason and slot. Among several the order is FLOW, then the
fields by slot, then unused bits (log entry 31). -/
def wordBad (w : BitVec 128) : Option (Nat × Nat) :=
  if 8 ≤ wFlow w then some (0x01, 0)
  else if wFlow w = 4 && (wWsel w = 0 || 0xC ≤ wWsel w) then some (0x02, 0)
  else if wKop w = 7 then some (0x02, 1)
  else if wCop w = 7 && 2 < wCa w then some (0x02, 2)
  else if wAgsel w ≠ 0 && wAgop w = 3 then some (0x02, 3)
  else if 5 ≤ wPush w || (wPush w ≠ 0 && ((wMux w).contains 7 || wTagsel w = 3)) then some (0x02, 4)
  else if (unusedBits w).any (· ≠ 0) then some (0x03, 0)
  else none

/-! Address generators (R285-R287) -/

/-- May the set be loaded (R287)? -/
def setValid (s : BitVec 256) : Bool :=
  s.getLsbD 0 && (s.extractLsb' 112 16) != 0 && (s.extractLsb' 96 16) != 0 && (s.extractLsb' 80 16) != 0

/-- ag_out of R286. -/
def Gen.out (g : Gen) : BitVec 32 :=
  g.set.extractLsb' 224 32 + BitVec.ofNat 32 g.i0 * g.set.extractLsb' 192 32 +
    BitVec.ofNat 32 g.i1 * g.set.extractLsb' 160 32 + BitVec.ofNat 32 g.i2 * g.set.extractLsb' 128 32

/-- ag_step of R286. -/
def Gen.step (g : Gen) : Gen :=
  if g.i0 + 1 ≠ (g.set.extractLsb' 112 16).toNat then { g with i0 := g.i0 + 1 }
  else if g.i1 + 1 ≠ (g.set.extractLsb' 96 16).toNat then { g with i0 := 0, i1 := g.i1 + 1 }
  else if g.i2 + 1 ≠ (g.set.extractLsb' 80 16).toNat then { g with i0 := 0, i1 := 0, i2 := g.i2 + 1 }
  else { g with i0 := 0, i1 := 0, i2 := 0, wrap := true }

def Gen.restart (g : Gen) : Gen := { g with i0 := 0, i1 := 0, i2 := 0, wrap := false }
def Gen.load (s : BitVec 256) : Gen := { loaded := true, set := s, i0 := 0, i1 := 0, i2 := 0, wrap := false }

/-! Presenting a word -/

/-- Does the condition of a WAIT hold (R279)? .inl: the halt it takes instead (R291-R293). -/
def Dev.waitCond (d : Dev) (i : Nat) (r : RunSt) (w : BitVec 128) : (Nat × Nat) ⊕ Bool :=
  let t := d.tile (d.phys i)
  let s := wWsel w
  let done := fun (es : List Nat) => !(t.pushedBusy r.ctx es) && !(t.fresh.any fun x => es.contains x.1 && x.2 = r.ctx)
  if s ≤ 4 then .inr (decide ((t.queue (s - 1)).length < 32))
  else if s ≤ 8 then .inr (done [s - 5])
  else if s = 9 then .inr (done [0, 1, 2, 3])
  else if s = 0xA then
    match d.group r.ctx with
    | none => .inl (0x09, 5)
    | some (_, ok) => .inr ok
  else
    match r.bar with
    | none => .inl (0x0B, 5)
    | some (b, ep) =>
      if b ≠ wBar w then .inl (0x0B, 5)
      else if t.arr.any fun a => a.1 = b && a.2.1 = r.ctx then .inr false
      else if behind 65536 ep (d.bar b).epoch then .inr true
      else if (d.bar b).failed then .inl (0x0D, 5)
      else .inr false

/-- What the issue of a word meets, in the order of its slots: .inl a halt (reason, slot), .inr a hazard of a
slot (R282, R287, R289, R291-R293, R299). -/
def Dev.issueChecks (d : Dev) (i : Nat) (r : RunSt) (w : BitVec 128) : List ((Nat × Nat) ⊕ Nat) :=
  let t := d.tile (d.phys i)
  let fl := wFlow w
  let grp := match d.group r.ctx with
    | some (_, ok) => ok
    | none => false
  let halt := fun (b : Bool) (reason slot : Nat) => if b then [(.inl (reason, slot) : (Nat × Nat) ⊕ Nat)] else []
  let haz := fun (b : Bool) (slot : Nat) => if b then [(.inr slot : (Nat × Nat) ⊕ Nat)] else []
  halt (r.branch.isSome && fl ≠ 0) 0x04 0 ++ halt (fl = 7) 0x1F 0 ++
  haz ((fl = 2 || fl = 3) && wCop w ≠ 0 && wCdst w = wCsel w) 0 ++
  haz (fl = 4 && wWsel w = 0xA && r.relLate) 0 ++
  haz ([3, 4, 5].contains (wKop w) && r.kLate (wKsrc w)) 1 ++
  (if wCop w = 7 then halt (!(r.gLoaded (wCa w))) 0x07 3 ++ haz (r.gLate (wCa w)) 2
   else if wCop w ≠ 0 then haz (r.kLate (wCa w)) 2 ++ haz (wCbi w = 0 && r.kLate (wCb w)) 2
   else []) ++
  (if wAgsel w ≠ 0 then
     if wAgop w = 2 then halt (!(setValid (tblGet 0 t.pset (wPset w)))) 0x07 3
     else halt (!(r.gLoaded (wAgsel w - 1))) 0x07 3
   else []) ++
  (if wPush w ≠ 0 then
     ((wMux w).map fun m =>
       if 1 ≤ m && m ≤ 3 then halt (!(r.gLoaded (m - 1))) 0x07 3 ++ haz (r.gLate (m - 1)) 4
       else if m = 4 then haz (r.kLate (wKsrc w)) 4
       else if m = 5 || m = 6 then haz r.relLate 4 ++ halt (!grp) 0x09 5
       else []).flatten ++
     haz (wTagsel w = 2 && r.kLate (wKsrc w)) 4 ++ halt (32 ≤ (t.queue (wPush w - 1)).length) 0x06 4
   else []) ++
  (if wOfs w then haz r.relLate 5 ++ halt (!grp) 0x09 5 else []) ++
  (if wBarr w then
     halt (!(d.bit F.CORE_BAR_VALID (wBar w) && d.bit F.CORE_BAR_LOCAL (wBar w) &&
       d.fd F.CORE_BAR_PART (wBar w) == (d.ctx r.ctx).part)) 0x0B 5
   else [])

/-- The checks walked in order: hazards are counted, and halt under HAZ 0b10 unless HOK is set (R299). -/
def walkChecks (haz : Nat) (hok : Bool) : List ((Nat × Nat) ⊕ Nat) → Nat × Option (Nat × Nat)
  | [] => (0, none)
  | .inl h :: _ => (0, some h)
  | .inr slot :: l =>
    if hok || haz = 0 then walkChecks haz hok l
    else if haz = 2 then (1, some (0x08, slot))
    else
      let (n, h) := walkChecks haz hok l
      (n + 1, h)

def Dev.setRun (d : Dev) (i : Nat) (r : RunSt) : Dev := d.updTile (d.phys i) fun t => { t with run := some r }

/-- The word at pc presented for issue (R277, R284, R307): the device, and the run and word when it may issue
now. A WAIT whose condition does not hold does not issue. -/
def Dev.present (d : Dev) (i : Nat) (f : Fetch) : Dev × Option (RunSt × BitVec 128) :=
  let pt := d.phys i
  match (d.tile pt).run with
  | none => (d, none)
  | some r =>
    if r.ending then (d, none)
    else if 0xFFF < r.pc then (d.halt i r 0xFFF 0x05 0, none)
    else
      let d := match f with
        | .ok => d
        | .corrected => d.count .SEQ_PMEM_CORR_CNT i
        | .bad => d.updTile pt fun t => { t with pbad := tblPut false r.pc true t.pbad }
      if tblGet false (d.tile pt).pbad r.pc then (d.halt i r r.pc 0x0C 6, none)
      else
        let w := (d.tile pt).word r.pc
        if r.acted.isSome then (d, some (r, w))
        else match wordBad w with
          | some (reason, slot) => (d.halt i r r.pc reason slot, none)
          | none =>
            let go := fun (d : Dev) =>
              let (n, h) := walkChecks r.haz (wHok w) (d.issueChecks i r w)
              let d := d.countN .SEQ_HAZ_CNT i 0 n
              match h with
              | some (reason, slot) => (d.halt i r r.pc reason slot, none)
              | none =>
                let r := { r with acted := some [], stall := none }
                (d.setRun i r, some (r, w))
            if wFlow w = 4 && r.branch.isNone then
              match d.waitCond i r w with
              | .inl (reason, slot) => (d.halt i r r.pc reason slot, none)
              | .inr true => go d
              | .inr false => (d, none)
            else go d

/-! The slots (R273-R276, R286-R293) -/

/-- The counter slot. -/
def Dev.actKop (d : Dev) (i : Nat) (r : RunSt) (w : BitVec 128) : Dev :=
  let cur := r.readK (wKdst w)
  let src := r.readK (wKsrc w)
  let imm := (wImm w).signExtend 32
  let v : BitVec 32 := match wKop w with
    | 1 => imm
    | 2 => cur + imm
    | 3 => cur + src
    | 4 => cur - src
    | 5 => src
    | _ => (wImm w) ++ cur.extractLsb' 0 16
  d.setRun i { r with k := updAt r.k (wKdst w) fun l => l.write 2 r.cc v }

/-- The comparator slot. -/
def Dev.actCop (d : Dev) (i : Nat) (r : RunSt) (w : BitVec 128) : Dev :=
  let x := r.readK (wCa w)
  let y := if wCbi w = 1 then (wImm w).signExtend 32 else r.readK (wCb w)
  let v : Bool := match wCop w with
    | 1 => x == y
    | 2 => x != y
    | 3 => decide (x.toNat < y.toNat)
    | 4 => decide (y.toNat ≤ x.toNat)
    | 5 => decide (x.toInt < y.toInt)
    | 6 => decide (y.toInt ≤ x.toInt)
    | _ => (r.readG (wCa w)).wrap
  d.setRun i { r with c := updAt r.c (wCdst w) fun l => l.write 1 r.cc v }

/-- The generator slot. -/
def Dev.actAg (d : Dev) (i : Nat) (r : RunSt) (w : BitVec 128) : Dev :=
  let g := (r.gen (wAgsel w - 1)).newest
  let g := match wAgop w with
    | 0 => g.step
    | 1 => g.restart
    | _ => Gen.load (tblGet 0 (d.tile (d.phys i)).pset (wPset w))
  d.setRun i { r with g := updAt r.g (wAgsel w - 1) fun l => l.write 3 r.cc g }

/-- The value a MUX selects for an operand (R276). -/
def Dev.muxVal (d : Dev) (r : RunSt) (w : BitVec 128) (m : Nat) (own : BitVec 32) : BitVec 32 :=
  match m with
  | 0 => own
  | 4 => r.readK (wKsrc w)
  | 5 => BitVec.ofNat 32 (d.ctx r.ctx).base
  | 6 => BitVec.ofNat 32 ((d.ctx r.ctx).groupAddr (d.ctx r.ctx).base)
  | m => (r.readG (m - 1)).out

/-- A command entered in an engine's queue (R289). -/
def Dev.enqueueCmd (d : Dev) (t e : Nat) (m : EngCmd) : Dev :=
  d.updTile t fun x => { x with
    q := tblPut [] e (x.queue e ++ [{ m with serial := x.serial, unseen := 2 }]) x.q, serial := x.serial + 1 }

/-- The push slot (R288). -/
def Dev.actPush (d : Dev) (i : Nat) (r : RunSt) (w : BitVec 128) : Dev :=
  let pt := d.phys i
  let t := d.tile pt
  let tp := t.tpl (wTpl w)
  let opnd := fun (m lo : Nat) => d.muxVal r w m (tp.extractLsb' lo 32)
  let tag := pushTag t r w
  let raw : BitVec 256 := (tp.extractLsb' 248 8 ++ BitVec.ofNat 12 r.ctx ++ BitVec.ofNat 16 tag ++
    tp.extractLsb' 96 124 ++ opnd (wf w 51 49) 64 ++ opnd (wf w 48 46) 32 ++ opnd (wf w 45 43) 0 : BitVec 256)
  ((d.setRun i { r with lastTag := tag }).loupe { tile := i, kind := 0, eng := wPush w - 1, tag := tag, ctx := r.ctx,
                                                   pc := r.pc, code := bitsOf raw.toNat 255 248 }).enqueueCmd
    pt (wPush w - 1)
    { raw := raw, serial := 0, unseen := 2, builtin := false, pc := r.pc, dead := false }

/-- The epoch for which an arrival at barrier b counts now (R293). -/
def Dev.barEpoch (d : Dev) (b : Nat) : Nat :=
  let x := d.bar b
  if x.state == .releasing then (x.epoch + 1) % 65536 else x.epoch

/-- The barrier slot (R293): the run's arrival, on its way to the barrier unit, which sees it two cc on (R278). -/
def Dev.actBarr (d : Dev) (i : Nat) (r : RunSt) (w : BitVec 128) : Dev :=
  let b := wBar w
  (d.setRun i { r with bar := some (b, d.barEpoch b) }).updTile (d.phys i) fun t => { t with
    arr := t.arr ++ [(b, r.ctx, 2)] }

/-- An arrival of a program reaches the barrier unit: the run records the epoch it counts for (R278, R293). -/
def Dev.arrive (d : Dev) (i b c : Nat) : Dev :=
  (d.updTile (d.phys i) fun t => { t with
    run := t.run.map fun r => if r.ctx = c && (r.bar.map (·.1)) == some b then { r with bar := some (b, d.barEpoch b) } else r
    }).barLocal b

/-- n cc pass on tile i: engines see pushes, WAITs completions, and the barrier unit arrivals (R278). -/
def Dev.tilePass (d : Dev) (i n : Nat) : Dev :=
  let pt := d.phys i
  let due := (d.tile pt).arr.filter fun a => decide (a.2.2 ≤ n)
  let d := d.updTile pt fun t => { t with
    q := tblMap [] (fun _ l => l.map fun m => { m with unseen := m.unseen - n }) t.q
    fresh := []
    arr := (t.arr.filter fun a => decide (n < a.2.2)).map fun a => (a.1, a.2.1, a.2.2 - n) }
  due.foldl (fun d a => d.arrive i a.1 a.2.1) d

/-- The release slot (R292): the release takes effect two cc on. -/
def Dev.actOfs (d : Dev) (i : Nat) (r : RunSt) : Dev :=
  d.setRun i { r with rel := r.rel ++ [(r.cc + 2, (d.ctx r.ctx).base + 1)] }

/-- The slots by number: 1 counter, 2 comparator, 3 generator, 4 push, 5 barrier, 6 release. -/
def slotUsed (w : BitVec 128) (s : Nat) : Bool :=
  match s with
  | 1 => wKop w != 0 | 2 => wCop w != 0 | 3 => wAgsel w != 0 | 4 => wPush w != 0 | 5 => wBarr w | _ => wOfs w

/-- One slot of the word at pc acts, once. -/
def Dev.actSlot (d : Dev) (i : Nat) (w : BitVec 128) (s : Nat) : Dev :=
  match (d.tile (d.phys i)).run with
  | none => d
  | some r =>
    let done := r.acted.getD []
    if done.contains s || !(slotUsed w s) then d
    else
      let r := { r with acted := some (done ++ [s]) }
      match s with
      | 1 => d.actKop i r w
      | 2 => d.actCop i r w
      | 3 => d.actAg i r w
      | 4 => d.actPush i r w
      | 5 => d.actBarr i r w
      | _ => d.actOfs i r

/-- A slot's own command: the word at pc has the slot in the form the command names. -/
def Dev.slotRow (d : Dev) (i : Nat) (f : Fetch) (s : Nat) (names : BitVec 128 → Bool) : Dev :=
  match (d.tile (d.phys i)).run with
  | none => d
  | some r =>
    if names ((d.tile (d.phys i)).word r.pc) && !((r.acted.getD []).contains s) then
      match d.present i f with
      | (d, some (_, w)) => d.actSlot i w s
      | (d, none) => d
    else d

/-! The end of a word -/

/-- n cc pass for the run on tile i: releases that fall due take effect, and flits waiting for group memory are
written (R278, R292). -/
def seqPass (i n : Nat) (m : Mem) (d : Dev) : Mem × Dev :=
  let pt := d.phys i
  let d := d.tilePass i n
  match (d.tile pt).run with
  | none => (m, d)
  | some r =>
    let cc := r.cc + n
    let due := r.rel.filter fun x => decide (x.1 ≤ cc)
    let d := d.setRun i { r with cc := cc, rel := r.rel.filter fun x => decide (cc < x.1) }
    let bound := (d.tile pt).serial
    let d := due.foldl (fun (d : Dev) x => d.updCtx r.ctx fun y =>
      if y.base < x.2 then { y with base := x.2, unfreed := y.unfreed ++ [(x.2 - 1, bound)] } else y) d
    if due.isEmpty then (m, d) else groupWrite r.ctx m d

/-- The address after the word that has just issued, with its delay slots (R272, R282). -/
def RunSt.next (r : RunSt) (w : BitVec 128) : RunSt :=
  let fl := wFlow w
  let taken := fl = 1 || (fl = 2 && r.readC (wCsel w)) || (fl = 3 && !(r.readC (wCsel w)))
  let (pc, br) := match r.branch with
    | some (a, n) => if n ≤ 1 then (a, none) else (r.pc + 1, some (a, n - 1))
    | none => (r.pc + 1, none)
  let br := if fl = 1 || fl = 2 || fl = 3 then some (if taken then wTarget w else r.pc + 3, 2) else br
  { r with pc := pc, branch := br, acted := none, stall := none }

/-- Every slot of an issued word acts and the run moves to the next address; one cc passes. -/
def issueWord (i : Nat) (w : BitVec 128) (m : Mem) (d : Dev) : Mem × Dev :=
  let d := [1, 2, 3, 4, 5, 6].foldl (fun (d : Dev) s => d.actSlot i w s) d
  match (d.tile (d.phys i)).run with
  | none => (m, d)
  | some r => seqPass i 1 m (d.setRun i (r.next w))

/-- A flow command that only moves on: NEXT, JUMP, BRT, BRF, and those that halt. -/
def flowRow (i : Nat) (f : Fetch) (names : Nat → Bool) (m : Mem) (d : Dev) : Mem × Dev :=
  match (d.tile (d.phys i)).run with
  | none => (m, d)
  | some r =>
    if 0xFFF < r.pc || names (wFlow ((d.tile (d.phys i)).word r.pc)) then
      match d.present i f with
      | (d, some (_, w)) => issueWord i w m d
      | (d, none) => (m, d)
    else (m, d)

/-- FLOW_WAIT (R283): the word issues when its condition holds; else the sequencer stalls. -/
def flowWait (i : Nat) (f : Fetch) (m : Mem) (d : Dev) : Mem × Dev :=
  match (d.tile (d.phys i)).run with
  | none => (m, d)
  | some r =>
    if 0xFFF < r.pc || (wFlow ((d.tile (d.phys i)).word r.pc) = 4 && r.stall.isNone) then
      match d.present i f with
      | (d, some (_, w)) => issueWord i w m d
      | (d, none) =>
        match (d.tile (d.phys i)).run with
        | none => (m, d)
        | some r => seqPass i 1 m ((d.setRun i { r with stall := some 1 }).count .SEQ_STALL_CNT i)
    else (m, d)

/-- WAIT_CONDITION_MET: a stalled WAIT whose condition holds issues. -/
def waitMet (i : Nat) (m : Mem) (d : Dev) : Mem × Dev :=
  match (d.tile (d.phys i)).run with
  | none => (m, d)
  | some r =>
    if r.stall.isSome then
      match d.present i .ok with
      | (d, some (_, w)) => issueWord i w m d
      | (d, none) => (m, d)
    else (m, d)

/-- WAIT_WATCHDOG (R283). -/
def Dev.waitWatchdog (d : Dev) (i : Nat) : Dev :=
  match (d.tile (d.phys i)).run with
  | none => d
  | some r =>
    if r.stall.isSome && d.fd F.SEQ_CFG_WDOG i ≠ 0 then
      match d.waitCond i r ((d.tile (d.phys i)).word r.pc) with
      | .inr true => d
      | _ => d.halt i r r.pc 0x0A 0
    else d

/-- One cc of the core clock: it passes for every tile but those whose run issues words, for which each word is one
(R270); a stalled run counts it (R283, SEQ_STALL_CNT). -/
def seqTick (m : Mem) (d : Dev) : Mem × Dev :=
  (List.range 32).foldl (fun (a : Mem × Dev) i =>
    match (a.2.tile (a.2.phys i)).run with
    | some r => match r.stall with
      | some n => seqPass i 1 a.1 ((a.2.setRun i { r with stall := some (n + 1) }).count .SEQ_STALL_CNT i)
      | none => if r.ending then seqPass i 1 a.1 a.2 else a
    | none => (a.1, a.2.tilePass i 1)) (m, d)

/-! Start, yield and end (R262, R294-R297) -/

/-- The OPEN user-program contexts of a tile, but one. -/
def Dev.userOpen (d : Dev) (i : Nat) (but : Option Nat) : List Nat :=
  (d.tileCtxs i).filter fun c => (d.ctx c).state == .open_ && (d.ctx c).desc.user && some c ≠ but

/-- The one whose oldest taken flit is oldest; ties to the lower CTX (R262). -/
def Dev.oldestOf (d : Dev) (l : List Nat) : Option Nat :=
  l.foldl (fun (b : Option Nat) c => match b with
    | none => some c
    | some y => if (d.ctx c).firstTaken < (d.ctx y).firstTaken then some c else some y) none

/-- The context the sequencer of tile i selects; one that has just yielded only when there is no other. -/
def Dev.selected (d : Dev) (i : Nat) : Option Nat :=
  let y := (d.tile (d.phys i)).yielder
  match d.oldestOf (d.userOpen i y) with
  | some c => some c
  | none => d.oldestOf (d.userOpen i none)

/-- The initial state of a run of context c (R294). -/
def Dev.freshRun (d : Dev) (i c : Nat) : RunSt :=
  let x := d.ctx c
  let t := d.tile (d.phys i)
  { ctx := c, pc := x.desc.prog % 4096, cc := 0
    k := [0, 0, 0, 0, 0, 0, BitVec.ofNat 32 x.e, BitVec.ofNat 32 c].map Lag.pure_
    c := [false, false, false, false].map Lag.pure_
    g := [0, 1, 2].map fun n =>
      let s := tblGet 0 t.pset n
      Lag.pure_ (if setValid s then Gen.load s else Gen.none_)
    lastTag := 0, bar := none, branch := none, stall := none, acted := none, rel := [], ending := false
    endPc := 0, haz := 0 }

/-- An address generator in the captured state (R296). -/
def Gen.image (g : Gen) : List (BitVec 8) :=
  leBytes 32 g.set.toNat ++ leBytes 2 g.i0 ++ leBytes 2 g.i1 ++ leBytes 2 g.i2 ++ leBytes 2 0

/-- The captured state of a run that has settled (R296). An address past the last word sets bit 12 of PC. -/
def RunSt.image (r : RunSt) : List (BitVec 8) :=
  let g := (List.range 3).map fun n => (r.gen n).newest
  let c := (List.range 4).map fun n => (r.c.getD n (Lag.pure_ false)).newest
  let flags := fun (l : List Bool) => l.zipIdx.foldl (fun a b => a + b2n b.1 <<< b.2) 0
  leBytes 2 r.pc ++ leBytes 1 (flags c) ++ leBytes 1 (flags (g.map (·.wrap)) + flags (g.map (·.loaded)) <<< 4) ++
    leBytes 2 r.lastTag ++ leBytes 1 ((r.bar.map (·.1)).getD 0) ++ leBytes 1 (b2n r.bar.isSome) ++
    leBytes 2 ((r.bar.map (·.2)).getD 0) ++ leBytes 6 0 ++
    (List.range 8).flatMap (fun j => leBytes 4 (r.kReg j).newest.toNat) ++ g.flatMap Gen.image ++ leBytes 88 0

/-- An address generator read back. -/
def Gen.ofImage (bs : List (BitVec 8)) (loaded wrap : Bool) : Gen :=
  { loaded := loaded, set := BitVec.ofNat 256 (leAt bs 0 32), i0 := leAt bs 32 2, i1 := leAt bs 34 2, i2 := leAt bs 36 2,
    wrap := wrap }

/-- A run that resumes from its captured state (R295, R296). -/
def RunSt.ofImage (c : Nat) (bs : List (BitVec 8)) : RunSt :=
  { ctx := c, pc := leAt bs 0 2, cc := 0
    k := (List.range 8).map fun j => Lag.pure_ (BitVec.ofNat 32 (leAt bs (16 + 4 * j) 4))
    c := (List.range 4).map fun n => Lag.pure_ (bitAt (byteAt bs 2) n)
    g := (List.range 3).map fun n => Lag.pure_ (Gen.ofImage (bs.drop (48 + 40 * n)) (bitAt (byteAt bs 3) (4 + n))
      (bitAt (byteAt bs 3) n))
    lastTag := leAt bs 4 2
    bar := if bitAt (byteAt bs 7) 0 then some (byteAt bs 6, leAt bs 8 2) else none
    branch := none, stall := none, acted := none, rel := [], ending := false, endPc := 0, haz := 0 }

/-- SEQ_RUN_START and SEQ_RUN_RESUME: the selected context's instance starts, or its yielded run resumes; a
context that is not resident is restored first (R257, R294, R295, R300). No run starts while the tile is
quiesced (R507) or a load waits for this switch point (R305). -/
def Dev.seqRun (d : Dev) (i : Nat) (resume : Bool) : Dev :=
  let pt := d.phys i
  let t := d.tile pt
  if t.run.isSome || !t.loads.isEmpty || d.scopeHeld 3 i then d
  else match d.selected i with
    | none => d
    | some c =>
      let x := d.ctx c
      if x.saved.isSome ≠ resume then d
      else if x.resident then
        let r := match x.saved with
          | some bs => RunSt.ofImage c bs
          | none => d.freshRun i c
        let h := d.fd F.SEQ_CFG_HAZ i
        let d := if resume then d else d.loupe { tile := i, kind := 4, ctx := c, pc := r.pc }
        ((d.updCtx c fun x => { x with saved := none }).updTile pt fun t => { t with
          run := some { r with haz := if h = 3 then 0 else h }, yielder := none, selWait := none }).tilePass i
            (if resume then 16 else 4)
      else
        let (d, w) := d.needSlot c
        if w && t.selWait ≠ some c then
          (d.count .TILE_RESIDENT_WAIT_CNT i).updTile pt fun t => { t with selWait := some c }
        else d

/-- The run with every pending write landed. -/
def RunSt.settle (r : RunSt) : RunSt :=
  { r with k := r.k.map Lag.settle, c := r.c.map Lag.settle, g := r.g.map Lag.settle }

/-- FLOW_YIELD (R295): the run is captured three cc on; it continues when no other context is eligible and no
load waits. -/
def flowYield (i : Nat) (f : Fetch) (m : Mem) (d : Dev) : Mem × Dev :=
  match (d.tile (d.phys i)).run with
  | none => (m, d)
  | some r =>
    if wFlow ((d.tile (d.phys i)).word r.pc) = 5 then
      match d.present i f with
      | (d, none) => (m, d)
      | (d, some (r0, w)) =>
        let (m, d) := issueWord i w m d
        let (m, d) := seqPass i 2 m d
        match (d.tile (d.phys i)).run with
        | none => (m, d)
        | some r =>
          let d := (d.count .SEQ_YIELD_CNT i).loupe { tile := i, kind := 5, tag := r.lastTag, ctx := r.ctx, pc := r0.pc }
          let r := r.settle
          if (d.userOpen i (some r.ctx)).isEmpty && (d.tile (d.phys i)).loads.isEmpty then (m, d.setRun i r)
          else (m, (d.updCtx r.ctx fun x => { x with saved := some r.image }).updTile (d.phys i) fun t => { t with
            run := none, yielder := some r.ctx })
    else (m, d)

/-- FLOW_END (R297): the run waits for its commands. -/
def flowEnd (i : Nat) (f : Fetch) (m : Mem) (d : Dev) : Mem × Dev :=
  match (d.tile (d.phys i)).run with
  | none => (m, d)
  | some r =>
    if wFlow ((d.tile (d.phys i)).word r.pc) = 6 then
      match d.present i f with
      | (d, none) => (m, d)
      | (d, some (r0, w)) =>
        let (m, d) := issueWord i w m d
        let (m, d) := seqPass i 2 m d
        match (d.tile (d.phys i)).run with
        | none => (m, d)
        | some r =>
          let d := d.loupe { tile := i, kind := 6, tag := r.lastTag, ctx := r.ctx, pc := r0.pc }
          (m, d.setRun i { r with ending := true, endPc := r0.pc, pc := r0.pc })
    else (m, d)

/-- END_COMMANDS_COMPLETE (R297): the instance closes, or the context faults when a group is not released. -/
def Dev.endDone (d : Dev) (i : Nat) : Dev :=
  let pt := d.phys i
  match (d.tile pt).run with
  | none => d
  | some r =>
    if r.ending && !((d.tile pt).pushedBusy r.ctx [0, 1, 2, 3]) then
      match d.group r.ctx with
      | some _ => d.haltTag i r r.endPc 0x0E 7 r.lastTag
      | none => (d.closeCtx r.ctx).updTile pt fun t => { t with run := none }
    else d

/-! Loading (R304-R310) -/

/-- A section of an image (R310). -/
structure Section where
  type : Nat
  first : Nat
  count : Nat
  data : List (BitVec 8)
  deriving DecidableEq, Repr

/-- The sections that follow, none when one of them is invalid; rest is what precedes the CRC. -/
def sectionsOf : Nat → List (BitVec 8) → Option (List Section)
  | 0, rest => if rest.isEmpty then some [] else none
  | n + 1, rest =>
    let ty := byteAt rest 0
    let first := leAt rest 4 4
    let count := leAt rest 8 4
    let bytes := leAt rest 12 4
    let unit := if ty = 1 then 16 else 32
    let lim := if ty = 1 then 4096 else if ty = 2 then 64 else 16
    if rest.length < 16 + bytes || bytes % 16 ≠ 0 || !([1, 2, 3, 0x10, 0x11].contains ty) then none
    else if ty ≤ 3 && (bytes ≠ unit * count || lim < first + count) then none
    else match sectionsOf n (rest.drop (16 + bytes)) with
      | none => none
      | some l =>
        if l.any fun s => s.type = ty && count ≠ 0 && s.count ≠ 0 && decide (first < s.first + s.count) &&
            decide (s.first < first + count) then none
        else some ({ type := ty, first := first, count := count, data := (rest.drop 16).take bytes } :: l)

/-- The sections of a valid Swipeco image (R309, R310); none for an invalid one. -/
def imageSections (img : List (BitVec 8)) : Option (List Section) :=
  let n := leAt img 8 4
  let nsec := leAt img 6 2
  if img.length < 36 || img.take 4 ≠ [0x53, 0x57, 0x50, 0x4F] || leAt img 4 2 ≠ 1 || nsec = 0 || 16 < nsec ||
      n ≠ img.length || leAt img (n - 4) 4 ≠ (crc32 (img.take (n - 4))).toNat then none
  else sectionsOf nsec ((img.take (n - 4)).drop 32)

/-- One section written into the stores of a tile (R269, R304). -/
def TileSt.loadSection (t : TileSt) (s : Section) : TileSt :=
  (List.range s.count).foldl (fun t k =>
    match s.type with
    | 1 => { t with
        pmem := tblPut 0 (s.first + k) (BitVec.ofNat 128 (leAt s.data (16 * k) 16)) t.pmem
        pbad := tblPut false (s.first + k) false t.pbad }
    | 2 => { t with tmpl := tblPut 0 (s.first + k) (BitVec.ofNat 256 (leAt s.data (32 * k) 32)) t.tmpl }
    | 3 => { t with pset := tblPut 0 (s.first + k) (BitVec.ofNat 256 (leAt s.data (32 * k) 32)) t.pset }
    | _ => t) t

/-- The PROG_LOAD descriptor (R304): a valid image waits for a switch point. -/
def Dev.progLoad (d : Dev) (x : Desc) : Dev :=
  match imageSections x.data with
  | none => d.refuse x 0x11
  | some _ => d.updTile (d.phys (x.arg 30 1 % 32)) fun t => { t with
      loads := t.loads ++ [{ fn := x.fn, ring := x.ring, order := x.order, image := x.data }] }

/-- The descriptor of a load. -/
def Dev.loadDesc (d : Dev) (l : LoadSt) : Option Desc := (d.ring l.fn l.ring).active.find? fun x => x.order = l.order

/-- PROG_LOAD_WRITE (R305): at a switch point every section is written and the load completes. -/
def Dev.loadWrite (d : Dev) (i : Nat) : Dev :=
  let pt := d.phys i
  match (d.tile pt).run, (d.tile pt).loads with
  | none, l :: rest =>
    let d := (d.updTile pt fun t => { ((imageSections l.image).getD []).foldl TileSt.loadSection t with
      loads := rest }).count .SEQ_LOAD_CNT i
    match d.loadDesc l with
    | some x => d.completeOk x 0
    | none => d
  | _, _ => d

/-- PROG_LOAD_TIMEOUT (R305): the oldest load that waits completes with 0x10 and writes nothing. -/
def Dev.loadTimeout (d : Dev) (i : Nat) : Dev :=
  let pt := d.phys i
  match (d.tile pt).loads with
  | l :: rest =>
    let d := d.updTile pt fun t => { t with loads := rest }
    match d.loadDesc l with
    | some x => d.refuse x 0x10
    | none => d
  | [] => d

/-! Built-in pushes (R289) -/

/-- BUILTIN_PUSH: a command of the built-in logic takes an entry, or waits for one. -/
def Dev.builtinPush (d : Dev) (i e : Nat) (cmd : BitVec 256) : Dev :=
  let pt := d.phys i
  let m : EngCmd := { raw := cmd, serial := 0, unseen := 2, builtin := true, pc := 0, dead := false }
  let d := d.loupe { tile := i, kind := 0, eng := e, builtin := true, tag := bitsOf cmd.toNat 235 220, ctx := m.ctx,
                     code := bitsOf cmd.toNat 255 248 }
  d.updTile pt fun t => TileSt.letIn { t with
    built := t.built ++ [(e, { m with serial := t.serial })], serial := t.serial + 1 }

end Sys2Proof.Machine
end

