-- ==== Sys2Proof/Machine/View.lean ====
section
/-! DEFINITION. What each register reads (18: R619; R7): the value it holds, or the view of a unit's state. -/

namespace Sys2Proof.Machine

/-- A word put together from fields. -/
def word (l : List (Fld × Nat)) : Nat := l.foldl (fun a e => bitsPut a e.1.hi e.1.lo e.2) 0

/-- The word of a register with some fields replaced. -/
def Dev.over (d : Dev) (r : RegName) (fn i j : Nat) (l : List (Fld × Nat)) : Nat :=
  l.foldl (fun a e => bitsPut a e.1.hi e.1.lo e.2) (d.rawF r fn i j)

def lstateCode : LState → Nat
  | .down => 0 | .init => 1 | .active => 2 | .replay => 3 | .restripe => 4 | .doze => 5

def pdnCode : PdnState → Nat
  | .active => 0 | .held => 1 | .flushing => 2

def ctxCode : CtxState → Nat
  | .free => 0 | .armed => 1 | .open_ => 2 | .faulted => 3

def barCode : BarState → Nat
  | .idle => 0 | .gather => 1 | .wait => 2 | .releasing => 3

/-- SEQ_STAT of tile i (R312). -/
def Dev.seqStat (d : Dev) (i : Nat) : Nat :=
  let t := d.tile (d.phys i)
  let load := (F.SEQ_STAT_LOADING, b2n (!t.loads.isEmpty))
  match t.run with
  | none => word [load]
  | some r =>
    let w := r.stall.isSome
    word [(F.SEQ_STAT_RUN, 1), (F.SEQ_STAT_WAITING, b2n w), (F.SEQ_STAT_WSEL, if w then wWsel (t.word r.pc) else 0),
      load, (F.SEQ_STAT_CTX, r.ctx), (F.SEQ_STAT_PC, r.pc)]

/-- TILE_ENG_STAT of tile i (R359). -/
def Dev.engStat (d : Dev) (i : Nat) : Nat :=
  let t := d.tile (d.phys i)
  let n := fun e => (t.queue e).length
  word [(F.TILE_ENG_STAT_SUMQ, n 0), (F.TILE_ENG_STAT_MOVEQ, n 1), (F.TILE_ENG_STAT_SORTQ, n 2),
    (F.TILE_ENG_STAT_SIFTQ, n 3),
    (F.TILE_ENG_STAT_BUSY, (List.range 4).foldl (fun a e => if (tblGet none t.busy e).isSome then a + 2 ^ e else a) 0)]

/-- TILE_CTX_STAT (R263). -/
def Dev.ctxStat (d : Dev) (c : Nat) : Nat :=
  let x := d.ctx c
  if x.state == .free then 0
  else word [(F.TILE_CTX_STAT_REASON, x.reason), (F.TILE_CTX_STAT_INSTANCE, x.e), (F.TILE_CTX_STAT_STATE, ctxCode x.state),
    (F.TILE_CTX_STAT_RESIDENT, b2n x.slot.isSome), (F.TILE_CTX_STAT_TILE, x.tile), (F.TILE_CTX_STAT_MISSING, x.missing)]

/-- SEC_JRNL_STAT (R577); journal values from ready on (R626). -/
def Dev.jrnlStat (d : Dev) : Nat :=
  let f := d.sys.flash
  if d.bit F.BOOT_STAT_READY then
    word [(F.SEC_JRNL_STAT_GEN, f.gen), (F.SEC_JRNL_STAT_BANK, f.bank),
      (F.SEC_JRNL_STAT_COMPACT, b2n (d.maintSlot 5).isSome), (F.SEC_JRNL_STAT_USED, f.used / 1024),
      (F.SEC_JRNL_STAT_LIVE, f.live.length)]
  else 0

/-- The target of a request. -/
def Desc.target (x : Desc) : Nat := x.arg 28 1 % 4

/-- HOST_QMR_STAT (R514). -/
def qmrStat : Option Qmr → Nat
  | none => 0
  | some q => word [(F.HOST_QMR_STAT_STATE, if q.quiesced then 2 else 1), (F.HOST_QMR_STAT_HOST, q.host),
      (F.HOST_QMR_STAT_FUNC, q.func), (F.HOST_QMR_STAT_INDEX, q.index)]

/-- The live word of a register instance for function fn, before its field map hides WO fields. -/
def Dev.live (d : Dev) (r : RegName) (fn i j : Nat) : Nat :=
  match r with
  | .PORT_OSTAT => d.ostat i
  | .PORT_LANEMAP =>
    let x := d.port i
    if portLinked x.state then word [(F.PORT_LANEMAP_TX_MAP, x.txMap.toNat), (F.PORT_LANEMAP_RX_MAP, x.rxMap.toNat)]
    else word [(F.PORT_LANEMAP_TX_MAP, 0xFFF), (F.PORT_LANEMAP_RX_MAP, 0xFFF)]
  | .PORT_MODE => if (d.port i).state == .absent then bitPut (d.rawF r 0 i 0) 0 false else d.rawF r 0 i 0
  | .PWR_DOM_STAT => d.over r 0 i j [(F.PWR_DOM_STAT_STATE, d.domState i)]
  | .PORT_LSTAT =>
    let l := d.link i
    word [(F.PORT_LSTAT_LSTATE, lstateCode l.lstate), (F.PORT_LSTAT_RESUMED, b2n l.resumed),
      (F.PORT_LSTAT_CONSEC_REPLAY, l.consec), (F.PORT_LSTAT_TX_NEXT, l.txNext), (F.PORT_LSTAT_RX_EXPECT, l.rxExpect)]
  | .PORT_VL_AVAIL => word [(F.PORT_VL_AVAIL_AVAIL, at_ 0 (d.link i).avail j)]
  | .CORE_SLOT_STAT => d.over r 0 i j [(F.CORE_SLOT_STAT_LOCKED, b2n d.core.slotLocked), (F.CORE_SLOT_STAT_SLOT, d.core.slot)]
  | .CORE_TBL_STAT => word [(F.CORE_TBL_STAT_DRAINING, d.draining)]
  | .CORE_TIME_STAT => d.over r 0 i j [(F.CORE_TIME_STAT_LOCKED, b2n d.time.locked)]
  | .CORE_TIME_NOW => d.fabricTime
  | .CORE_BAR_STAT =>
    let b := d.bar i
    word [(F.CORE_BAR_STAT_FAILED, b2n b.failed), (F.CORE_BAR_STAT_STATE, barCode b.state),
      (F.CORE_BAR_STAT_REASON, b.reason), (F.CORE_BAR_STAT_EPOCH, b.epoch)]
  | .QOS_QSTAT => word [(F.QOS_QSTAT_DEPTH, d.depth i j)]
  | .QOS_PDN_STAT => word [(F.QOS_PDN_STAT_STATE, pdnCode (d.queue i).pdn), (F.QOS_PDN_STAT_HELD, d.heldCells i)]
  | .QOS_BUF_STAT => word [(F.QOS_BUF_STAT_INT_USED, d.core.intUsed), (F.QOS_BUF_STAT_BACKED, d.core.backed),
      (F.QOS_BUF_STAT_FREE, d.core.free)]
  | .TILE_CTX_STAT => d.ctxStat i
  | .TILE_CTX_FA => d.over r 0 i j [(F.TILE_CTX_FA_NDET, (d.ctx i).ndet)]
  | .SEQ_STAT => d.seqStat i
  | .SEQ_PMEM_DATA => (((d.tile (d.phys i)).word (d.fd F.SEQ_PMEM_ADDR_ADDR i)).extractLsb' (32 * j) 32).toNat
  | .TILE_ENG_STAT => d.engStat i
  | .POOL_STAT => word [(F.POOL_STAT_STATE, (d.pool i j).state), (F.POOL_STAT_FREE, (d.pool i j).free)]
  | .HOST_CR_SEQ => word [(F.HOST_CR_SEQ_LAST_COMPLETED, (d.ring fn i).lastCompleted),
      (F.HOST_CR_SEQ_LAST_CONSUMED, (d.ring fn i).lastConsumed)]
  | .HOST_CR_STAT => word [(F.HOST_CR_STAT_CONS_IDX, (d.ring fn i).cons), (F.HOST_CR_STAT_STATE, ringCode (d.ring fn i).state),
      (F.HOST_CR_STAT_REASON, (d.ring fn i).reason)]
  | .HOST_QMR_STAT => qmrStat (tblGet none d.qmr i)
  | .HOST_EPOCH => d.rawF .HOST_EPOCH 0 0 0
  | .PWR_STAT =>
    let w := d.sys.pwr
    d.over r 0 i j [(F.PWR_STAT_PEND, b2n w.pend.isSome), (F.PWR_STAT_BUSY, b2n w.cur.isSome),
      (F.PWR_STAT_PTARGET, (w.pend.map Desc.target).getD 0), (F.PWR_STAT_TARGET, (w.cur.map Desc.target).getD 0)]
  | .SEC_JRNL_STAT => d.jrnlStat
  | .SEC_ID_PUB => if d.bit F.SEC_STAT_PUF_OK then (identityPub.extractLsb' (32 * i) 32).toNat else 0
  | _ => d.rawF r fn i j

/-- The bits of a register's field map that a predicate picks. -/
def maskOf (r : RegName) (p : Acc → Bool) : Nat :=
  (regInfo r).fields.foldl (fun a f => if p f.acc then bitsPut a f.hi f.lo (2 ^ (f.hi + 1 - f.lo) - 1) else a) 0

/-- The bits a read returns: WO fields and reserved bits read zero (R7, R8). -/
def readMask (r : RegName) : Nat := maskOf r fun a => a != .wo
def rwMask (r : RegName) : Nat := maskOf r fun a => a == .rw
def w1cMask (r : RegName) : Nat := maskOf r fun a => a == .w1c
def woMask (r : RegName) : Nat := maskOf r fun a => a == .wo
def rcMask (r : RegName) : Nat := maskOf r fun a => a == .rc

/-- The value a read returns from the live register. -/
def Dev.readReg (d : Dev) (r : RegName) (fn i j : Nat) : Nat := d.live r fn i j &&& readMask r

end Sys2Proof.Machine
end

