-- ==== Sys2Proof/Machine/Owner.lean ====
section
/-! DEFINITION. Two hosts: roles and partitions (13: R504-R506); scopes, levels and profiles (13: R507-R511). -/

namespace Sys2Proof.Machine

/-! Roles (R505) -/

/-- The ownership event, to both functions (R495, R505). -/
def Dev.ownEvent (d : Dev) : Dev :=
  d.postBoth
    { cls := 7, reason := 0, part := none
      body := leBytes 1 (d.fd F.HOST_OWN_STATE) ++ leBytes 1 (d.fd F.HOST_OWN_PRIMARY) }

/-- The role takes a state, with a primary; a new primary host is journaled as item 0x0001 (R575). -/
def Dev.ownSet (d : Dev) (state host : Nat) : Dev :=
  let old := d.fd F.HOST_OWN_PRIMARY
  let d := (d.fdSet F.HOST_OWN_STATE 0 0 state).fdSet F.HOST_OWN_PRIMARY 0 0 host
  (if old = host then d else d.fwRecord 4 1 host).ownEvent

/-- An operation the table does not allow (R505, R516). -/
def Dev.ownRefuse (d : Dev) : Dev := d.count .HOST_OWN_REFUSE_CNT

/-- The key under which an ACCEPT of this cc keeps the host that made the offer, plus one. -/
def ownKey : Nat := regKey .HOST_OWN_CTRL 0 0 0

/-- HOST_OWN_CTRL written by function h: 1 OFFER, 2 WITHDRAW, 3 ACCEPT, 4 CLAIM; others ignored (R505, R514). A WITHDRAW
prevails over an ACCEPT of the same cc, whichever comes first. -/
def Dev.ownOp (d : Dev) (h op : Nat) : Dev :=
  let st := d.fd F.HOST_OWN_STATE
  let pr := d.fd F.HOST_OWN_PRIMARY
  match op with
  | 1 => if st = 0 && pr = h then d.ownSet 1 h else d.ownRefuse
  | 2 => if (st = 1 && pr = h) || (st = 0 && (d.hotAt ownKey).1 = h + 1) then d.ownSet 0 h else d.ownRefuse
  | 3 => if st = 1 && pr ≠ h then (d.ownSet 0 h).setHot ownKey (pr + 1, 0) else d.ownRefuse
  | 4 => if st = 2 then d.ownSet 0 h else d.ownRefuse
  | _ => d

/-- OWN_OFFER_TIMEOUT. -/
def Dev.ownOfferEnd (d : Dev) : Dev :=
  if d.fd F.HOST_OWN_STATE = 1 then d.ownSet 0 (d.fd F.HOST_OWN_PRIMARY) else d

/-- OWN_ORPHAN_TIMEOUT: the primary's link has been down, or it has been in FLR, for 1 s. -/
def Dev.ownOrphan (d : Dev) : Dev :=
  let pr := d.fd F.HOST_OWN_PRIMARY
  let f := d.fn pr
  if d.fd F.HOST_OWN_STATE ≠ 2 && (!f.linkUp || f.flr) then d.ownSet 2 pr else d

/-! Partitions (R506) -/

/-- The partition of a context: its own, or for a FREE one the descriptor's (R481). -/
def Dev.ctxPart (d : Dev) (c part : Nat) : Nat := if (d.ctx c).state == .free then part else (d.ctx c).part

/-- The records of a TABLE_UPDATE (R172): TABLE, INDEX, VALUE. -/
def tblRecs (x : Desc) : List (Nat × Nat × Nat) :=
  (recs16 x.data (x.arg 28 1)).map fun r => (byteAt r 15 / 16, leAt r 8 2, leAt r 0 8)

/-- The old and new PART of each CORE_CTX record (R481). -/
def Dev.recParts (d : Dev) (x : Desc) : List Nat :=
  ((tblRecs x).filter fun r => r.1 == 4).flatMap fun r => [d.fd F.CORE_CTX_PART (r.2.1 % 4096), bitsOf r.2.2 46 43]

/-- The partitions on whose ownership the authority of a descriptor rests (R481, R506, R507, R549, R575). -/
def Dev.descParts (d : Dev) (x : Desc) : List Nat :=
  let part := x.part
  let c := x.arg 28 2 % 4096
  match x.op with
  | 1 => if x.prim then [] else d.recParts x
  | 2 | 6 | 7 | 8 | 9 => [part]
  | 3 | 4 => [d.ctxPart c part]
  | 5 => [d.fd F.TILE_PART_PART (x.arg 30 1 % 32)]
  | 0xA | 0xB | 0xC => if x.arg 28 1 = 3 then [d.fd F.TILE_PART_PART (x.arg 30 2 % 32)] else []
  | 0xD => if x.arg 28 1 = 3 then [part] else []
  | _ => []

/-- The descriptors a function has accepted that have not completed. -/
def Dev.openDescs (d : Dev) (h : Nat) : List Desc := ((d.fn h).rings.map fun e => e.2.accepted ++ e.2.active).flatten

/-- May partition k change its owner now (R506)? -/
def Dev.mayMove (d : Dev) (k : Nat) : Bool :=
  !(d.liveCtxs.any fun c => (d.ctx c).live && (d.ctx c).part == k) &&
  match d.partOwner k with
  | some h => !((d.openDescs h).any fun x => x.part == k || (d.descParts x).contains k)
  | none => true

/-- A write of HOST_PART_OWN by the primary (R506): each partition by itself. -/
def Dev.partOwnWrite (d : Dev) (v : Nat) : Dev :=
  d.forEach (List.range 16) fun d k =>
    let w := d.fd F.HOST_PART_OWN_OWNER
    let new := bitsOf v (2 * k + 1) (2 * k)
    if bitsOf w (2 * k + 1) (2 * k) = new then d
    else if d.mayMove k then d.fdSet F.HOST_PART_OWN_OWNER 0 0 (bitsPut w (2 * k + 1) (2 * k) new)
    else d.ownRefuse

/-! Scopes (R507-R509) -/

/-- The scope, FUNC and INDEX, whose staged register an instance is (R507). -/
def scopeOf (r : RegName) (i : Nat) : Option (Nat × Nat) :=
  match r with
  | .QOS_QCFG | .QOS_SHAPE | .QOS_METER | .QOS_PDN_CFG | .CORE_EXP_CFG => some (1, i)
  | .QOS_CLASS | .QOS_BUF_CFG => some (2, 0)
  | .SEQ_CFG | .TILE_EXC_CFG => some (3, i)
  | .MEM_GRANT => some (4, i)
  | .MIRR_CTRL | .MIRR_BASE | .MIRR_FLT_CFG | .MIRR_FLT_MATCH | .MIRR_FLT_MASK | .MIRR_FLT_PORTS | .QOS_TELE_CFG
  | .QOS_TELE_PMASK => some (5, 0)
  | .CORE_TIME_CFG | .CORE_BAR_CFG => some (6, 0)
  | _ => none

/-- Is FUNC f at expert level (R510)? -/
def Dev.expert (d : Dev) (f : Nat) : Bool := bitAt (d.fd F.HOST_LEVEL_EXPERT) (f - 1)

/-- The slot that holds a scope. -/
def Dev.qmrSlot (d : Dev) (func index : Nat) : Option (Nat × Qmr) :=
  (List.range 16).findSome? fun n => match tblGet none d.qmr n with
    | some q => if q.func = func && q.index = index then some (n, q) else none
    | none => none

def Dev.setQmr (d : Dev) (n : Nat) (q : Option Qmr) : Dev := { d with qmr := tblPut none n q d.qmr }

/-- New RW bits of a staged register take effect by the register's own rules: QOS_QCFG of a strict queue keeps its
value (R195); a shaper or meter written is full (R198, R200); MIRR_BASE, SIZE_LOG2 and DEST hold while EN is 1 and
WPTR restarts with EN (R211); sample numbers restart with EN (R205). -/
def Dev.putRw (d : Dev) (r : RegName) (i j v : Nat) : Dev :=
  let m := rwMask r
  let old := d.rawF r 0 i j
  let new := (old &&& (2 ^ 64 - 1 - m)) ||| (v &&& m)
  match r with
  | .QOS_QCFG => if j < 4 then d else d.setRawF r 0 i j new
  | .QOS_SHAPE => (d.setRawF r 0 i j new).updQueue i fun t => { t with spent := tblPut 0 j 0 t.spent }
  | .QOS_METER => (d.setRawF r 0 i j new).updQueue i fun t => { t with mspent := tblPut 0 j 0 t.mspent }
  | .MIRR_BASE => if d.bit F.MIRR_CTRL_EN then d else d.setRawF r 0 i j new
  | .MIRR_CTRL =>
    if d.bit F.MIRR_CTRL_EN then
      d.setRawF r 0 i j (bitsPut (bitsPut new 30 30 (bitsOf old 30 30)) 5 0 (bitsOf old 5 0))
    else
      let d := d.setRawF r 0 i j new
      if bitAt new 31 then d.fdSet F.MIRR_WPTR_WPTR 0 0 0 else d
  | .QOS_TELE_CFG =>
    let was := d.bit F.QOS_TELE_CFG_EN
    let d := d.setRawF r 0 i j new
    if bitAt new 31 && !was then d.updCapt fun c => { c with sampleNo := 0 } else d
  | _ => d.setRawF r 0 i j new

/-- The staged value of a register of a held scope: what was staged, or the live value (R509). -/
def Dev.staged (d : Dev) (q : Qmr) (r : RegName) (i j : Nat) : Nat :=
  match tblGet none q.stage (regKey r 0 i j) with
  | some v => v.toNat
  | none => d.rawF r 0 i j

/-- A write to a register of a held scope goes to its stage. -/
def Dev.stagePut (d : Dev) (n : Nat) (q : Qmr) (r : RegName) (i j v : Nat) : Dev :=
  let m := rwMask r
  let new := (d.staged q r i j &&& (2 ^ 64 - 1 - m)) ||| (v &&& m)
  d.setQmr n (some { q with stage := tblPut none (regKey r 0 i j) (some (BitVec.ofNat 64 new)) q.stage })

/-- A write to a staged register: to the stage while its scope is held (R509), else in force. -/
def Dev.scopePut (d : Dev) (r : RegName) (i j v : Nat) : Dev :=
  match scopeOf r i with
  | some (f, x) => match d.qmrSlot f x with
    | some (n, q) => d.stagePut n q r i j v
    | none => d.putRw r i j v
  | none => d.putRw r i j v

/-- The register instance a key names. -/
def ofKey (k : Nat) : Option (RegName × Nat × Nat) :=
  (allRegs.find? fun r => r.ctorIdx == keyReg k).map fun r => (r, keyI k, keyJ k)

/-- Every staged value applies in one cc (R508, R509); MIRR_CTRL last, so that what it guards is in place. -/
def Dev.applyStage (d : Dev) (q : Qmr) : Dev :=
  let vs := q.stage.filterMap fun e => match ofKey e.1, e.2 with
    | some x, some v => some (x, v.toNat)
    | _, _ => none
  let isCtl := fun (e : (RegName × Nat × Nat) × Nat) => e.1.1 == RegName.MIRR_CTRL
  (vs.filter (fun e => !isCtl e) ++ vs.filter isCtl).foldl (fun (d : Dev) e => d.putRw e.1.1 e.1.2.1 e.1.2.2 e.2) d

/-- Has a QUIESCING scope finished its work in hand (R507, R508)? A port's selected flits have left; a tile's run has
ended and its engines are empty. -/
def Dev.scopeDrained (d : Dev) (func index : Nat) : Bool :=
  match func with
  | 1 => (d.link index).txSel.isEmpty
  | 3 =>
    let t := d.tile (d.phys index)
    t.run.isNone && !(t.q.any fun e => !e.2.isEmpty) && !(t.busy.any fun e => e.2.isSome) && t.built.isEmpty
  | _ => true

/-- QUIESCE (R508). -/
def Dev.quiesce (d : Dev) (x : Desc) : Dev :=
  let func := x.arg 28 1
  let index := x.arg 30 2
  if (d.qmrSlot func index).isSome then d.refuse x 0xFC
  else match (List.range 16).find? fun n => (tblGet none d.qmr n).isNone with
    | none => d.refuse x 0xFC
    | some n => d.setQmr n (some { host := x.fn, ring := x.ring, func := func, index := index, quiesced := false, stage := [] })

/-- The QUIESCE that waits for slot n. -/
def Dev.quiesceDesc (d : Dev) (q : Qmr) : Option Desc :=
  (d.ring q.host q.ring).active.find? fun x => x.op = 0xA && x.arg 28 1 = q.func && x.arg 30 2 = q.index

/-- QUIESCE_DONE of slot n (R508). -/
def Dev.quiesceDone (d : Dev) (n : Nat) : Dev :=
  match tblGet none d.qmr n with
  | some q =>
    if !q.quiesced && d.scopeDrained q.func q.index then
      let d := d.setQmr n (some { q with quiesced := true })
      match d.quiesceDesc q with
      | some x => d.completeOk x 0
      | none => d
    else d
  | none => d

/-- The scope of slot n returns to ACTIVE, with nothing staged; a QUIESCE still waiting is refused (R508). -/
def Dev.dropScope (d : Dev) (n : Nat) : Dev :=
  match tblGet none d.qmr n with
  | some q =>
    let d := d.setQmr n none
    if q.quiesced then d
    else match d.quiesceDesc q with
      | some x => d.refuse x 0xFD
      | none => d
  | none => d

/-- QUIESCE_TIMEOUT of slot n. -/
def Dev.quiesceTimeout (d : Dev) (n : Nat) : Dev :=
  match tblGet none d.qmr n with
  | some q => if q.quiesced then d else d.dropScope n
  | none => d

/-- RESUME (R508): only the function that quiesced the scope resumes it. -/
def Dev.resume (d : Dev) (x : Desc) : Dev :=
  match d.qmrSlot (x.arg 28 1) (x.arg 30 2) with
  | some (n, q) =>
    if q.quiesced && q.host = x.fn then
      let d := d.setQmr n none
      (if bitAt (x.arg 29 1) 0 then d else d.applyStage q).completeOk x 0
    else d.refuse x 0xFC
  | none => d.refuse x 0xFC

/-! Profiles (R507, R510, R511) -/

/-- The ports of partition k (R221). -/
def Dev.partPorts (d : Dev) (k : Nat) : Nat :=
  ((List.range 256).filter fun p => d.portLicensed p && bitAt (d.fd F.CORE_PORT_PART_MASK p) k).length

/-- The firmware grants of die k (profile 0 of the memory scope): one per partition that has ports, in proportion to
them, from the start of the service region, rounded down to 16 MiB (log entry 36). -/
def Dev.fwGrants (d : Dev) (k : Nat) : List (RegName × Nat × Nat × Nat) :=
  let total := ((List.range 16).map fun p => d.partPorts p).sum
  let lo := d.serviceStart k / 0x10000
  let n := d.serviceEnd k / 0x10000 - lo
  let upto := fun p => ((List.range p).map fun q => d.partPorts q).sum * n / max 1 total
  (List.range 64).map fun g =>
    if g < 16 && d.partPorts g ≠ 0 then
      (.MEM_GRANT, k, g, word [(F.MEM_GRANT_PMASK, 2 ^ g), (F.MEM_GRANT_VALID, 1), (F.MEM_GRANT_RD, 1),
        (F.MEM_GRANT_WR, 1), (F.MEM_GRANT_LEN, d.partPorts g * n / max 1 total), (F.MEM_GRANT_BASE, lo + upto g)])
    else (.MEM_GRANT, k, g, 0)

/-- Is W queue q a queue of VL5 or VL6 of some partition? -/
def Dev.latencyQueue (d : Dev) (q : Nat) : Bool :=
  (List.range 16).any fun k => [5, 6].any fun v => 4 + min 11 (d.fd F.QOS_CLASS_WQ (8 * k + v)) == q

/-- The registers a profile sets, none for a profile the table does not have (R507). What a profile does not name
takes its reset value. -/
def Dev.profile (d : Dev) (func index p : Nat) : Option (List (RegName × Nat × Nat × Nat)) :=
  let reset := fun (r : RegName) (i j : Nat) => (r, i, j, regReset r i j)
  match func, p with
  | 1, 0 | 1, 1 | 1, 2 =>
    some (((List.range 16).flatMap fun q =>
      let w := if p = 1 && d.latencyQueue q then 4 else 1
      let shape := regReset .QOS_SHAPE index q
      [(.QOS_QCFG, index, q, bitsPut (regReset .QOS_QCFG index q) 7 0 w),
       (.QOS_SHAPE, index, q, if p = 2 && q = 4 then bitsPut shape 15 0 0x1A69 else shape),
       reset .QOS_METER index q]) ++ [reset .QOS_PDN_CFG index 0, reset .CORE_EXP_CFG index 0])
  | 2, 0 => some (((List.range 128).map fun i => reset .QOS_CLASS i 0) ++ [reset .QOS_BUF_CFG 0 0])
  | 3, 0 => some [(.SEQ_CFG, index, 0, 0), reset .TILE_EXC_CFG index 0]
  | 3, 1 => some [(.SEQ_CFG, index, 0, word [(F.SEQ_CFG_WDOG, 0x400), (F.SEQ_CFG_HAZ, 1)]),
      (.TILE_EXC_CFG, index, 0, bitsPut (regReset .TILE_EXC_CFG index 0) 4 4 1)]
  | 4, 0 => some (d.fwGrants index)
  | 5, 0 | 5, 1 | 5, 2 =>
    let flt := (List.range 8).flatMap fun f =>
      (.MIRR_FLT_CFG, f, 0, if p = 1 && f = 0 then word [(F.MIRR_FLT_CFG_EN, 1), (F.MIRR_FLT_CFG_POINT, 3)] else 0) ::
        (((List.range 6).flatMap fun w => [reset .MIRR_FLT_MATCH f w, reset .MIRR_FLT_MASK f w]) ++
          (List.range 4).map fun w => (.MIRR_FLT_PORTS, f, w, if p = 1 && f = 0 then 2 ^ 64 - 1 else 0))
    some ([(.MIRR_CTRL, 0, 0, 0), (.MIRR_BASE, 0, 0, if p = 1 then 256 * d.captureBase 0 else 0)] ++ flt ++
      ((List.range 4).map fun w => (.QOS_TELE_PMASK, w, 0, if p = 2 then 2 ^ 64 - 1 else 0)) ++
      [(.QOS_TELE_CFG, 0, 0, if p = 2 then word [(F.QOS_TELE_CFG_EN, 1), (F.QOS_TELE_CFG_K, 16)]
          else regReset .QOS_TELE_CFG 0 0),
       (.MIRR_CTRL, 0, 0, if p = 1 then word [(F.MIRR_CTRL_EN, 1), (F.MIRR_CTRL_SIZE_LOG2, 30)]
          else regReset .MIRR_CTRL 0 0)])
  | 6, 0 => some [reset .CORE_TIME_CFG 0 0, reset .CORE_BAR_CFG 0 0]
  | _, _ => none

/-- A profile's values are written: to the stage of a held scope, else in force (R509). -/
def Dev.applyProfile (d : Dev) (l : List (RegName × Nat × Nat × Nat)) : Dev :=
  l.foldl (fun (d : Dev) e => d.scopePut e.1 e.2.1 e.2.2.1 e.2.2.2) d

/-- PROFILE_SET (R510). -/
def Dev.profileSet (d : Dev) (x : Desc) : Dev :=
  let func := x.arg 28 1
  if d.expert func then d.refuse x 0xFC
  else match d.profile func (x.arg 30 2) (x.arg 29 1) with
    | some l => (d.applyProfile l).completeOk x 0
    | none => d.refuse x 0xFC

/-- The INDEX values of a FUNC (R507). -/
def scopeIndices (func : Nat) : List Nat :=
  match func with
  | 1 => List.range 256
  | 3 => List.range 32
  | 4 => [0, 1]
  | _ => [0]

/-- A write of HOST_LEVEL by the primary (R511): to basic with profile 0 on every INDEX, unless one is held. -/
def Dev.levelWrite (d : Dev) (v : Nat) : Dev :=
  d.forEach [1, 2, 3, 4, 5, 6] fun d f =>
    let w := d.fd F.HOST_LEVEL_EXPERT
    let new := bitAt v f
    if bitAt w (f - 1) == new then d
    else if new then d.fdSet F.HOST_LEVEL_EXPERT 0 0 (bitPut w (f - 1) true)
    else if d.qmr.any fun e => match e.2 with
        | some q => q.func == f
        | none => false then d
    else
      let d := d.fdSet F.HOST_LEVEL_EXPERT 0 0 (bitPut w (f - 1) false)
      d.forEach (scopeIndices f) fun d i => match d.profile f i 0 with
        | some l => d.applyProfile l
        | none => d

end Sys2Proof.Machine
end

