-- ==== Sys2Proof/Machine/Bus.lean ====
section
/-! DEFINITION. Accesses to BAR0 (18: R618-R626): the decision of R622, field maps, snapshots, and what a write of
each register does. -/

namespace Sys2Proof.Machine

/-! Offsets (R619, R620) -/

/-- The place of an offset in one register's instances: its indices and the byte within the register. -/
def placeIn (r : RegName) (off : Nat) : Option (Nat × Nat × Nat) :=
  let q := regInfo r
  if off < q.base then none
  else
    let x := off - q.base
    let i := if q.s1 = 0 then 0 else x / q.s1
    let y := x - i * q.s1
    let j := if q.s2 = 0 then 0 else y / q.s2
    let b := y - j * q.s2
    if i < q.n1 && j < q.n2 && b < (if q.wide then 8 else 4) then some (i, j, b) else none

/-- Instances the tables leave out: TILE_SPARSE_RX_CNT[i][0] (R633), FLT_MAINT_REFUSE_CNT[0] (R616), and words 6 and 7 of
a Mirror filter (R211). -/
def noInst (r : RegName) (i j : Nat) : Bool :=
  (r == .TILE_SPARSE_RX_CNT && j == 0) || (r == .FLT_MAINT_REFUSE_CNT && i == 0) ||
    ((r == .MIRR_FLT_MATCH || r == .MIRR_FLT_MASK) && 6 ≤ j)

/-- A register instance met at an offset: its name and indices, and the byte of it that the offset names. -/
structure Place where
  reg : RegName
  i : Nat
  j : Nat
  byte : Nat
  deriving DecidableEq, Repr

/-- The register at an offset of BAR0; HOST_KICK lies in BAR2. -/
def regAt (off : Nat) : Option Place :=
  (allRegs.findSome? fun r => if r == .HOST_KICK then none else
    (placeIn r off).map fun x => ({ reg := r, i := x.1, j := x.2.1, byte := x.2.2 } : Place)).bind fun p =>
      if noInst p.reg p.i p.j then none else some p

/-- Does an access keep R620? -/
def accessOk (off size : Nat) : Bool :=
  if size = 4 then off % 4 == 0
  else if size = 8 then
    off % 8 == 0 && (match regAt off, regAt (off + 4) with
      | none, none => true
      | some p, _ => (regInfo p.reg).wide && p.byte == 0
      | none, some _ => false)
  else false

/-! Features, dies, domains (R622 rows 3 to 6) -/

/-- Does a register serve a feature the part lacks (R3, R4)? -/
def Dev.unlicensed (d : Dev) (off : Nat) (p : Place) : Bool :=
  let q := regInfo p.reg
  let portReg := q.n1 == 256 && !([.CORE_BAR, .CORE_BAR_CHILD, .CORE_BAR_STAT, .CORE_PSET].contains p.reg)
  (((decide (0x400000 ≤ off) && decide (off < 0x640000)) || [.FLT_SC_CFG, .FLT_SC_STAT, .LOUPE_CTRL, .LOUPE_BASE, .LOUPE_WPTR,
      .LOUPE_RPTR, .LOUPE_FILT, .LOUPE_DROP_CNT].contains p.reg) && !d.tilesLicensed) || (portReg && !d.portLicensed p.i) ||
    (p.reg == .OPT_ELS_STAT && !d.portLicensed (16 * p.i)) ||
    ((p.reg == .OPT_CUT_CNT || p.reg == .OPT_PROBE_CNT) && !d.portLicensed (4 * p.i))

/-- Is an offset served by the core die (R618)? -/
def onCore (off : Nat) : Bool :=
  (decide (0x100000 ≤ off) && decide (off < 0x120000)) || (decide (0x200000 ≤ off) && decide (off < 0x700000)) ||
    decide (0x800000 ≤ off)

/-- The memory-side die that serves an offset, if one does. -/
def onDie (off : Nat) : Option Nat :=
  if 0x700000 ≤ off && off < 0x800000 then some ((off - 0x700000) / 0x80000) else none

/-- Is the serving die unreachable (R19, R20)? -/
def Dev.cutOff (d : Dev) (off : Nat) : Bool :=
  (onCore off && d.d2dFailed 2) || (match onDie off with
    | some k => d.d2dFailed 2 || d.d2dFailed k
    | none => false)

/-- The domain other than the switch core that an access demands (R618). -/
def Dev.domOf (d : Dev) (off : Nat) (p : Place) : Option Nat :=
  match onDie off with
  | some k => some (dieDom k)
  | none =>
    if 0x400000 ≤ off && off < 0x600000 then some p.i
    else if 0x600000 ≤ off && off < 0x700000 && (d.ctx p.i).slot.isSome then some (d.ctx p.i).tile
    else none

/-! Authority (R504, R510, R624) -/

/-- The partition a P-scoped register belongs to; none where every function may write. v: the value written. -/
def Dev.regPart (d : Dev) (p : Place) (v : Nat) : Option Nat :=
  match p.reg with
  | .CORE_BAR | .CORE_BAR_CHILD | .CORE_BAR_STAT => some (d.fd F.CORE_BAR_PART p.i)
  | .CORE_BAR_ARRIVE => some (d.fd F.CORE_BAR_PART (bitsOf v 7 0))
  | .MEM_SVC_EXC => some p.j
  | .TILE_CTX_STAT | .TILE_CTX_EXC | .TILE_CTX_ENC | .TILE_CTX_FA | .TILE_CTX_EXCCAP | .TILE_CTX_EXCPOS =>
    if (d.ctx p.i).state == .free then none else some (d.ctx p.i).part
  | _ => some (d.fd F.TILE_PART_PART p.i)

/-- Has function fn the authority to write a register (R504, R624)? -/
def Dev.mayWrite (d : Dev) (fn : Nat) (p : Place) (v : Nat) : Bool :=
  match (regInfo p.reg).scope with
  | .fn => true
  | .dev => p.reg == .HOST_OWN_CTRL || d.primary == some fn
  | .part =>
    (match d.regPart p v with
      | some k => d.partOwner k == some fn
      | none => true) &&
    (p.reg != .CORE_BAR || d.partOwner (bitsOf v 27 24) == some fn)

/-- Does firmware own the register, at basic level (R510)? -/
def Dev.atBasic (d : Dev) (p : Place) : Bool :=
  match scopeOf p.reg p.i with
  | some (f, _) => !d.expert f
  | none => false

/-- The tables of R167-R171. -/
def isTable (r : RegName) : Bool := [.CORE_FWD, .CORE_PSET, .CORE_MCG, .CORE_CTX, .CORE_PORT_PART].contains r

/-! What a write does (R622 row 9) -/

/-- The port outcomes held since bring-up are posted when the primary host first enables the ring of CLASS 0x01, in
ascending port order, with REASON and PORT_OSTAT of the outcome (R64, R542). -/
def Dev.postHeldPorts (d : Dev) (fn e : Nat) : Dev :=
  if d.sys.boot.holding && d.primary == some fn && (d.fdF F.HOST_EVT_MAP_MAP fn 0 0 >>> 2) % 4 == e then
    let held := d.sys.boot.held
    let d := d.updBoot fun b => { b with holding := false, held := [] }
    d.forEach (List.range 256) fun d p => match tblGet none held p with
      | some (reason, ostat) => d.portEventOf p reason ostat
      | none => d
  else d

/-- The RW bits of a register take a value. -/
def Dev.putF (d : Dev) (r : RegName) (fn i j v : Nat) : Dev :=
  let m := rwMask r
  d.setRawF r fn i j ((d.rawF r fn i j &&& (2 ^ 64 - 1 - m)) ||| (v &&& m))

/-- The CFG register of a completion or event ring: SIZE_LOG2 holds while EN is 1 (R512). The first component tells
that EN rises. -/
def Dev.putRingCfg (d : Dev) (r : RegName) (fn i v : Nat) : Bool × Dev :=
  let old := d.rawF r fn i 0
  let v := if bitAt old 31 then bitsPut v 28 24 (bitsOf old 28 24) else v
  (!bitAt old 31 && bitAt v 31, d.putF r fn i 0 v)

/-- May HOST_CR_BASE, HOST_CR_CFG and HOST_CR_START of a ring change (R503)? -/
def Dev.ringOpen (d : Dev) (fn r : Nat) : Bool :=
  (d.ring fn r).state == .disabled || ((d.ring fn r).state == .stopped && d.fdF F.HOST_CR_CFG_EN fn r 0 == 0)

/-- HOST_CR_CFG written (R503). -/
def Dev.crCfg (d : Dev) (fn r v : Nat) : Dev :=
  let en := bitAt v 31
  let was := d.fdF F.HOST_CR_CFG_EN fn r 0 == 1
  if d.ringOpen fn r then
    let d := d.putF .HOST_CR_CFG fn r 0 v
    if en && !was then d.ringEnable fn r else d
  else
    let d := d.fdSetF F.HOST_CR_CFG_EN fn r 0 (b2n en)
    if en then d else d.ringDisable fn r

/-- A value in full written to a register by function fn: RW and WO fields with what they trigger. -/
def Dev.act (d : Dev) (r : RegName) (fn i j v : Nat) : Dev :=
  match r with
  | .PORT_MODE => (d.putF r 0 i j v).enableWrite i (bitAt v 0)
  | .PORT_CTRL => if bitAt v 0 then d.retrain i else d
  | .CORE_BAR =>
    if (d.bar i).failed || (d.bar i).state == .idle then
      let d := d.putF r 0 i j v
      if bitAt v 31 then d.updBar i fun _ => BarSt.reset else d
    else d
  | .CORE_BAR_CHILD => if (d.bar i).failed || (d.bar i).state == .idle then d.putF r 0 i j v else d
  | .CORE_BAR_ARRIVE => d.barLocal (bitsOf v 7 0)
  | .QOS_PDN_CTRL => if bitAt v 0 then d.pdnFlush i else d
  | .LOUPE_BASE => if d.bit F.LOUPE_CTRL_EN then d else d.putF r 0 i j v
  | .LOUPE_CTRL =>
    let old := d.rawF r 0 0 0
    if bitAt old 31 then d.putF r 0 i j (bitsPut (bitsPut v 30 30 (bitsOf old 30 30)) 5 0 (bitsOf old 5 0))
    else
      let d := d.putF r 0 i j v
      if bitAt v 31 then d.fdSet F.LOUPE_WPTR_WPTR 0 0 0 else d
  | .TILE_PART => if (d.tileCtxs i).isEmpty then d.putF r 0 i j v else d.count .TILE_CFG_IGN_CNT i
  | .TILE_CTX_ENC | .TILE_CTX_FA => if (d.ctx i).state == .free then d else d.putF r 0 i j v
  | .MEM_LAYOUT | .POOL_CFG => if d.bit F.POOL_CTRL_EN i then d else d.putF r 0 i j v
  | .POOL_CTRL => d.poolEnable i (bitAt v 0)
  | .HOST_CR_BASE | .HOST_CR_START => if d.ringOpen fn i then d.putF r fn i j v else d
  | .HOST_CR_CFG => d.crCfg fn i v
  | .HOST_CR_CTRL =>
    let d := if bitAt v 0 then d.ringStop fn i else d
    if bitAt v 1 then d.ringResume fn i else d
  | .HOST_CQ_BASE => if d.fdF F.HOST_CQ_CFG_EN fn i 0 = 1 then d else d.putF r fn i j v
  | .HOST_EQ_BASE => if d.fdF F.HOST_EQ_CFG_EN fn i 0 = 1 then d else d.putF r fn i j v
  | .HOST_CQ_CFG =>
    let (up, d) := d.putRingCfg r fn i v
    if up then d.updCq fn i fun _ => CqSt.reset else d
  | .HOST_EQ_CFG =>
    let (up, d) := d.putRingCfg r fn i v
    if up then (d.updEq fn i fun q => { q with prod := 0, cons := 0, pend := 0 }).postHeldPorts fn i else d
  | .HOST_DB_CFG =>
    let d := d.putF r fn i j v
    if bitAt v 31 then d else d.updFn fn fun f => { f with poll := none }
  | .HOST_TELE_CFG =>
    d.putF r fn i j (if d.primary == some fn then v else bitsPut v 31 31 (d.fdF F.HOST_TELE_CFG_EN fn 0 0))
  | .HOST_WIN_CFG =>
    let was := d.fdF F.HOST_WIN_CFG_BAR_EN fn 0 0
    let d := d.putF r fn i j (if d.primary == some fn then v else bitsPut v 30 30 (d.fdF F.HOST_WIN_CFG_UNCHK fn 0 0))
    if d.fdF F.HOST_WIN_CFG_BAR_EN fn 0 0 = was then d
    else d.fwRecord 4 (itemBar fn) (d.fdF F.HOST_WIN_CFG_BAR_EN fn 0 0)
  | .HOST_OWN_CTRL => d.ownOp fn (bitsOf v 2 0)
  | .HOST_PART_OWN => d.partOwnWrite v
  | .HOST_LEVEL => d.levelWrite v
  | .PWR_DOM_CTRL => if bitAt v 0 then d.domReset i else d
  | .BOOT_CFG =>
    let d := d.putF r 0 i j v
    d.fwRecord 1 0x10004 (d.rawF r 0 0 0)
  | .FLT_FENCE => d.fenceWrite i v
  | .FLT_FM_CFG =>
    let was := d.bit F.FLT_FM_CFG_HB_EN
    let d := d.putF r 0 i j v
    if was && !d.bit F.FLT_FM_CFG_HB_EN then d.hbSuspend 1 else d
  | .FLT_XFER_CFG =>
    let was := d.bit F.FLT_XFER_CFG_ARM
    let d := d.putF r 0 i j v
    if !was && d.bit F.FLT_XFER_CFG_ARM then
      d.updSys fun s => { s with xfer := { s.xfer with chunks := [], nchunk := 0 } }
    else d
  | _ => match (regInfo r).scope with
    | .fn => d.putF r fn i j v
    | _ => d.putRw r i j v

/-- The bits of the access within its register: all, or one half of a 64-bit register (R621). -/
def laneMask (p : Place) (size : Nat) : Nat :=
  if size = 8 then 2 ^ 64 - 1 else if p.byte = 4 then 0xFFFFFFFF00000000 else 0xFFFFFFFF

/-- The value of an access placed in its register. -/
def laneValue (p : Place) (v : Nat) : Nat := if p.byte = 4 then (v % m32) <<< 32 else v

/-- W1C bits written 1 clear (R7) unless hardware has set them in this core cycle (R9); those of a FREE context's flags ignore writes (R386). -/
def Dev.clearBits (d : Dev) (p : Place) (fn v : Nat) : Dev :=
  let f := if (regInfo p.reg).scope == .fn then fn else 0
  let w := v &&& w1cMask p.reg &&& (2 ^ 64 - 1 - (d.hotAt (regKey p.reg f p.i p.j)).2)
  if w = 0 || (p.reg == .TILE_CTX_EXC && (d.ctx p.i).state == .free) then d
  else d.setRawF p.reg f p.i p.j (d.rawF p.reg f p.i p.j &&& (2 ^ 64 - 1 - w))

/-- A write in force (R622 rows 8 and 9). v: the written lanes, others zero; m: their mask. -/
def Dev.commit (d : Dev) (p : Place) (fn v m : Nat) : Dev :=
  let rw := rwMask p.reg
  let f := if (regInfo p.reg).scope == .fn then fn else 0
  let held := (scopeOf p.reg p.i).bind fun s => d.qmrSlot s.1 s.2
  let cur := match held with
    | some (_, q) => d.staged q p.reg p.i p.j
    | none => d.rawF p.reg f p.i p.j
  let full := (cur &&& rw &&& (2 ^ 64 - 1 - m)) ||| (v &&& m)
  match held with
  | some (n, q) => d.stagePut n q p.reg p.i p.j full
  | none => ((if rw ||| woMask p.reg = 0 then d else d.act p.reg fn p.i p.j full)).clearBits p fn v

/-! The decision of R622 -/

/-- A register access counted as in error. -/
def Dev.accErr (d : Dev) (fn : Nat) : Dev := d.countF .HOST_ACC_ERR_CNT fn

/-- All ones of an access's size. -/
def ones (size : Nat) : Nat := 2 ^ (8 * min size 8) - 1

/-- A read's completion. -/
def Dev.answer (d : Dev) (fn v : Nat) : Dev := d.emit (.readData fn (BitVec.ofNat 64 v))

/-- Does a write that waits hold back a later transfer of link 2 toward domain dom (R16)? One for the core die holds back
every transfer; one for a memory-side die, those that go on to it. -/
def Dev.linkHeld (d : Dev) (dom : Nat) : Bool :=
  d.sys.pwr.accs.any fun a => a.acc.writes && (a.dom == dom || !(a.dom == dieDom 0 || a.dom == dieDom 1))

/-- An access that waits for a domain (R520), with the demand it makes. -/
def Dev.waitDom (d : Dev) (dom fn : Nat) (acc : HostAcc) : Dev :=
  (d.demand dom).updPwr fun w => { w with accs := w.accs ++ [{ dom := dom, fn := fn, acc := acc }] }

/-- The outcome of R622 rows 1 to 6 for an access: none when it goes on. value: of a write, none for a read. -/
def Dev.accessGate (d : Dev) (fn off size : Nat) (value : Option Nat) : Option Dev :=
  let fail := fun (d : Dev) (v : Nat) => match value with
    | none => d.answer fn v
    | some _ => d
  let acc := HostAcc.reg off size value
  if !accessOk off size then some (fail (d.accErr fn) (ones size))
  else match regAt off with
  | none => some (fail d 0)
  | some p =>
    if d.unlicensed off p then some (fail d 0)
    else if !d.bit F.BOOT_STAT_READY && 0x20000 ≤ off then some (fail d (ones size))
    else if d.cutOff off then some (fail (d.accErr fn) (ones size))
    else if onCore off && !d.domOn coreDom then
      if d.domFailed coreDom then some (fail d (ones size))
      else some (fail ((d.count .PWR_REG_MISS_CNT).demand coreDom) (ones size))
    else match d.domOf off p with
      | some n =>
        if d.domFailed n then some (fail d (ones size))
        else if d.domOn n && !d.linkHeld n then none
        else some (d.waitDom n fn acc)
      | none => if onCore off && d.linkHeld coreDom then some (d.waitDom coreDom fn acc) else none

/-- Forget the snapshot: it serves the next access only (R621). -/
def Dev.dropSnap (d : Dev) (fn : Nat) : Dev := d.updFn fn fun f => { f with snapshot := none }

/-- A register write of function fn, by the decision of R622. -/
def Dev.writeAt (d : Dev) (fn off size v : Nat) : Dev :=
  match d.accessGate fn off size (some v) with
  | some d => d
  | none => match regAt off with
    | none => d
    | some p =>
      let m := laneMask p size
      let lv := laneValue p v &&& m
      let full := (d.rawF p.reg 0 p.i p.j &&& (2 ^ 64 - 1 - m)) ||| lv
      if !d.mayWrite fn p full || d.atBasic p then d.countF .HOST_WR_IGN_CNT fn
      else if isTable p.reg && d.bit F.CORE_CTRL_FWD_EN then d.count .CORE_TBL_WR_IGN_CNT
      else d.commit p fn lv m

/-- A BAR0 write of function fn; it forgets the snapshot (R621). -/
def Dev.busWrite (d : Dev) (fn off size v : Nat) : Dev := (d.dropSnap fn).writeAt fn off size v

/-- The full value a read sees: staged while the scope is held (R509); the power estimate of a link is open (R23, log
entry 5). -/
def Dev.readFull (d : Dev) (p : Place) (fn : Nat) : Nat × Dev :=
  let held := (scopeOf p.reg p.i).bind fun s => d.qmrSlot s.1 s.2
  match held with
  | some (_, q) => (d.staged q p.reg p.i p.j &&& readMask p.reg, d)
  | none =>
    if p.reg == .PWR_D2D_MW then
      let (v, d) := d.fresh
      (v.toNat &&& readMask p.reg, d)
    else (d.readReg p.reg (if (regInfo p.reg).scope == .fn then fn else 0) p.i p.j, d)

/-- RC bits read and cleared (R7): with events in this core cycle the read returns the value from before them, and the
register holds them afterwards (R10). full: the value a read sees. -/
def Dev.readClear (d : Dev) (r : RegName) (f i j rc full : Nat) : Nat × Dev :=
  let k := regKey r f i j
  let h := d.hotAt k
  let keep := d.rawF r f i j &&& (2 ^ 64 - 1 - rc)
  if h.2 = 0 then (full, d.setRawF r f i j keep)
  else ((full &&& (2 ^ 64 - 1 - rc)) ||| (h.1 &&& rc),
    (d.setRawF r f i j (keep ||| (min h.2 0xFFFFFFFF &&& rc))).setHot k (0, h.2))

/-- A BAR0 read of function fn: its completion, the snapshot of a low half (R621), and RC bits cleared for a function
that could write the register (R7, R625). -/
def Dev.busRead (d : Dev) (fn off size : Nat) : Dev :=
  let snap := (d.fn fn).snapshot
  let d := d.dropSnap fn
  match d.accessGate fn off size none with
  | some d => d
  | none => match regAt off with
    | none => d
    | some p =>
      let key := regKey p.reg fn p.i p.j
      let (full, d) := d.readFull p fn
      let m := laneMask p size
      let f := if (regInfo p.reg).scope == .fn then fn else 0
      let (full, d) := if d.mayWrite fn p 0 && rcMask p.reg &&& m ≠ 0 then d.readClear p.reg f p.i p.j (rcMask p.reg &&& m) full
        else (full, d)
      if p.byte = 4 then
        let v := match snap with
          | some (k, w) => if k = key then w.toNat else full
          | none => full
        d.answer fn (v / m32)
      else if (regInfo p.reg).wide && size = 4 then
        (d.updFn fn fun x => { x with snapshot := some (key, BitVec.ofNat 64 full) }).answer fn (full % m32)
      else d.answer fn full

/-! Writes that have rows of their own -/

/-- The offset of a register instance. -/
def offOf (r : RegName) (i j : Nat) : Nat := (regInfo r).base + (regInfo r).s1 * i + (regInfo r).s2 * j

/-- A 4-byte write of a register by name. -/
def Dev.writeReg (d : Dev) (r : RegName) (fn i v : Nat) : Dev := d.busWrite fn (offOf r i 0) 4 v

end Sys2Proof.Machine
end

