-- ==== Sys2Proof/Machine/Descs.lean ====
section
/-! DEFINITION. Starting descriptors and the opcodes of the host interface (13: R481-R485; 04: R172-R177; 12: R464,
R465). -/

namespace Sys2Proof.Machine

/-! The checks of R483 -/

/-- The bytes of BUF that a descriptor reads (R481), none when it reads none. -/
def bufRead (x : Desc) : Option Nat :=
  match x.op with
  | 1 | 0x10 => some (16 * x.arg 28 1)
  | 2 | 5 | 8 | 0x11 => some x.buflen
  | _ => none

/-- Has function fn the role of the primary, or had it when the descriptor was accepted (R505; log entry 37)? -/
def Dev.asPrimary (d : Dev) (x : Desc) : Bool := x.prim || d.primary == some x.fn

/-- The granules an HBM_WRITE or HBM_READ reaches. -/
def hbmSpan (x : Desc) : List Nat := (List.range (x.buflen / 256)).map fun k => x.arg 28 4 + k

/-- The entries of a JOURNAL_PUT (R575): KIND, KEY, VALUE. -/
def jrnlEntries (x : Desc) : List (Nat × Nat × Nat) :=
  (recs16 x.data (x.arg 28 1)).map fun r => (byteAt r 0, leAt r 4 4, leAt r 8 8)

/-- Step 2: the authority of R481. read: BUF has been read; what rests on its contents is judged only then. -/
def Dev.authOk (d : Dev) (x : Desc) (read : Bool) : Bool :=
  let owns := (d.descParts { x with prim := d.asPrimary x }).all fun k => d.partOwner k == some x.fn
  match x.op with
  | 0 => true
  | 1 => d.asPrimary x || !read || ((tblRecs x).all (fun r => r.1 == 4) && owns)
  | 8 => owns && (hbmSpan x).all fun g => d.mayReach g x.part false true
  | 9 => owns && (hbmSpan x).all fun g => d.mayReach g x.part true false
  | 0xA | 0xB | 0xC => if x.arg 28 1 = 3 then owns else d.asPrimary x
  | 0xD => if x.arg 28 1 = 3 then owns else d.asPrimary x
  | 0xE | 0xF => d.asPrimary x
  | 0x10 => !read || (jrnlEntries x).all fun e => match regAt e.2.1 with
      | some p => d.mayWrite x.fn p e.2.2
      | none => true
  | 0x11 => d.asPrimary x || d.sys.boot.recovery
  | _ => owns

/-- Step 3: does the descriptor need a feature the licence lacks (R3)? -/
def Dev.featureOk (d : Dev) (x : Desc) : Bool :=
  match x.op with
  | 2 | 3 | 4 | 5 => d.tilesLicensed
  | 0xA | 0xB | 0xC =>
    match x.arg 28 1 with
    | 1 => d.portLicensed (x.arg 30 2)
    | 3 => d.tilesLicensed
    | _ => true
  | 0xD => x.arg 28 1 ≠ 4 || d.portLicensed (x.arg 30 2)
  | 0xF =>
    if x.arg 28 1 ≠ 0 then true
    else match x.arg 29 1 with
    | 2 => decide (16 ≤ x.arg 30 2) || d.portLicensed (16 * x.arg 30 2)
    | 3 => d.tilesLicensed
    | _ => true
  | _ => true

/-- Does the descriptor act on the core die (R502)? -/
def needsCore (x : Desc) : Bool :=
  match x.op with
  | 0 | 0xE | 0x10 | 0x11 => false
  | 0xD => x.arg 28 1 ≠ 1
  | 0xF => x.arg 28 1 = 0
  | _ => true

/-- The domains it demands (R519). MAINT demands its own when it is accepted (R608). -/
def Dev.domsOf (d : Dev) (x : Desc) : List Nat :=
  (if needsCore x then [coreDom] else []) ++
  (match x.op with
    | 2 | 5 => [x.arg 30 1 % 32]
    | 3 | 4 =>
      let y := d.ctx (x.arg 28 2 % 4096)
      if y.slot.isSome then [y.tile] else []
    | 6 | 7 | 8 | 9 => (diesOf x).map dieDom
    | _ => [])

/-- The reason a failed die-to-die link gives a descriptor (R19, R20). -/
def Dev.cutReason (d : Dev) (x : Desc) : Option Nat :=
  if needsCore x && d.d2dFailed 2 then some 0xE5
  else if (diesOf x).any fun k => d.d2dFailed k then some 0xE4
  else none

/-- Step 5: the reason an unreachable die or a FAILED domain gives (R19, R20, R522). -/
def Dev.unreachable (d : Dev) (x : Desc) : Option Nat :=
  if let some r := d.cutReason x then some r
  else if (d.domsOf x).any fun n => d.domFailed n then some 0xE0
  else none

/-- A reserved opcode, which a row of its own refuses. -/
def reservedOp (x : Desc) : Bool := decide (0x12 ≤ x.op)

/-- DESCRIPTOR_START of ring r: its first accepted descriptor starts (R484) and is checked in the order of R483, or
waits for a domain (R520) or behind a write that link 2 carries (R16). buf: what the read of BUF returned, none when it failed. -/
def Dev.descStart (d : Dev) (h r : Nat) (buf : Option (List (BitVec 8))) : Dev :=
  match (d.ring h r).accepted with
  | [] => d
  | x :: rest =>
    if !d.mayStart x || (needsCore x && (d.linkHeld coreDom || (diesOf x).any fun k => d.linkHeld (dieDom k))) then d
    else
      let data := match bufRead x, buf with
        | some n, some bs => padTo n bs
        | _, _ => []
      let x := { x with data := data, mcast := d.fd F.CORE_CTX_R_MODE (x.arg 28 2 % 4096) == 1 }
      let read := (bufRead x).isNone || buf.isSome
      let go := d.updRing h r fun g => { g with accepted := rest, active := g.active ++ [x] }
      if reservedOp x then go
      else if badFields x then go.refuse x 0xFC
      else if !d.authOk x read then go.complete x 5 0xFE 0
      else if !d.featureOk x then go.complete x 3 0 0
      else if !read then go.refuse x 0xFB
      else match d.unreachable x with
        | some reason => go.refuse x reason
        | none =>
          match (d.domsOf x).filter fun n => !d.domOn n with
          | [] =>
            if x.op = 0xF && x.arg 28 1 = 0 && (x.arg 29 1 = 5 || x.arg 29 1 = 6) then
              (go.maintRefused (x.arg 29 1)).complete x 2 0xFC 0x87
            else go
          | off => off.foldl (fun (d : Dev) n => d.demand n) d

/-- The descriptor of an update. -/
def Dev.openDesc (d : Dev) (h r order : Nat) : Option Desc := (d.ring h r).active.find? fun x => x.order = order

/-! NOP and reserved opcodes -/

/-- What an opcode's row does with the descriptor in hand on a ring. One that a link's failure has caught on the way ends
as one that starts later does (R483; log entry 123). -/
def Dev.withDesc (d : Dev) (h r op : Nat) (f : Dev → Desc → Dev) : Dev :=
  match d.inHand h r op with
  | some x => match d.cutReason x with
    | some reason => d.refuse x reason
    | none => f d x
  | none => d

/-- The same for a row that reaches memory. -/
def withDescMem (h r op : Nat) (f : Mem → Dev → Desc → Mem × Dev) (m : Mem) (d : Dev) : Mem × Dev :=
  match d.inHand h r op with
  | some x => match d.cutReason x with
    | some reason => (m, d.refuse x reason)
    | none => f m d x
  | none => (m, d)

/-- Has the unit that carries a descriptor out taken it already: a load that waits, a scope that is QUIESCING, a power
request in hand, a cancel that waits for its activity? -/
def Dev.descTaken (d : Dev) (x : Desc) : Bool :=
  let same := fun (o : Option Desc) => match o with
    | some y => y.order == x.order
    | none => false
  (d.tiles.any fun e => e.2.loads.any fun l => l.order == x.order) ||
    (x.op == 0xA && d.qmr.any fun e => match e.2 with
      | some q => q.host == x.fn && q.ring == x.ring && q.func == x.arg 28 1 && q.index == x.arg 30 2 && !q.quiesced
      | none => false) ||
    same d.sys.pwr.cur || same d.sys.pwr.pend || d.sys.maint.any fun e => e.2.cancels.any fun y => y.order == x.order

/-- What an opcode's row does with a descriptor in hand that no unit has taken yet. -/
def Dev.withNew (d : Dev) (h r op : Nat) (f : Dev → Desc → Dev) : Dev :=
  d.withDesc h r op fun d x => if d.descTaken x then d else f d x

/-- The same, for a row that acts on memory. -/
def withNewMem (h r op : Nat) (f : Mem → Dev → Desc → Mem × Dev) (m : Mem) (d : Dev) : Mem × Dev :=
  withDescMem h r op (fun m d x => if d.descTaken x then (m, d) else f m d x) m d

/-- RESERVED_OPCODE (R483). -/
def Dev.reserved (d : Dev) (h r : Nat) : Dev :=
  match (d.ring h r).active.find? reservedOp with
  | some x => d.refuse x 0xFC
  | none => d

/-! Table updates (R172-R177) -/

/-- The table of a record and the size of its index. -/
def tblReg (t : Nat) : Option (RegName × Nat) :=
  match t with
  | 1 => some (.CORE_FWD, 65536)
  | 2 => some (.CORE_PSET, 256)
  | 3 => some (.CORE_MCG, 16384)
  | 4 => some (.CORE_CTX, 4096)
  | 5 => some (.CORE_PORT_PART, 256)
  | _ => none

/-- Does a record name a reserved table or an index beyond it (0xF4)? -/
def recNoEntry (r : Nat × Nat × Nat) : Bool :=
  match tblReg r.1 with
  | some (_, n) => decide (n ≤ r.2.1)
  | none => true

/-- Does a record hold what R173 refuses with 0xF5? -/
def Dev.recBad (d : Dev) (r : Nat × Nat × Nat) : Bool :=
  let v := r.2.2
  let badPort := fun p => decide (256 ≤ p) || !d.portLicensed p
  match r.1 with
  | 1 => bitsOf v 30 29 == 0 && badPort (bitsOf v 11 0)
  | 2 =>
    let n := bitsOf v 34 32
    n == 0 || decide (4 < n) || (List.range n).any fun k => badPort (bitsOf v (8 * k + 7) (8 * k))
  | 3 => (List.range 64).any fun b => bitAt v b && badPort (64 * (r.2.1 % 4) + b)
  | 4 => !d.tilesLicensed && (bitsOf v 42 41 == 1 || bitsOf v 40 39 == 2)
  | _ => badPort r.2.1

/-- Is a TABLE_UPDATE accepted before place o, or one of firmware's, neither committed nor refused yet (R176)? -/
def Dev.olderUpdate (d : Dev) (o : Nat) : Bool :=
  (d.core.updWait.any fun u => u.fn == 2 && decide (u.order < o)) || [0, 1].any fun h => (d.openDescs h).any fun x =>
    x.op == 1 && decide (x.order < o) && !(d.core.updates.any fun u => u.order == x.order)

/-- TABLE_UPDATE (R173): checked whole, it waits to commit; one that is refused completes in its turn (R176). -/
def Dev.tableUpdate (d : Dev) (h r : Nat) : Dev :=
  match (d.ring h r).active.find? fun x => x.op = 1 && !((d.core.updates ++ d.core.updWait).any fun u => u.order = x.order) with
  | none => d
  | some x =>
    let rs := tblRecs x
    let reason := if let some reason := d.cutReason x then reason
      else if rs.any recNoEntry then 0xF4 else if rs.any d.recBad then 0xF5 else 0
    if reason ≠ 0 && d.core.updates.isEmpty && !(d.olderUpdate x.order) then d.refuse x reason
    else d.updCore fun c => { c with
      updWait := c.updWait ++ [{ fn := h, ring := r, order := x.order, reason := reason, cells := [] }] }

/-- The records of an update written (R174). -/
def Dev.putRecs (d : Dev) (rs : List (Nat × Nat × Nat)) : Dev :=
  rs.foldl (fun (d : Dev) e => match tblReg e.1 with
    | some (.CORE_MCG, _) => d.putF .CORE_MCG 0 (e.2.1 / 4) (e.2.1 % 4) e.2.2
    | some (r, _) => d.putF r 0 e.2.1 0 e.2.2
    | none => d) d

/-- The cells bound so far that must still leave the device (R175): those of flits that are not bound yet are not among
them. -/
def Dev.boundCells (d : Dev) : List Nat :=
  let unbound := (d.core.srcQ.flatMap fun e => e.2.flatMap fun f => f.cell.toList ++ f.extra) ++
    d.links.flatMap fun e => e.2.rx.flatMap (·.extra)
  (d.core.refs.filter fun e => decide (0 < e.2.unsent) && !unbound.contains e.1).map (·.1)

/-- The oldest update completes with a status and reason, and with it those refused right behind it (R176). -/
def Dev.drainEnd (d : Dev) (u : Update) (rest : List Update) (status reason : Nat) : Dev :=
  let finish := fun (d : Dev) (u : Update) (st rs : Nat) => match d.openDesc u.fn u.ring u.order with
    | some x => d.complete x st rs 0
    | none => d
  let refused := rest.takeWhile fun u => u.reason ≠ 0
  refused.foldl (fun d u => finish d u 2 u.reason)
    (finish (d.updCore fun c => { c with updates := rest.drop refused.length }) u status reason)

/-- The registers of the tables a mask selects. -/
def xferTables (mask : Nat) : List Nat :=
  (([RegName.CORE_FWD, .CORE_PSET, .CORE_MCG, .CORE_CTX, .CORE_PORT_PART].zipIdx.filter fun e => bitAt mask e.2).map
    fun e => e.1.ctorIdx)

/-- The tables of a state image written whole (17: R597). -/
def Dev.putTables (d : Dev) (x : XferImage) : Dev :=
  let sel := xferTables x.tables
  { d with regs := x.regs.foldl (fun t e => tblInsert e.1 e.2 t) (d.regs.filter fun e => !(sel.contains (keyReg e.1))) }

/-- TABLE_UPDATE_COMMIT (R174, R176): the oldest update that waits, when no older one is uncommitted and fewer than 8
drain. Function 2 stands for firmware, whose update is that of a state image (17: R597). -/
def Dev.tableCommit (d : Dev) : Dev :=
  match (d.core.updWait.map (·.order)).min? with
  | none => d
  | some o =>
    match d.core.updWait.find? fun u => u.order = o with
    | none => d
    | some u =>
      if d.olderUpdate o || (u.reason = 0 && 8 ≤ d.draining) then d
      else
        let commit := fun (d : Dev) (put : Dev → Dev) =>
          let cells := d.boundCells
          (put d).updCore fun c => { c with
            updWait := c.updWait.filter fun y => y.order ≠ o, updates := c.updates ++ [{ u with cells := cells }] }
        if u.fn = 2 then commit d fun d => (d.sys.xfer.inst.map d.putTables).getD d
        else match d.openDesc u.fn u.ring o with
        | none => d
        | some x =>
          let reason := if u.reason ≠ 0 then u.reason else (d.cutReason x).getD 0
          if reason ≠ 0 then
            let d := d.updCore fun c => { c with updWait := c.updWait.filter fun y => y.order ≠ o }
            if d.core.updates.isEmpty then d.refuse x reason
            else d.updCore fun c => { c with updates := c.updates ++ [{ u with reason := reason }] }
          else commit d fun d => d.putRecs (tblRecs x)

/-- TABLE_UPDATE_DRAIN_COMPLETE (R175, R176). -/
def Dev.drainDone (d : Dev) : Dev :=
  match d.core.updates with
  | [] => d
  | u :: rest => if u.cells.all fun id => (d.cellRef id).unsent = 0 then d.drainEnd u rest 0 0 else d

/-- TABLE_UPDATE_DRAIN_TIMEOUT (R177). -/
def Dev.drainTimeout (d : Dev) : Dev :=
  match d.core.updates with
  | [] => d
  | u :: rest => (d.count .CORE_TBL_TIMEOUT_CNT).drainEnd u rest 1 0xF6

/-! Pools and HBM -/

/-- POOL_ALLOC (R464): waits while the die's scope is held (R507). -/
def poolAllocDesc (h r : Nat) (e : ReadErr) : Mem → Dev → Mem × Dev :=
  withDescMem h r 6 fun m d x =>
    let k := x.arg 32 1
    if d.scopeHeld 4 k then (m, d)
    else
      let (res, m, d) := poolAlloc k (x.arg 28 4) (x.part + 1) (bitAt (x.arg 33 1) 0) (bitAt (x.arg 33 1) 1) m (d.noteHbm e)
      match res with
      | .inl reason => (m, d.refuse x reason)
      | .inr g => (m, d.completeOk x g)

/-- POOL_FREE (R465). -/
def poolFreeDesc (h r : Nat) : Mem → Dev → Mem × Dev :=
  withDescMem h r 7 fun m d x =>
    if d.scopeHeld 4 (gDie (x.arg 28 4)) then (m, d)
    else
      let (reason, m, d) := poolFree (x.arg 28 4) (x.part + 1) m d
      (m, if reason = 0 then d.completeOk x 0 else d.refuse x reason)

/-- Is the memory scope of a die that a descriptor acts on held (R507)? -/
def Dev.memHeld (d : Dev) (x : Desc) : Bool := (diesOf x).any fun k => d.scopeHeld 4 k

/-- HBM_WRITE (R481). -/
def hbmWriteDesc (h r : Nat) : Mem → Dev → Mem × Dev :=
  withDescMem h r 8 fun m d x =>
    if d.memHeld x then (m, d)
    else
    let d := (hbmSpan x).foldl (fun (d : Dev) g => d.hbmWhole g) d
    (m.hbmWrite (256 * x.arg 28 4) x.data, d.completeOk x 0)

/-- HBM_READ (R481, R483): an uncorrectable granule ends it, BUF partly written. -/
def hbmReadDesc (h r : Nat) (e : ReadErr) : Mem → Dev → Mem × Dev :=
  withDescMem h r 9 fun m d x =>
    if d.memHeld x then (m, d)
    else
    let d := d.noteHbm e
    let g := x.arg 28 4
    match (hbmSpan x).find? d.hbmFails with
    | some bad =>
      let d := if bad = g then d else d.hostWrite x.fn x.buf (m.hbmRead (256 * g) (256 * (bad - g)))
      (m, (d.memError bad (some x.part) 0 0).refuse x 0xD4)
    | none => (m, (d.hostWrite x.fn x.buf (m.hbmRead (256 * g) x.buflen)).completeOk x 0)

/-! The HBM window (R477, R478) -/

/-- A refused window access. -/
def Dev.winDeny (d : Dev) (fn n : Nat) (read : Bool) : Dev :=
  let d := d.countF .HOST_WIN_DENY_CNT fn
  if read then d.emit (.windowData fn (List.replicate n 0xFF)) else d

/-- May function fn reach a granule through its window with a right (R478)? -/
def Dev.winOk (d : Dev) (fn g : Nat) (write : Bool) : Bool :=
  let k := d.fdF F.HOST_WIN_CFG_PART fn 0 0
  d.fdF F.HOST_WIN_CFG_EN fn 0 0 == 1 && decide (d.fdF F.HOST_WIN_CFG_SLOT fn 0 0 ≤ 95) &&
    (d.fdF F.HOST_WIN_CFG_UNCHK fn 0 0 == 1 || (d.mayReach g k (!write) write && d.partOwner k == some fn))

/-- HBM_WINDOW_ACCESS of function fn at offset x of BAR4, n bytes, wr: what a write stores; every granule it touches is
checked. It waits while a die is not ON, its memory scope is held (R507) or an earlier write on its way waits (R16,
R520); a die that is FAILED or unreachable answers as a refused register access does. -/
def windowAccess (fn x n : Nat) (wr : Option (List (BitVec 8))) (e : ReadErr) (m : Mem) (d : Dev) : Mem × Dev :=
  let a := 4294967296 * d.fdF F.HOST_WIN_CFG_SLOT fn 0 0 + x
  let gs := (List.range ((a + n - 1) / 256 + 1 - a / 256)).map fun i => a / 256 + i
  let ks := (gs.map gDie).eraseDups
  let read := wr.isNone
  let lost := fun (d : Dev) => if read then d.emit (.windowData fn (List.replicate n 0xFF)) else d
  if !(at_ false d.sys.boot.bar4 fn) || 4294967296 < x + n || n = 0 then (m, d)
  else if !(gs.all fun g => d.winOk fn g wr.isSome) then (m, d.winDeny fn n read)
  else if d.d2dFailed 2 || ks.any fun k => d.d2dFailed k || d.domFailed (dieDom k) then (m, lost d)
  else match ks.find? fun k => !d.domOn (dieDom k) || d.linkHeld (dieDom k) || d.scopeHeld 4 k with
    | some k => (m, d.waitDom (dieDom k) fn (.win x n wr e))
    | none => match wr with
      | some bs => (m.hbmWrite a (padTo n bs),
          (gs.filter fun g => a ≤ 256 * g && 256 * g + 256 ≤ a + n).foldl (fun (d : Dev) g => d.hbmWhole g) d)
      | none =>
        let d := d.noteHbm e
        match gs.filter d.hbmFails with
        | [] => (m, d.emit (.windowData fn (m.hbmRead a n)))
        | bad => (m, lost (bad.foldl (fun (d : Dev) g => d.memError g (some (d.fdF F.HOST_WIN_CFG_PART fn 0 0)) 0 0) d))

/-! Waiting accesses -/

/-- A waiting access is tried again; it may have to wait on. -/
def retryAcc (x : Mem × Dev) (a : WaitAcc) : Mem × Dev :=
  match a.acc with
  | .reg off size (some v) => (x.1, x.2.writeAt a.fn off size v)
  | .reg off size none => (x.1, x.2.busRead a.fn off size)
  | .win o n wr e => windowAccess a.fn o n wr e x.1 x.2

/-- The waiting accesses proceed in arrival order, those whose domain is ON and that no waiting write holds back (R16,
R519, R520). -/
def proceed (m : Mem) (d : Dev) : Mem × Dev :=
  d.sys.pwr.accs.foldl retryAcc (m, d.updPwr fun w => { w with accs := [] })

/-- RESUME (R508), after which the accesses that waited for the scope proceed. -/
def resumeScope (fn r : Nat) (m : Mem) (d : Dev) : Mem × Dev := proceed m (d.withNew fn r 0xB Dev.resume)

/-- At the end of a cc the accesses proceed that waited for the memory scope of a die that is ON (R507). -/
def proceedHeld (m : Mem) (d : Dev) : Mem × Dev :=
  if d.sys.pwr.accs.any fun a => !a.acc.isReg && d.domOn a.dom then proceed m d else (m, d)

/-- DOMAIN_WAKE_DONE of domain n (R519). -/
def domUp (n : Nat) (m : Mem) (d : Dev) : Mem × Dev :=
  if d.domState n = 1 then proceed m (d.domWoken n) else (m, d)

/-- DOMAIN_WAKE_TIMEOUT: what waits completes as R522 states. -/
def domLost (n : Nat) (pll : Bool) (m : Mem) (d : Dev) : Mem × Dev :=
  if d.domState n = 1 then proceed m (d.domFail n pll) else (m, d)

end Sys2Proof.Machine
end

