-- ==== Sys2Proof/Machine/CmdBus.lean ====
section
/-! DEFINITION. The commands of the register bus (18: R619-R626; 00: R7) and the writes that have rows of their own:
each is the BAR0 write of its register, with the value the row names. -/

namespace Sys2Proof.Machine

/-- REGISTER_WRITE (R622): a BAR0 write to a register that has no row of its own is checked in the order of R622 and
applied under the field map. -/
def execRegisterWrite (fn : Fn) (off : Nat) (size : Nat) (v : BitVec 64) (s : State) :
    Host.Outcome State Fault Refusal :=
  hostDone (fun d => d.busWrite fn.val off size v.toNat) s

/-- REGISTER_RC_READ (R7): a read of an RC register returns the held value and clears it, unless R10 or R625
applies. -/
def execRegisterRcRead (fn : Fn) (off : Nat) (size : Nat) (s : State) :
    Host.Outcome State Fault Refusal :=
  hostDone (fun d => d.busRead fn.val off size) s

/-- REGISTER_LOW_HALF_READ (R621): a 4-byte read of the low half of a 64-bit register snapshots all 64 bits for the
function's next access. -/
def execRegisterLowHalfRead (fn : Fn) (off : Nat) (s : State) :
    Host.Outcome State Fault Refusal :=
  hostDone (fun d => d.busRead fn.val off 4) s

/-- PORT_ENABLE_WRITE (R76): a write to PORT_MODE.EN takes effect at once, moving the port to or from DISABLED. -/
def execPortEnableWrite (fn : Fn) (p : Port) (v : BitVec 32) (s : State) :
    Host.Outcome State Fault Refusal :=
  hostDone (fun d => d.writeReg .PORT_MODE fn.val p.val v.toNat) s

/-- PORT_RETRAIN (R78): a write of RETRAIN to PORT_CTRL starts a full training where R74 allows. -/
def execPortRetrain (fn : Fn) (p : Port) (v : BitVec 32) (s : State) :
    Host.Outcome State Fault Refusal :=
  hostDone (fun d => if bitAt v.toNat 0 then d.writeReg .PORT_CTRL fn.val p.val v.toNat else d) s

/-- QOS_PDN_FLUSH (R216): a write of FLUSH ends a port's hold and its queues enter FLUSHING. -/
def execQosPdnFlush (fn : Fn) (p : Port) (v : BitVec 32) (s : State) :
    Host.Outcome State Fault Refusal :=
  hostDone (fun d => if bitAt v.toNat 0 then d.writeReg .QOS_PDN_CTRL fn.val p.val v.toNat else d) s

/-- CORE_BAR_ARRIVE (R252): a write to CORE_BAR_ARRIVE makes the local child arrive at a barrier. -/
def execCoreBarArrive (fn : Fn) (v : BitVec 32) (s : State) :
    Host.Outcome State Fault Refusal :=
  hostDone (fun d => d.writeReg .CORE_BAR_ARRIVE fn.val 0 v.toNat) s

/-- BARRIER_ARM (R251): a write of VALID = 1 to CORE_BAR sets the barrier IDLE at epoch 0. -/
def execBarrierArm (fn : Fn) (b : BarId) (v : BitVec 32) (s : State) :
    Host.Outcome State Fault Refusal :=
  hostDone (fun d => if bitAt v.toNat 31 then d.writeReg .CORE_BAR fn.val b.val v.toNat else d) s

/-- POOL_ENABLE (R463): a write of EN = 1 to POOL_CTRL starts threading of P0–P3; a write of 0 sets them OFF when
none is allocated. -/
def execPoolEnable (fn : Fn) (k : Die) (v : BitVec 32) (s : State) :
    Host.Outcome State Fault Refusal :=
  hostDone (fun d => d.writeReg .POOL_CTRL fn.val k.val v.toNat) s

/-- CR_ENABLE (R503): a write of EN = 1 starts a command ring at START.IDX and START.SEQ. -/
def execCrEnable (fn : Fn) (r : RingNo) (v : BitVec 32) (s : State) :
    Host.Outcome State Fault Refusal :=
  hostDone (fun d => if bitAt v.toNat 31 then d.writeReg .HOST_CR_CFG fn.val r.val v.toNat else d) s

/-- CR_DISABLE (R503): a write of EN = 0 disables a ring once its accepted descriptors complete. -/
def execCrDisable (fn : Fn) (r : RingNo) (v : BitVec 32) (s : State) :
    Host.Outcome State Fault Refusal :=
  hostDone (fun d => if !bitAt v.toNat 31 then d.writeReg .HOST_CR_CFG fn.val r.val v.toNat else d) s

/-- CR_STOP (R503): a write of STOP moves a running ring to STOPPING. -/
def execCrStop (fn : Fn) (r : RingNo) (v : BitVec 32) (s : State) :
    Host.Outcome State Fault Refusal :=
  hostDone (fun d => if bitAt v.toNat 0 then d.writeReg .HOST_CR_CTRL fn.val r.val v.toNat else d) s

/-- CR_RESUME (R503): a write of RESUME returns a STOPPED ring to RUNNING. -/
def execCrResume (fn : Fn) (r : RingNo) (v : BitVec 32) (s : State) :
    Host.Outcome State Fault Refusal :=
  hostDone (fun d => if bitAt v.toNat 1 then d.writeReg .HOST_CR_CTRL fn.val r.val v.toNat else d) s

/-- EQ_ENABLE (R542): enabling an event ring; the first one for port events posts the bring-up port outcomes. -/
def execEqEnable (fn : Fn) (e : RingNo) (v : BitVec 32) (s : State) :
    Host.Outcome State Fault Refusal :=
  hostDone (fun d => if bitAt v.toNat 31 then d.writeReg .HOST_EQ_CFG fn.val e.val v.toNat else d) s

/-- OWN_OFFER (R505): the primary writes OFFER and the role becomes OFFERED with a 100 ms timer. -/
def execOwnOffer (fn : Fn) (v : BitVec 32) (s : State) :
    Host.Outcome State Fault Refusal :=
  hostDone (fun d => if bitsOf v.toNat 2 0 = 1 then d.writeReg .HOST_OWN_CTRL fn.val 0 v.toNat else d) s

/-- OWN_WITHDRAW (R505): the offering host writes WITHDRAW and remains primary. -/
def execOwnWithdraw (fn : Fn) (v : BitVec 32) (s : State) :
    Host.Outcome State Fault Refusal :=
  hostDone (fun d => if bitsOf v.toNat 2 0 = 2 then d.writeReg .HOST_OWN_CTRL fn.val 0 v.toNat else d) s

/-- OWN_ACCEPT (R505): the offered host writes ACCEPT and becomes primary. -/
def execOwnAccept (fn : Fn) (v : BitVec 32) (s : State) :
    Host.Outcome State Fault Refusal :=
  hostDone (fun d => if bitsOf v.toNat 2 0 = 3 then d.writeReg .HOST_OWN_CTRL fn.val 0 v.toNat else d) s

/-- OWN_CLAIM (R505): in ORPHAN, a function writes CLAIM and becomes primary. -/
def execOwnClaim (fn : Fn) (v : BitVec 32) (s : State) :
    Host.Outcome State Fault Refusal :=
  hostDone (fun d => if bitsOf v.toNat 2 0 = 4 then d.writeReg .HOST_OWN_CTRL fn.val 0 v.toNat else d) s

/-- PART_OWN_WRITE (R506): a write to HOST_PART_OWN changes each partition's owner where R506 allows. -/
def execPartOwnWrite (fn : Fn) (v : BitVec 32) (s : State) :
    Host.Outcome State Fault Refusal :=
  hostDone (fun d => d.writeReg .HOST_PART_OWN fn.val 0 v.toNat) s

/-- HOST_LEVEL_WRITE (R511): a write to HOST_LEVEL switches scopes between basic and expert, applying profile 0 on
return to basic. -/
def execHostLevelWrite (fn : Fn) (v : BitVec 32) (s : State) :
    Host.Outcome State Fault Refusal :=
  hostDone (fun d => d.writeReg .HOST_LEVEL fn.val 0 v.toNat) s

/-- DOMAIN_RESET (R519): a write of RESET to PWR_DOM_CTRL starts a new wake of a FAILED domain. -/
def execDomainReset (fn : Fn) (n : DomNo) (v : BitVec 32) (s : State) :
    Host.Outcome State Fault Refusal :=
  hostDone (fun d => if bitAt v.toNat 0 then d.writeReg .PWR_DOM_CTRL fn.val n.val v.toNat else d) s

/-- FLT_FENCE_WRITE (R592): a primary-host write to FLT_FENCE sets or lifts a port fence and journals it. -/
def execFltFenceWrite (fn : Fn) (p : Port) (v : BitVec 32) (s : State) :
    Host.Outcome State Fault Refusal :=
  hostDone (fun d => d.writeReg .FLT_FENCE fn.val p.val v.toNat) s

end Sys2Proof.Machine
end

