-- ==== Sys2Proof/Machine/Reset.lean ====
section
/-! DEFINITION. A function that goes away (13: R500; 19: R646, R647), and the reset classes (15: R548-R554). -/

namespace Sys2Proof.Machine

/-! PCIe functions -/

/-- What an FLR and a lost link have in common (R500, R508): running rings enter STOPPING, the function's accesses
that wait are gone, the scopes it holds return to ACTIVE. -/
def Dev.fnGone (d : Dev) (h : Nat) : Dev :=
  let d := d.forEach (List.range 64) fun d r => d.ringStop h r
  let d := d.updPwr fun w => { w with accs := w.accs.filter fun a => a.fn ≠ h }
  d.forEach (List.range 16) fun d n => match tblGet none d.qmr n with
    | some q => if q.host = h then d.dropScope n else d
    | none => d

/-- The ring registers that an FLR resets (R512). -/
def flrRegs : List (RegName × Nat) :=
  [(.HOST_CR_BASE, 64), (.HOST_CR_CFG, 64), (.HOST_CR_START, 64), (.HOST_JSEQ, 64), (.HOST_CQ_BASE, 64),
    (.HOST_CQ_CFG, 64), (.HOST_EQ_BASE, 4), (.HOST_EQ_CFG, 4), (.HOST_EVT_MAP, 1)]

/-- PCIE_FLR: function h enters FLR, or leaves it. HOST_CR_SEQ and HOST_CR_STAT keep their values (R500). -/
def Dev.flr (d : Dev) (h : Nat) (on : Bool) : Dev :=
  if !on then d.updFn h fun f => { f with flr := false }
  else if !(d.fn h).linkUp then d
  else
    let d := (d.updFn h fun f => { f with flr := true }).fnGone h
    flrRegs.foldl (fun (d : Dev) e => d.forEach (List.range e.2) fun d i =>
      d.setRawF e.1 h i 0 (regReset e.1 i 0)) d

/-- PCIE_LINK_DOWN of port h. -/
def Dev.linkDown (d : Dev) (h : Nat) : Dev :=
  if (d.fn h).linkUp then
    (d.updFn h fun f => { f with linkUp := false, busMaster := false, flr := false }).fnGone h
  else d

/-- PCIE_PERST: PCIEh_PERST_N asserted, or released (R646). -/
def Dev.perst (d : Dev) (h : Nat) (low : Bool) : Dev :=
  if low then (d.linkDown h).updFn h fun f => { f with perst := true }
  else d.updFn h fun f => { f with perst := false }

/-- The bring-up step in progress (R536); right after a reset it is the first. -/
def Dev.bootStep (d : Dev) : Nat := max 1 (d.fd F.BOOT_STAT_STEP)

/-- PCIE_LINK_UP (R647): after step 0x1 and with PERST_N released, function h is present again, with bus mastering on. -/
def Dev.linkUp (d : Dev) (h : Nat) : Dev :=
  if d.inReset || d.bootStep < 2 || (d.fn h).perst || (d.fn h).absent then d
  else d.updFn h fun f => { f with linkUp := true, busMaster := true }

/-! Cold and full warm resets (R550) -/

/-- A reset meets groups whose COMMIT is not durable yet: some of them, oldest first, still become durable, and the
next may be cut off (R574); how many is open (log entry 5). -/
def Dev.cutJournal (d : Dev) : Dev :=
  let n := d.sys.flash.open_.length
  if n = 0 then d
  else
    let (v, d) := d.fresh
    let k := v.toNat / 2 % (n + 1)
    d.updFlash fun f =>
      let f := (List.range k).foldl (fun (f : FlashSt) _ => f.commitFirst) f
      { f with open_ := [], torn := f.torn || (decide (k < n) && v.toNat % 2 == 1) }

/-- The registers that R550 lists under no item, so that a full warm reset keeps them: settings of power, faults and
Loupe, and what counts since the cold reset. -/
def warmKept : List RegName :=
  [.BOOT_CFG, .PWR_CFG, .PWR_DOZE_EN, .PWR_GOV_CFG, .PWR_GOV_FLOOR, .LOUPE_CTRL, .LOUPE_BASE, .LOUPE_WPTR, .LOUPE_RPTR,
    .LOUPE_FILT, .FLT_STATUS, .FLT_FM_CFG, .FLT_FM_PORTS, .FLT_FM_STAT, .FLT_FENCE, .FLT_XFER_CFG, .FLT_SC_CFG,
    .FLT_SC_STAT]

/-- The registers a reset leaves: none after a cold one but BOOT_CFG. -/
def keptRegs (cold : Bool) (t : Tbl (BitVec 64)) : Tbl (BitVec 64) :=
  let l := (if cold then [RegName.BOOT_CFG] else warmKept).map (·.ctorIdx)
  t.filter fun e => l.contains (keyReg e.1)

/-- The value of BAR_EN in the journal (R477). -/
def Dev.barEn (d : Dev) (h : Nat) : Bool := (d.sys.flash.item (itemBar h)).getD 0 % 2 == 1

/-- A cold or a full warm reset, from which bring-up starts (R536, R550): STEP 0 while the device is held. Every unit
starts afresh; what is kept is the flash, the pins and sensors, after a warm reset HBM and the registers of
`warmKept`. step: where bring-up starts. -/
def hardReset (cold : Bool) (step : Nat) (m : Mem) (d : Dev) : Mem × Dev :=
  let d := d.cutJournal
  let fast := !cold && d.bit F.BOOT_STAT_READY && d.bit F.BOOT_CFG_FAST
  let w := d.sys.pwr
  let most := (List.range 3).map fun n => d.fd F.CORE_D2D_STAT_MAX_CONSEC n
  let held := d.inReset
  let boot := { BootSt.reset with
    coldLow := d.sys.boot.coldLow, railBad := d.sys.boot.railBad, bar4 := [d.barEn 0, d.barEn 1] }
  let e : Dev := { Dev.reset with
    cycle := if cold then 0 else d.cycle
    freeCount := d.freeCount
    out := d.out
    regs := keptRegs cold d.regs
    fns := d.fns.filterMap fun f =>
      let x := { FnSt.reset with perst := f.2.perst, absent := f.2.absent && !cold }
      if x = FnSt.reset then none else some (f.1, x)
    flt := if cold then FltSt.reset else d.flt
    hbm := { HbmSt.reset with bad := if cold then [] else d.hbm.bad }
    sys := { SysSt.reset with
      flash := d.sys.flash
      boot := boot
      pwr := if cold then PwrSt.reset else { PwrSt.reset with gcfg := w.gcfg, gfloor := w.gfloor }
      jtag := d.sys.jtag
      therm := if cold then { d.sys.therm with trip := false } else d.sys.therm } }
  let e := (e.fdSet F.BOOT_STAT_FAST 0 0 (b2n fast)).fdSet F.BOOT_STAT_WARM 0 0 (b2n !cold)
  let e := e.fdSet F.BOOT_STAT_STEP 0 0 (if held then 0 else step)
  let e := if cold then e else e.forEach (List.range 3) fun e n => e.fdSet F.CORE_D2D_STAT_MAX_CONSEC n 0 (at_ 0 most n)
  ({ hbm := if cold then [] else m.hbm, tile := [] }, e)

/-- COLD_RESET: COLD_RST_N goes low, or high; high while it was not held low is power-on (R548, R646). -/
def coldReset (low : Bool) (m : Mem) (d : Dev) : Mem × Dev :=
  if low then hardReset true 1 m (d.updBoot fun b => { b with coldLow := true })
  else if d.sys.boot.coldLow then
    let d := d.updBoot fun b => { b with coldLow := false }
    (m, if d.inReset then d else d.fdSet F.BOOT_STAT_STEP 0 0 1)
  else hardReset true 1 m d

/-- A full warm reset (R548); while COLD_RST_N is low, or a rail is bad, or the device has tripped, there is none
(R646, R653). -/
def fullWarm (m : Mem) (d : Dev) : Mem × Dev := if d.inReset || d.sys.therm.trip then (m, d) else hardReset false 1 m d

/-! Compute, partition and port resets (R549-R554) -/

/-- The RESET descriptor in hand of a class, unless it is being carried out. -/
def Dev.resetDesc (d : Dev) (h r cls : Nat) : Option Desc :=
  match d.inHand h r 0xD with
  | some x =>
    if x.arg 28 1 = cls && !(d.sys.resets.any fun o => o.descs.any fun y => y.order = x.order) then some x else none
  | none => none

/-- A descriptor joins a reset in progress (R554). -/
def Dev.joinReset (d : Dev) (cls arg : Nat) (x : Desc) : Dev :=
  d.updSys fun s => { s with
    resets := s.resets.map fun o => if o.cls = cls && o.arg = arg then { o with descs := o.descs ++ [x] } else o }

/-- The registers of the tile blocks but TILE_PART and SUM_LANE_STAT, which the resets keep (R550). -/
def tileRegs : List Nat :=
  (allRegs.filter fun r => decide (0x400000 ≤ (regInfo r).base) && decide ((regInfo r).base < 0x600000) &&
    r != .TILE_PART && r != .SUM_LANE_STAT).map (·.ctorIdx)

/-- The registers of contexts. -/
def ctxRegs : List Nat :=
  [RegName.TILE_CTX_EXC, .TILE_CTX_ENC, .TILE_CTX_FA, .TILE_CTX_EXCCAP, .TILE_CTX_EXCPOS].map (·.ctorIdx)

/-- A copy waiting at a tile in reset is discarded with 0xCD and counted (R551). -/
def Dev.tileDrop (d : Dev) (i : Nat) (c : QCell) : Dev := (d.taken c).count .TILE_CTX_DROP_CNT i

/-- Tiles and contexts reset (R550, R551): loads that wait for a switch point end (R554), runs and commands go, stores
and tile memory are zeroed, contexts become FREE without an event, registers take their reset values. -/
def wipe (tiles ctxs : List Nat) (m : Mem) (d : Dev) : Mem × Dev :=
  let d := tiles.foldl (fun (d : Dev) i => (d.tile (d.phys i)).loads.foldl (fun (d : Dev) l =>
    match d.openDesc l.fn l.ring l.order with
    | some x => d.refuse x 0xCD
    | none => d) d) d
  let d := { d with
    tiles := tiles.foldl (fun t i => tblPut TileSt.reset (d.phys i) TileSt.reset t) d.tiles
    ctxs := ctxs.foldl (fun t c => tblPut CtxSt.reset c CtxSt.reset t) d.ctxs
    regs := d.regs.filter fun e =>
      let i := keyI e.1
      !((tileRegs.contains (keyReg e.1) && tiles.contains i) || (ctxRegs.contains (keyReg e.1) && ctxs.contains i)) }
  let d := d.updCore fun k => { k with
    srcQ := tiles.foldl (fun t i => tblPut [] (256 + i) ((tblGet [] t (256 + i)).filter fun f => f.cell.isSome) t) k.srcQ }
  let gone := d.core.ctxWait.filter fun w => tiles.contains w.1
  let d := d.updCore fun k => { k with ctxWait := k.ctxWait.filter fun w => !(tiles.contains w.1) }
  let d := gone.foldl (fun (d : Dev) w => d.tileDrop w.1 w.2.1) d
  ({ m with tile := tiles.foldl (fun t i => tblPut [] (d.phys i) [] t) m.tile }, d)

/-- Scopes within a reset's reach return to ACTIVE (R508, R554). -/
def Dev.dropScopes (d : Dev) (p : Nat → Nat → Bool) : Dev :=
  d.forEach (List.range 16) fun d n => match tblGet none d.qmr n with
    | some q => if p q.func q.index then d.dropScope n else d
    | none => d

/-- Activities that a reset ends with OUTCOME 2 (R609). -/
def Dev.endMaint (d : Dev) (p : Nat → Bool) : Dev :=
  d.forEach (List.range 16) fun d n =>
    if d.maintBusy n && p n then
      (if d.maintAct n = 6 then d.updSys fun s => { s with xfer := s.xfer.jobOver }
        else d).maintEnd n 2 0 0 (d.maint n).n1 (d.maint n).n2
    else d

/-- RESET_COMPUTE (R551, R554): what it does is done when it starts; P0-P3 of dies whose pools are on rethread. -/
def resetCompute (h r : Nat) (m : Mem) (d : Dev) : Mem × Dev :=
  match d.resetDesc h r 2 with
  | none => (m, d)
  | some x =>
    let d := d.entryReset
    if d.computeReset then (m, d.joinReset 2 0 x)
    else
      let taken := (d.sys.resets.filter fun o => o.cls = 3).flatMap (·.descs)
      let d := d.updSys fun s => { s with
        resets := (s.resets.filter fun o => o.cls ≠ 3) ++ [{ cls := 2, arg := 0, descs := taken ++ [x] }] }
      let d := (d.dropScopes fun f _ => f == 3).endMaint fun n => d.maintAct n == 3 || d.maintAct n == 6
      let (m, d) := wipe (List.range 32) d.liveCtxs m d
      let d := { d with bars := [] }
      let d := d.forEach [0, 1] fun d k =>
        if d.bit F.POOL_CTRL_EN k then
          d.forEach (List.range 4) fun d p => d.updPool k p fun _ => { PoolSt.reset with state := 1 }
        else d
      (m, d)

/-- Does the reset of partition k discard a flit (R552)? -/
def resetHits (k : Nat) (f : Flit) : Bool := f.part.toNat == k && !(resetPasses f)

/-- A copy bound for a tile or a die that the reset of its partition discards: its credit is returned (R552). -/
def Dev.resetTaken (d : Dev) (c : QCell) : Dev := (d.taken c).mirrorBind 3 c.src c.flit none 0 0xCF

/-- A cell in the core that the reset of its partition discards: a hole notice for its flow (R552). -/
def Dev.resetCell (d : Dev) (c : Cell) : Dev :=
  if c.ports.isEmpty then (d.cellLeave c).resetTaken (c.toQ 16 d.cycle)
  else
    (c.ports.foldl (fun (d : Dev) p => (d.dropCopy c.id).mirrorQ 3 p c.queue (c.toQ 16 d.cycle) 0xCF) (d.cellLeave c)).holeNotice
      c.eg (c.toQ 16 d.cycle)

/-- What satisfies a test leaves the queues of a table; the answer is what has left, and the table. -/
def takeHits {α : Type} [DecidableEq α] (hit : α → Bool) (t : Tbl (List α)) : List α × Tbl (List α) :=
  (t.flatMap fun e => e.2.filter hit, tblMap [] (fun _ l => l.filter fun x => !hit x) t)

/-- Every flit of partition k inside the core is discarded; its resequencer entries, whose flows have no cell in the core
then, are free (R151, R552). -/
def Dev.purgeCore (d : Dev) (k : Nat) : Dev :=
  let hitC := fun (c : Cell) => resetHits k c.flit
  let hitQ := fun (c : QCell) => resetHits k c.flit
  let x := d.core
  let (a, iq) := takeHits hitC x.ingressQ
  let (b, jq) := takeHits hitC x.interQ
  let (c, rq) := takeHits hitC x.reseqIn
  let held := x.reseq.flatMap fun e => e.2.flatMap fun r => (r.held.map (·.2)).filter hitC
  let (t, tq) := takeHits hitQ x.tileQ
  let (u, tr) := takeHits hitQ x.tileRx
  let (v, mr) := takeHits hitQ x.memRx
  let express := x.express.filter fun y => hitQ y.cell
  let d := d.updCore fun x => { x with
    ingressQ := iq, interQ := jq, reseqIn := rq, tileQ := tq, tileRx := tr, memRx := mr
    reseq := tblMap [] (fun _ l => l.filter fun r => r.part.toNat ≠ k) x.reseq
    express := x.express.filter fun y => !hitQ y.cell
    ownTx := x.ownTx.filter fun o => !resetHits k o.flit }
  let d := (a ++ b ++ c ++ held).foldl Dev.resetCell d
  let d := (t ++ u ++ v).foldl Dev.resetTaken d
  express.foldl (fun (d : Dev) y => (d.flowLeave y.cell.src y.cell.flit).resetDrop y.out 2 y.cell) d

/-- Every queued flit of partition k is discarded, in the core and behind the ports; replay-held cells stay (R552). -/
def Dev.purgePart (d : Dev) (k : Nat) : Dev :=
  let hit := fun (c : QCell) => resetHits k c.flit
  let d := d.purgeCore k
  let d := d.links.foldl (fun (d : Dev) e =>
    let gone := e.2.txSel.filter fun s => hit s.cell
    gone.foldl (fun (d : Dev) s => d.resetDrop e.1 (if s.queue = 16 then 2 else s.queue) s.cell)
      (if gone.isEmpty then d else d.updLink e.1 fun l => { l with txSel := l.txSel.filter fun s => !hit s.cell })) d
  let d := d.forEach d.queuePorts fun d p => (List.range 16).foldl (fun (d : Dev) q =>
    let cs := (d.queue p).cells q
    if cs.any hit then
      (cs.filter hit).foldl (fun (d : Dev) c => d.resetDrop p q c) (d.setCells p q (cs.filter fun c => !hit c))
    else d) d
  d.dropS2 (fun w => hit w.cell) fun d w => d.resetDrop w.port 2 w.cell

/-- The install of a state image that names partition k is abandoned, and ARM cleared (R609). -/
def Dev.dropInstall (d : Dev) (k : Nat) : Dev :=
  let x := d.sys.xfer
  let waits := match x.inst with
    | some y => (y.ctxs.any fun c => c.st.part = k) || y.bars.any fun b => (b.regs.any fun e =>
        keyReg e.1 == RegName.CORE_BAR.ctorIdx && bitsOf e.2.toNat F.CORE_BAR_PART.hi F.CORE_BAR_PART.lo == k)
    | none => false
  if waits || (d.bit F.FLT_XFER_CFG_ARM && !x.chunks.isEmpty && Config.xferNames x.chunks k) then
    ((d.fdSet F.FLT_XFER_CFG_ARM 0 0 0).updSys fun s => { s with
      xfer := { s.xfer with chunks := [], nchunk := 0, inst := none } }).updCore fun c => { c with
        updWait := c.updWait.filter fun u => u.fn ≠ 2 }
  else d

/-- RESET_PARTITION (R550, R552, R554). -/
def resetPartition (h r : Nat) (m : Mem) (d : Dev) : Mem × Dev :=
  match d.resetDesc h r 3 with
  | none => (m, d)
  | some x =>
    let k := x.part
    let d := d.entryReset
    if d.computeReset then (m, d.joinReset 2 0 x)
    else if d.partReset k then (m, d.refuse x 0xFC)
    else
      let tiles := (List.range 32).filter fun i => d.fd F.TILE_PART_PART i == k
      let ctxs := d.liveCtxs.filter fun c => (d.ctx c).state != .free && ((d.ctx c).part == k || tiles.contains (d.ctx c).tile)
      let d := d.updSys fun s => { s with resets := s.resets ++ [{ cls := 3, arg := k, descs := [x] }] }
      let d := d.purgePart k
      let d := d.dropScopes fun f i => f == 3 && tiles.contains i
      let named := match d.sys.xfer.job with
        | some j => bitAt j.parts k
        | none => false
      let d := d.endMaint fun n => d.maintAct n == 6 && named
      let d := d.dropInstall k
      let (m, d) := wipe tiles ctxs m d
      let d := d.forEach (List.range 256) fun d b => if d.fd F.CORE_BAR_PART b = k then d.updBar b fun _ => BarSt.reset else d
      let d := d.forEach [0, 1] fun d e => d.setRawF .MEM_SVC_EXC 0 e k 0
      freeAllOf k m d

/-- The port states in which a full training can start (R74). -/
def mayTrain (st : PortState) : Bool :=
  !([PortState.absent, .disabled, .dark, .peerCut, .laserCut].contains st)

/-- RESET_PORT (R553, R554): the port goes DOWN, its queues are flushed as on entry to FLUSHING, and it goes into a training
without resume; REASON 0, for which the spec gives no code (log entry 125). A port that cannot train keeps its state. -/
def Dev.resetPort (d : Dev) (h r : Nat) : Dev :=
  match d.resetDesc h r 4 with
  | none => d
  | some x =>
    let p := x.arg 30 2
    let d := d.entryReset
    if d.sys.resets.any fun o => o.cls = 4 && o.arg = p then d.joinReset 4 p x
    else
      let d := d.updSys fun s => { s with resets := s.resets ++ [{ cls := 4, arg := p, descs := [x] }] }
      let d := (d.dropScopes fun f i => f == 1 && i == p).marginSkip p
      if mayTrain (d.port p).state then ((d.portToDown p 0).flush p).toTraining p false
      else d.flush p

/-- Has a reset finished its work? Pools have threaded; a port's queues are flushed and it trains. -/
def Dev.resetDone (d : Dev) (cls arg : Nat) : Bool :=
  match cls with
  | 2 => !([0, 1].any fun k => !(d.domFailed (dieDom k)) && (List.range 4).any fun p => (d.pool k p).state == 1)
  | 4 => (d.queue arg).pdn != .flushing
  | _ => true

/-- RESET_FINISH: the reset of a class, with its partition or port, finishes; its descriptors complete OK (R549). -/
def Dev.resetFinish (d : Dev) (cls arg : Nat) : Dev :=
  match d.sys.resets.find? fun o => o.cls = cls && o.arg = arg with
  | none => d
  | some o =>
    if d.resetDone cls arg then
      let d := d.updSys fun s => { s with resets := s.resets.filter fun o => !(o.cls = cls && o.arg = arg) }
      o.descs.foldl (fun (d : Dev) x => d.completeOk x 0) d
    else d

/-- RESET_FULL_WARM: by a RESET descriptor of CLASS 0x01, or after the ACK of the fault manager's RESET (R548, R588);
no completion is written. -/
def resetFull (src : Option (Nat × Nat)) (m : Mem) (d : Dev) : Mem × Dev :=
  match src with
  | some (h, r) => if (d.resetDesc h r 1).isSome then fullWarm m d else (m, d)
  | none => if d.sys.fmReset then fullWarm m d else (m, d)

end Sys2Proof.Machine
end

