-- ==== Sys2Proof/Machine/Boot.lean ====
section
/-! DEFINITION. Images and licences as the boot ROM judges them (16: R559-R572), bring-up and its failures, the
defect map (15: R536-R544), the replay of the journal (16: R573-R576). -/

namespace Sys2Proof.Machine

/-! Images and licences -/

/-- Bytes of a byte string that the manual leaves zero. -/
def zeroSpan (bs : List (BitVec 8)) (i n : Nat) : Bool := ((bs.drop i).take n).all (· == 0)

/-- The header of an image is valid (R559). -/
def headerOk (bs : List (BitVec 8)) : Bool :=
  let len := leAt bs 8 4
  leAt bs 0 4 == 0x49374454 && leAt bs 4 4 == 1 && len == bs.length && decide (256 ≤ len) && len % 256 == 0 &&
    decide (len ≤ 0x03F00000) && decide (byteAt bs 16 < 64) && decide (byteAt bs 17 < 2) && zeroSpan bs 18 174

/-- SVN and RAISE of an image. -/
def imageSvn (bs : List (BitVec 8)) : Nat := byteAt bs 16 % 64
def imageRaise (bs : List (BitVec 8)) : Bool := bitAt (byteAt bs 17) 0

/-- IMAGE_ID: bytes 0-3 of the SHA-512 digest, as a little-endian word. -/
def imageId (bs : List (BitVec 8)) : Nat := ofLe ((digest bs).take 4)

/-- Why an image is not taken, in the order of R560: detail 0x70 header, 0x71 SVN, 0x70 signature. -/
def imageFault (floor_ : Nat) (bs : List (BitVec 8)) : Option Nat :=
  if !(headerOk bs) then some 0x70
  else if imageSvn bs < floor_ then some 0x71
  else if !(Config.imageSigOk bs) then some 0x70
  else none

/-- The slots with a valid tag, in descending ISEQ (R560). -/
def FlashSt.bySeq (f : FlashSt) : List (Nat × SlotImage) :=
  let l := f.slots.zipIdx.filterMap fun e => e.1.map fun x => (e.2, x)
  l.mergeSort fun a b => b.2.iseq ≤ a.2.iseq

/-- Is a licence valid (R571)? -/
def licenceOk (bs : List (BitVec 8)) : Bool :=
  bs.length == 256 && leAt bs 0 4 == 0x4C374454 && zeroSpan bs 6 2 && zeroSpan bs 44 148 &&
    ((byteAt bs 4 == 0 && byteAt bs 5 == 7) || (byteAt bs 4 == 1 && byteAt bs 5 == 5) ||
      (byteAt bs 4 == 2 && byteAt bs 5 == 6)) &&
    (bs.drop 12).take 32 == leBytes 32 identityPub.toNat && Config.licenceSigOk bs

/-- The valid licence with the greater ISSUE, and its sector (R572). -/
def FlashSt.licence (f : FlashSt) : Option (Nat × List (BitVec 8)) :=
  (f.lics.zipIdx.filterMap fun e => match e.1 with
    | some l => if licenceOk l then some (e.2, l) else none
    | none => none).foldl (fun b e => match b with
      | none => some e
      | some x => if leAt x.2 8 4 < leAt e.2 8 4 then some e else some x) none

/-! The defect map (R544) -/

/-- The failed logical tiles, in ascending order. -/
def Dev.badTiles (d : Dev) : List Nat := (List.range 32).filter fun t => d.sys.flash.marked t

/-- The failed lane positions of a physical tile. -/
def Dev.badLanes (d : Dev) (t : Nat) : List Nat :=
  (List.range 256).filter fun l => d.sys.flash.lanes.contains (t, l) || d.sys.flash.entries.contains (entryLane t l)

/-- A unit marked failed in this bring-up (R543): BOOT_STAT holds the detail. -/
def Dev.bootMark (d : Dev) (detail : Nat) : Dev :=
  ((d.fdSet F.BOOT_STAT_REASON 0 0 0xE3).fdSet F.BOOT_STAT_DETAIL 0 0 detail).updBoot fun b => { b with marked := true }

/-- A domain that bring-up marks FAILED (R519, R543). -/
def Dev.bootFail (d : Dev) (n : Nat) : Dev :=
  ((d.fdSet F.PWR_DOM_STAT_STATE n 0 4).fltSet F.FLT_STATUS_DOM_FAIL).powerEvent 1 0xE0 n

/-- A logical tile that no tile can serve: unavailable (R543). -/
def Dev.tileLost (d : Dev) (i : Nat) : Dev :=
  let av := d.fd F.BOOT_TILE_MAP_AVAIL
  (((d.fdSet F.BOOT_TILE_MAP_AVAIL 0 0 (bitPut av i false)).bootFail i).bootFail (siftDom i)).bootMark 0x40

/-- A spare that serves no tile and is not failed, the lower first. -/
def Dev.freeSpare (d : Dev) : Option Nat := [32, 33].find? fun s => !(d.sys.flash.marked s) && !(d.spareUsed s)

/-- A spare takes a tile. -/
def Dev.setSpare (d : Dev) (s i : Nat) : Dev :=
  if s = 32 then (d.fdSet F.BOOT_TILE_MAP_S32_EN 0 0 1).fdSet F.BOOT_TILE_MAP_S32_TILE 0 0 i
  else (d.fdSet F.BOOT_TILE_MAP_S33_EN 0 0 1).fdSet F.BOOT_TILE_MAP_S33_TILE 0 0 i

/-- Domains that stay powered off (R3). -/
def Dev.powerOff (d : Dev) (l : List Nat) : Dev := d.forEach l fun d n => d.fdSet F.PWR_DOM_STAT_STATE n 0 0

/-- A spare serves no tile. -/
def Dev.dropSpare (d : Dev) (s : Nat) : Dev :=
  if s = 32 then (d.fdSet F.BOOT_TILE_MAP_S32_EN 0 0 0).fdSet F.BOOT_TILE_MAP_S32_TILE 0 0 0
  else (d.fdSet F.BOOT_TILE_MAP_S33_EN 0 0 0).fdSet F.BOOT_TILE_MAP_S33_TILE 0 0 0

/-- Spare lanes 0 to 7 take the failed positions in order (R544, R360); with more than eight the tile is lost. -/
def Dev.laneMapTile (d : Dev) (i : Nat) : Dev :=
  let t := d.phys i
  let n := (d.badLanes t).length
  if 8 < n then d.tileLost i
  else (d.fdSet F.SUM_LANE_STAT_SPARE_USED i 0 (2 ^ n - 1)).fdSet F.FLT_SC_STAT_SHADOW_OFF t 0 (b2n (n == 8))

/-- The defect map applied at the start of step 0x8 (R544). -/
def Dev.applyDefects (d : Dev) : Dev :=
  if !d.tilesLicensed then d
  else
    let d := d.fdSet F.BOOT_TILE_MAP_AVAIL 0 0 0xFFFFFFFF
    let d := d.forEach d.badTiles fun d i => match d.freeSpare with
      | some s => d.setSpare s i
      | none => d.tileLost i
    d.forEach ((List.range 32).filter fun i => bitAt (d.fd F.BOOT_TILE_MAP_AVAIL) i) fun d i => d.laneMapTile i

/-- Logical tile i has failed its test: the next free spare takes it, and the field entry is appended (R543, R544). -/
def Dev.tileTestFail (d : Dev) (i : Nat) : Dev :=
  let t := d.phys i
  let d := d.fieldEntry (entryTile t)
  let d := if 32 ≤ t then d.dropSpare t else d
  match d.freeSpare with
  | some s => (d.setSpare s i).laneMapTile i
  | none => d.tileLost i

/-! The steps (R536-R540) -/

/-- The next step begins. -/
def Dev.bootNext (d : Dev) (n : Nat) : Dev := d.fdSet F.BOOT_STAT_STEP 0 0 n

/-- Step 0x2: the image that comes into force, if a slot passes (R560); those tried before it count. -/
def Dev.bootImage (d : Dev) : Option Dev :=
  let f := d.sys.flash
  let l := f.bySeq
  match l.findIdx? fun e => (imageFault f.svnFloor e.2.bytes).isNone with
  | none => none
  | some n =>
    match l[n]? with
    | none => none
    | some (k, x) =>
      let d := (d.countN .SEC_SIG_FAIL_CNT 0 0 n).updBoot fun b => { b with image := x.bytes, recovery := false }
      let d := (d.fdSet F.SEC_STAT_SLOT 0 0 k).fdSet F.SEC_STAT_SVN 0 0 (imageSvn x.bytes)
      some (d.fdSet F.SEC_STAT_PEND 0 0 (b2n (0 < n)))

/-- Step 0x3: identity, factory records and licence (R566, R572). -/
def Dev.bootTrust (d : Dev) : Dev :=
  let d := (d.fdSet F.SEC_STAT_PUF_OK 0 0 1).fdSet F.SEC_STAT_SVN_FLOOR 0 0 d.sys.flash.svnFloor
  match d.sys.flash.licence with
  | some (_, l) => (d.fdSet F.SEC_STAT_PART 0 0 (byteAt l 4)).updBoot fun b => { b with licence := l }
  | none => d.updBoot fun b => { b with marked := true }

/-- The domains that serve no licensed feature are off (R3, R4). -/
def Dev.bootLicensed (d : Dev) : Dev := d.powerOff ((List.range 87).filter fun n => !(d.domLicensed n))

/-- A domain comes ON unless it is FAILED or serves nothing licensed. -/
def Dev.bootOn (d : Dev) (n : Nat) : Dev :=
  if d.domFailed n || !d.domLicensed n then d else d.fdSet F.PWR_DOM_STAT_STATE n 0 2

/-- The state of die-to-die link n: 1 training, 2 up (R21). -/
def Dev.setD2d (d : Dev) (n st : Nat) : Dev := d.fdSet F.CORE_D2D_STAT_STATE n 0 st

/-- An advertisement that no module gives. -/
def elsNone : ElsAdv := { present := false, fibres := [], disableUs := 0, fast := false }

/-- Step 0x9: the engines and what each laser module advertises (R44, R45), asked for the recorded power and enabled if
supported (R46); ports start, or are absent, also for want of a licence (R4). -/
def Dev.bootEngines (d : Dev) (els : List ElsAdv) : Dev :=
  d.forEach (List.range 16) fun d e =>
    let d := d.bootOn (engineDom e)
    let up := d.domOn (engineDom e)
    let a := if up then at_ elsNone els e else elsNone
    let ok := elsSupported a
    let d := (d.fdSet F.OPT_ELS_STAT_PRESENT e 0 (b2n a.present)).fdSet F.OPT_ELS_STAT_SUPPORTED e 0 (b2n ok)
    let d := d.updEls e fun x => { x with fast := a.fast, dark := if a.present then 0 else 0xF }
    let d := if ok then (List.range 4).foldl (fun (d : Dev) f => d.fibreOn e f) d else d
    d.forEach ((List.range 16).map fun j => 16 * e + j) fun d p =>
      if !up || !(d.portLicensed p) then d.setPort p .absent 0
      else if d.bit F.PORT_MODE_EN p && !(d.hardFenced p) then d.portStart p
      else d

/-- May step 0xA end (R538)? -/
def Dev.linksSettled (d : Dev) : Bool :=
  let on := (List.range 256).filter fun p => (d.port p).state != .absent && (d.port p).state != .disabled
  (on.all fun p => portUp (d.port p).state || (d.port p).state == .down) ||
    d.sys.boot.linkWait == some []

/-! Replay and the ready declaration (R539, R561, R574) -/

/-- Does a register lie where a record cannot reach: a feature, a die or a domain that is absent or FAILED (R574)? -/
def Dev.replaySkip (d : Dev) (off : Nat) (p : Place) : Bool :=
  d.unlicensed off p || d.cutOff off || (onCore off && d.domFailed coreDom) ||
    match d.domOf off p with
    | some n => d.domFailed n
    | none => false

/-- The fences of named items, as they were set (R592). -/
def Dev.replayFence (d : Dev) (p v : Nat) : Dev :=
  let d := d.setRawF .FLT_FENCE 0 p 0 (v &&& rwMask .FLT_FENCE)
  if d.hardFenced p && (d.port p).state != .absent then d.portDisable p else d

/-- One live record applied. -/
def Dev.replayOne (d : Dev) (r : JRec) : Dev :=
  if r.kind = 1 then
    match regAt r.key with
    | none => d.count .SEC_JRNL_SKIP_CNT
    | some p =>
      if d.replaySkip r.key p then d.count .SEC_JRNL_SKIP_CNT
      else
        let size := if (regInfo p.reg).wide && p.byte == 0 then 8 else 4
        let m := laneMask p size
        let f := if r.func = 1 then 1 else 0
        if p.reg == .BOOT_CFG then d.putF .BOOT_CFG 0 0 0 r.value
        else d.commit p f (laneValue p r.value &&& m) m
  else if r.kind = 4 then
    if r.key = 1 then d.fdSet F.HOST_OWN_PRIMARY 0 0 (r.value % 2)
    else if r.key = 2 then d.fdSet F.HOST_EPOCH_EPOCH 0 0 r.value
    else if r.key = 3 then
      let v := fun i n => r.value / 2 ^ i % 2 ^ n
      (d.fdSet F.FLT_FM_STAT_CSEQ 0 0 (v 0 32)).updSys fun s => { s with
        fmAck := ackBytes { cseq := v 0 32, op := v 32 8, level := 0, index := 0, arg := 0, epoch := 0, xid := 0
                            applied := true, status := v 40 8, reason := v 48 8, detail := v 56 8 } }
    else if itemFence 0 ≤ r.key && r.key < itemFence 256 then d.replayFence (r.key - itemFence 0) r.value
    else if r.key = itemBar 0 then d.fdSetF F.HOST_WIN_CFG_BAR_EN 0 0 0 (r.value % 2)
    else if r.key = itemBar 1 then d.fdSetF F.HOST_WIN_CFG_BAR_EN 1 0 0 (r.value % 2)
    else d
  else d

/-- The journal replayed: live records in ascending RSEQ; a torn record is counted; HOST_JSEQ tells the last durable
SEQ of each ring (R501, R574). What replay writes is not journaled again. -/
def Dev.replay (d : Dev) : Dev :=
  let f := d.sys.flash
  let d := f.live.foldl (fun (d : Dev) r => d.replayOne r) d
  let d := f.jseq.foldl (fun (d : Dev) e => d.setRawF .HOST_JSEQ (e.1 / 64) (e.1 % 64) 0 e.2) d
  (if f.torn then d.count .SEC_JRNL_TORN_CNT else d).updFlash fun _ => { f with torn := false }

/-- The outcomes of the bring-up are complete (R64): a present port without one of its own has that of now. -/
def Dev.holdPorts (d : Dev) : Dev :=
  let rest := (List.range 256).filter fun p => (d.port p).state != .absent && (tblGet none d.sys.boot.held p).isNone
  d.updBoot fun b => { b with
    holding := true
    held := rest.foldl (fun t p => tblPut none p (some ((d.port p).reason, d.ostat p)) t) b.held }

/-- The outcomes are posted at once when the primary's ring of CLASS 0x01 is enabled already (R542; log entry 122). -/
def Dev.postIfOn (d : Dev) : Dev :=
  match d.primary with
  | some h =>
    let e := (d.fdF F.HOST_EVT_MAP_MAP h 0 0 >>> 2) % 4
    if d.fdF F.HOST_EQ_CFG_EN h e 0 == 1 then d.postHeldPorts h e else d
  | none => d

/-- The ready declaration (R501, R539, R542, R561). -/
def Dev.ready (d : Dev) : Dev :=
  let n := (d.fd F.HOST_EPOCH_EPOCH + 1) % m32
  let d := (d.fdSet F.HOST_EPOCH_EPOCH 0 0 n).fwRecord 4 2 n
  let img := d.sys.boot.image
  let d := if imageRaise img && d.sys.flash.svnFloor < imageSvn img then
      (d.updFlash fun f => { f with svnFloor := imageSvn img }).fdSet F.SEC_STAT_SVN_FLOOR 0 0 (imageSvn img)
    else d
  let d := (d.fdSet F.BOOT_STAT_READY 0 0 1).fdSet F.BOOT_STAT_DEGRADED 0 0 (b2n d.sys.boot.marked)
  (((d.fdSet F.PWR_STAT_STATE 0 0 0).bootNext 0xF).holdPorts.updBoot fun b => { b with running := false }).postIfOn

/-- BRINGUP_STEP_COMPLETE: the step in progress finishes and the next one starts. els: what the laser modules
advertise, for step 0x9; dead: the functions whose reference clock does not toggle, for step 0x1 (R645). The links of a
step train while it runs (R21); links 0 and 1 show up at the end of step 4 also when their die has FAILED there (log
entry 123). -/
def Dev.bootComplete (d : Dev) (els : List ElsAdv) (dead : List Fn) : Dev :=
  if !d.sys.boot.running || d.inReset || d.sys.therm.trip then d
  else match d.bootStep with
  | 1 => (d.forEach (dead.map (·.val)) fun d h => d.updFn h fun f => { f with absent := true, linkUp := false }).bootNext 2
  | 2 => match d.bootImage with
    | some d => d.bootNext 3
    | none => d
  | 3 => (((d.bootTrust.bootLicensed).setD2d 0 1).setD2d 1 1).bootNext 4
  | 4 => ((((d.bootOn (dieDom 0)).bootOn (dieDom 1)).setD2d 0 2).setD2d 1 2).bootNext 5
  | 5 => d.bootNext 6
  | 6 => (d.forEach ([0, 1].filter fun k => d.domOn (dieDom k)) fun d k =>
      (d.updPool k 4 fun x => { x with state := 1 }).poolThread k 4).setD2d 2 1 |>.bootNext 7
  | 7 => ((d.bootOn coreDom).setD2d 2 2).applyDefects.bootNext 8
  | 8 => (d.forEach ((List.range 32).filter fun i => bitAt (d.fd F.BOOT_TILE_MAP_AVAIL) i) fun d i =>
      (d.bootOn i).bootOn (siftDom i)).bootNext 9
  | 9 => (d.bootEngines els).bootNext 0xA
  | 0xA => if d.linksSettled then d.bootNext 0xB else d
  | 0xB => d.replay.ready
  | _ => d

/-- Bring-up stops for good (R543). -/
def Dev.bootStop (d : Dev) (detail : Nat) : Dev :=
  ((d.fdSet F.BOOT_STAT_REASON 0 0 0xE3).fdSet F.BOOT_STAT_DETAIL 0 0 detail).updBoot fun b => { b with running := false }

/-- BRINGUP_STEP_FAIL (R543): detail as in its table; in step 0x8 unit is the logical tile whose test failed, and lane
the position of its SUM that failed alone. -/
def Dev.bootFailed (d : Dev) (detail unit : Nat) (lane : Option Nat) : Dev :=
  if !d.sys.boot.running || d.inReset || d.sys.therm.trip then d
  else match d.bootStep with
  | 1 => if detail = 1 then d.bootStop 1 else d
  | 2 =>
    if detail = 2 && d.bootImage.isNone && !d.sys.boot.recovery then
      ((d.countN .SEC_SIG_FAIL_CNT 0 0 d.sys.flash.bySeq.length).fdSet F.BOOT_STAT_REASON 0 0 0xE3).fdSet
        F.BOOT_STAT_DETAIL 0 0 2 |>.updBoot fun b => { b with recovery := true }
    else d
  | 3 => if detail = 3 then d.bootStop 3 else d
  | 4 => if 0x10 ≤ detail && detail < 0x14 then (d.bootFail (dieDom ((detail - 0x10) / 2))).bootMark detail else d
  | 5 => if 0x20 ≤ detail && detail < 0x22 then (d.bootFail (dieDom (detail - 0x20))).bootMark detail else d
  | 7 => if detail = 0x30 then d.bootStop 0x30 else d
  | 8 =>
    if detail = 0x40 && unit < 32 && bitAt (d.fd F.BOOT_TILE_MAP_AVAIL) unit then
      match lane with
      | none => d.tileTestFail unit
      | some l => (d.fieldEntry (entryLane (d.phys unit) (l % 256))).laneMapTile unit
    else d
  | 9 => if 0x50 ≤ detail && detail < 0x60 then (d.bootFail (engineDom (detail - 0x50))).bootMark detail else d
  | _ => d

/-- LINK_WAIT_EXPIRY (R538): step 0xA waits only for the ports that train now. -/
def Dev.linkWaitOver (d : Dev) : Dev :=
  if d.sys.boot.running && d.bootStep = 0xA && d.sys.boot.linkWait.isNone then
    d.updBoot fun b => { b with linkWait := some ((List.range 256).filter fun p => training (d.port p).state) }
  else d

end Sys2Proof.Machine
end

