-- ==== Sys2Proof/Machine/Trust.lean ====
section
/-! DEFINITION. Installing images and licences, attestation, JOURNAL_PUT and compaction (16: R558-R579), and the
firmware broadcast (15: R545-R547). -/

namespace Sys2Proof.Machine

/-! Installing (R562-R565, R572) -/

def Dev.updStage (d : Dev) (f : StageSt → StageSt) : Dev := d.updSys fun s => { s with stage := f s.stage }
def Dev.updBcast (d : Dev) (f : BcastSt → BcastSt) : Dev := d.updSys fun s => { s with bcast := f s.bcast }

/-- The state of SEC_STAGE_STAT: 0 IDLE, 1 RECEIVING, 2 VERIFYING, 3 STAGED (R563). -/
def Dev.stageTo (d : Dev) (st : Nat) : Dev := d.fdSet F.SEC_STAGE_STAT_STATE 0 0 st

/-- The slot not in force. -/
def Dev.otherSlot (d : Dev) : Nat := 1 - d.fd F.SEC_STAT_SLOT

/-- Step 1 of an install: the slot not in force is erased, tag included. -/
def Dev.eraseSlot (d : Dev) : Dev :=
  (d.updFlash fun f => { f with slots := updAt f.slots d.otherSlot fun _ => none }).fdSet F.SEC_STAT_PEND 0 0 0

/-- Step 4: the slot's tag, ISEQ one above that of the slot in force; in recovery no slot is, and slot 0 stands for it (log
entry 120). -/
def Dev.tagSlot (d : Dev) (img : List (BitVec 8)) : Dev :=
  let q := match at_ none d.sys.flash.slots (d.fd F.SEC_STAT_SLOT) with
    | some x => (x.iseq + 1) % m32
    | none => 1
  (d.updFlash fun f => { f with slots := updAt f.slots d.otherSlot fun _ => some { iseq := q, bytes := img } }).fdSet
    F.SEC_STAT_PEND 0 0 1

/-- A refusal of this chapter: reason 0xE3 with a detail in RESULT (R579). -/
def Dev.refuseDetail (d : Dev) (x : Desc) (detail : Nat) : Dev := d.complete x 2 0xE3 detail

/-- A broadcast is being received or installed. -/
def Dev.bcastTaking (d : Dev) : Bool := d.fd F.BOOT_BCAST_STAT_STATE == 1 || d.sys.bcast.installing

/-- An image chunk taken: RECEIVING, or with LAST VERIFYING. The RESULT of a chunk that is not the last names the slot;
its IMAGE_ID is open (log entry 5). -/
def Dev.stageTake (d : Dev) (x : Desc) (bytes : List (BitVec 8)) : Dev :=
  let d := d.fdSet F.SEC_STAGE_STAT_BYTES 0 0 (bytes.length / 256)
  if bitAt (x.arg 32 1) 1 then (d.stageTo 2).updStage fun _ => { bytes := bytes, desc := some x }
  else
    let slot := d.otherSlot
    let (v, d) := ((d.stageTo 1).updStage fun _ => { bytes := bytes, desc := none }).fresh
    d.completeOk x (v.toNat % m32 + m32 * slot)

/-- IMAGE_STAGE_IMAGE (R563, R565). -/
def Dev.stageImage (d : Dev) (h r : Nat) : Dev :=
  d.withDesc h r 0x11 fun d x =>
    if x.arg 33 1 ≠ 0 || (match d.sys.stage.desc with
      | some y => y.order == x.order
      | none => false) then d
    else
      let first := bitAt (x.arg 32 1) 0
      let off := x.arg 28 4
      if first && d.bcastTaking then d.refuseDetail x 0x74
      else match d.fd F.SEC_STAGE_STAT_STATE with
      | 1 =>
        if first || off ≠ d.sys.stage.bytes.length then
          ((d.stageTo 0).updStage fun _ => { bytes := [], desc := none }).refuseDetail x 0x72
        else d.stageTake x (d.sys.stage.bytes ++ x.data)
      | 2 => d.refuseDetail x 0x74
      | _ => if first && off = 0 then d.eraseSlot.stageTake x x.data else d.refuseDetail x 0x72

/-- IMAGE_STAGE_LICENCE (R563, R572): written to the sector that does not hold the licence in force. flashOk: erase,
program and read-back succeed. -/
def Dev.stageLicence (d : Dev) (h r : Nat) (flashOk : Bool) : Dev :=
  d.withDesc h r 0x11 fun d x =>
    if x.arg 33 1 ≠ 1 then d
    else
      let cur := d.sys.boot.licence
      if x.arg 32 1 ≠ 3 || x.arg 28 4 ≠ 0 || !(licenceOk x.data) then (d.count .SEC_SIG_FAIL_CNT).refuseDetail x 0x75
      else if !cur.isEmpty && decide (leAt x.data 8 4 ≤ leAt cur 8 4) then d.refuseDetail x 0x76
      else
        let k := if !cur.isEmpty && at_ none d.sys.flash.lics 0 == some cur then 1 else 0
        -- the sector is erased first: what an install that fails leaves there is no licence
        if !flashOk then ((d.updFlash fun f => { f with lics := updAt f.lics k fun _ => none }).fdSet
          F.SEC_STAT_LIC_PEND 0 0 0).refuseDetail x 0x73
        else ((d.updFlash fun f => { f with lics := updAt f.lics k fun _ => some x.data }).fdSet
          F.SEC_STAT_LIC_PEND 0 0 1).completeOk x 0

/-! Broadcast (R545-R547) -/

/-- A frame of the broadcast on port q (R545). -/
def Dev.sendImg (d : Dev) (q kind id chunk n : Nat) (data : List (BitVec 8)) : Dev :=
  d.sendOwn q 0 (mgmtFlit d.selfId (d.fd F.CORE_PEER_ID q)
    (frame 240 [(0, leBytes 1 kind), (4, leBytes 4 id), (8, leBytes 4 chunk), (12, leBytes 4 n), (16, data)]))

/-- The 224-byte chunks of an image. -/
def chunkCount (bs : List (BitVec 8)) : Nat := ceilDiv bs.length 224
def chunkOf (bs : List (BitVec 8)) (c : Nat) : List (BitVec 8) := padTo 224 ((bs.drop (224 * c)).take 224)

/-- The ACTIVE ports whose peer trained with role switch (R121, R546). -/
def Dev.switchPorts (d : Dev) : List Nat :=
  d.activePorts.filter fun p => match (d.port p).peerCap with
    | some b => bitAt b.toNat 9 && !(bitAt b.toNat 21)
    | none => false

/-- An image is offered to every neighbour (R546). -/
def Dev.bcastOffer (d : Dev) (img : List (BitVec 8)) : Dev :=
  let id := imageId img
  let d := (d.fdSet F.BOOT_BCAST_STAT_STATE 0 0 2).fdSet F.BOOT_BCAST_STAT_IMAGE_ID 0 0 id
  let d := d.updBcast fun b => { b with image := img, sending := [], sent := [], chunks := [], nchunk := 0, installing := false }
  d.forEach d.switchPorts fun d q => d.sendImg q 0x22 id 0 (chunkCount img) []

/-- The broadcast, on either side, is over. -/
def Dev.bcastClear (d : Dev) (st : Nat) : Dev :=
  (d.fdSet F.BOOT_BCAST_STAT_STATE 0 0 st).updBcast fun _ => BcastSt.reset

/-- MAINT_BCAST (R606): a broadcast of the image in force. -/
def Dev.maintBcast (d : Dev) (x : Desc) : Dev :=
  let ok := (d.maintRefusal 4 (x.arg 30 2)).isNone
  let d := d.maintByDesc x
  if ok then d.bcastOffer d.sys.boot.image else d

/-- Does the device hold an image with an IMAGE_ID? -/
def Dev.hasImage (d : Dev) (id : Nat) : Bool :=
  d.sys.flash.slots.any (fun s => match s with
    | some x => imageId x.bytes == id
    | none => false) || (!d.sys.bcast.image.isEmpty && imageId d.sys.bcast.image == id)

/-- IMG_HAVE_RX (R546, R565): a device that lacks the image and is not installing another asks for it, when the
maintenance queue admits the reception (R606). -/
def Dev.imgHave (d : Dev) : Dev :=
  match d.takeFm 0x22 with
  | none => d
  | some ((p, f), d) =>
    let id := plLe f.payload 4 4
    let st := d.fd F.SEC_STAGE_STAT_STATE
    if d.hasImage id || st = 1 || st = 2 || d.bcastTaking || 256 ≤ p || plLe f.payload 12 4 = 0 then d
    else if (d.maintRefusal 4 0).isSome then d.maintRefused 4
    else
      let (_, d) := d.maintStart 4 0 0 0 0
      let d := ((d.fdSet F.BOOT_BCAST_STAT_STATE 0 0 1).fdSet F.BOOT_BCAST_STAT_IMAGE_ID 0 0 id).fdSet
        F.BOOT_BCAST_STAT_CHUNKS 0 0 0
      let d := d.updBcast fun _ => { BcastSt.reset with port := p, nchunk := plLe f.payload 12 4 }
      d.sendImg p 0x21 id 0 (plLe f.payload 12 4) []

/-- IMG_REQ_RX (R546). -/
def Dev.imgReq (d : Dev) : Dev :=
  match d.takeFm 0x21 with
  | none => d
  | some ((p, f), d) =>
    if d.fd F.BOOT_BCAST_STAT_STATE = 2 && plLe f.payload 4 4 = d.fd F.BOOT_BCAST_STAT_IMAGE_ID && p < 256 then
      d.updBcast fun b => { b with sending := tblPut none p (some (plLe f.payload 8 4)) b.sending }
    else d

/-- IMG_CHUNK_SEND on port p, one chunk per µs, 1,900 cc, at most (R546). -/
def Dev.imgSend (d : Dev) (p : Nat) : Dev :=
  let b := d.sys.bcast
  match tblGet none b.sending p with
  | none => d
  | some c =>
    let n := chunkCount b.image
    if d.cycle < tblGet 0 b.next p then d
    else if n ≤ c then d.updBcast fun b => { b with sending := tblPut none p none b.sending }
    else
      let again := decide (c < tblGet 0 b.sent p)
      let d := d.updBcast fun b => { b with
        sending := tblPut none p (if c + 1 < n then some (c + 1) else none) b.sending
        sent := tblPut 0 p (max (c + 1) (tblGet 0 b.sent p)) b.sent
        next := tblPut 0 p (d.cycle + 1900) b.next }
      let d := match d.maintSlot 4 with
        | some k => (d.fdSet F.FLT_MAINT_STAT_PROGRESS k 0 (d.fd F.FLT_MAINT_STAT_PROGRESS k + 1)).updMaint k fun m =>
            { m with n1 := m.n1 + 1, n2 := m.n2 + b2n again }
        | none => d
      d.sendImg p 0x20 (imageId b.image) c n (chunkOf b.image c)

/-- The image of all chunks, cut to its LENGTH. -/
def bcastImage (b : BcastSt) : List (BitVec 8) :=
  let all := ((List.range b.nchunk).map fun c => tblGet [] b.chunks c).flatten
  all.take (leAt all 8 4)

/-- A received image fails verification (R547): a fault event with REASON 0xE3, the rest of whose body the manual does
not give (log entry 5). -/
def Dev.bcastFail (d : Dev) : Dev :=
  let d := (((d.count .SEC_SIG_FAIL_CNT).bcastClear 3).fdSet F.BOOT_BCAST_STAT_CHUNKS 0 0 0).post
    { cls := 0xB, reason := 0xE3, part := none, body := Config.freeBytes d.freeCount 24 }
  let d := { d with freeCount := d.freeCount + 1 }
  match d.maintSlot 4 with
  | some n => d.maintEnd n 1 0xE3 0x60 0 0
  | none => d

/-- IMG_CHUNK_RX (R547): stored, or discarded and counted; with the last one the image is verified, and its install
begins. -/
def Dev.imgChunk (d : Dev) : Dev :=
  match d.takeFm 0x20 with
  | none => d
  | some ((_, f), d) =>
    let b := d.sys.bcast
    let c := plLe f.payload 8 4
    if d.fd F.BOOT_BCAST_STAT_STATE ≠ 1 then d
    else if plLe f.payload 4 4 ≠ d.fd F.BOOT_BCAST_STAT_IMAGE_ID || b.nchunk ≤ c || !(tblGet [] b.chunks c).isEmpty ||
        b.installing then
      d.count .BOOT_BCAST_DUP_CNT
    else
      let d := (d.updBcast fun b => { b with chunks := tblPut [] c (((payloadBytes f.payload).drop 16).take 224) b.chunks }).fdSet
        F.BOOT_BCAST_STAT_CHUNKS 0 0 (d.fd F.BOOT_BCAST_STAT_CHUNKS + 1)
      let b := d.sys.bcast
      if b.chunks.length < b.nchunk then d
      else if (imageFault d.sys.flash.svnFloor (bcastImage b)).isSome then d.bcastFail
      else d.eraseSlot.updBcast fun b => { b with installing := true }

/-- IMG_REQ_TIMEOUT (R547): the lowest missing chunk is asked for. -/
def Dev.imgAsk (d : Dev) : Dev :=
  let b := d.sys.bcast
  match (List.range b.nchunk).find? fun c => (tblGet [] b.chunks c).isEmpty with
  | some c =>
    if d.fd F.BOOT_BCAST_STAT_STATE = 1 && !b.chunks.isEmpty then
      d.sendImg b.port 0x21 (d.fd F.BOOT_BCAST_STAT_IMAGE_ID) c b.nchunk []
    else d
  | none => d

/-- The staged image is judged (R562, R563). -/
def Dev.stageEnd (d : Dev) (x : Desc) (flashOk : Bool) : Dev :=
  let img := d.sys.stage.bytes
  let fail := fun (d : Dev) (dt : Nat) =>
    ((d.stageTo 0).updStage fun _ => { bytes := [], desc := none }).refuseDetail x dt
  if !flashOk then fail d 0x73
  else match imageFault d.sys.flash.svnFloor img with
    | some dt => fail (d.count .SEC_SIG_FAIL_CNT) dt
    | none =>
      let slot := d.otherSlot
      let d := ((d.tagSlot img).stageTo 3).updStage fun _ => { bytes := [], desc := none }
      let d := if d.sys.boot.recovery then d.updBoot fun b => { b with restart := true } else d
      d.completeOk x (imageId img + m32 * slot)

/-- IMAGE_INSTALL_COMPLETE (R562): read back, verified and tagged; for a received broadcast, which is then offered on.
flashOk: erase, program and read-back succeed. -/
def Dev.installEnd (d : Dev) (flashOk : Bool) : Dev :=
  match d.sys.stage.desc with
  | some x => d.stageEnd x flashOk
  | none =>
    if d.sys.bcast.installing then
      let img := bcastImage d.sys.bcast
      if flashOk then (d.tagSlot img).bcastOffer img else d.bcastFail
    else d

/-- RECOVERY_RESTART (R564): bring-up restarts at step 0x2, as after a full warm reset. -/
def recoveryRestart (m : Mem) (d : Dev) : Mem × Dev :=
  if d.sys.boot.restart && !d.inReset then hardReset false 2 m d else (m, d)

/-! Attestation (R568-R570) -/

/-- The measurement blocks (R570): image, licence, defect map with field entries, journal state. -/
def Dev.measurements (d : Dev) : List (BitVec 8) :=
  let f := d.sys.flash
  digest d.sys.boot.image ++ digest d.sys.boot.licence ++
    digest (Config.factoryDefects ++ ((f.live.filter fun r => r.kind == 3).map jrecHead).flatten) ++
    digest ((f.live.map jrecHead).flatten)

/-- The request that an SPDM message makes, by its request code (DMTF DSP0274; PRESUMED, log entry 7): its version is
one the device supports, its certificate slot 0. -/
def spdmCode (msg : List (BitVec 8)) : Nat :=
  let c := byteAt msg 1
  let v := byteAt msg 0
  let slot0 := byteAt msg 2 % 16 == 0
  if c == 0x84 && v == 0x10 then c
  else if !(v == 0x12 || v == 0x13) then 0
  else if c == 0xE1 || c == 0xE3 || c == 0x81 || c == 0xE0 then c
  else if (c == 0x82 || c == 0x83) && slot0 then c
  else 0

/-- The request that is served next: one in a function's DOE mailbox, or the first that the management lane has
completed, if it makes the request of a row. The requester's key is the function, or 2 plus the endpoint. -/
def Dev.spdmNext (d : Dev) (o : Option (Nat × List (BitVec 8))) (code : Nat) : Option (Nat × List (BitVec 8) × Dev) :=
  if !d.bit F.SEC_STAT_PUF_OK then none
  else match o with
  | some (h, msg) => if spdmCode msg = code && d.fnReach h then some (h, msg, d) else none
  | none => match d.sys.spdm.ready with
    | (src, msg) :: rest =>
      if spdmCode msg = code then
        some (src + 2, msg, d.updSys fun s => { s with spdm := { s.spdm with ready := rest } })
      else none
    | [] => none

/-- A response goes to its requester: the DOE mailbox, or fragments on the management lane (R569). -/
def Dev.spdmSend (d : Dev) (key : Nat) (bs : List (BitVec 8)) : Dev :=
  if key < 2 then d.emit (.spdm key bs)
  else d.forEach (List.range (max 1 (ceilDiv bs.length 224))) fun d c =>
    d.srcPush .host (mgmtFlit d.selfId (key - 2)
      (frame 240 [(0, leBytes 1 0x31), (8, leBytes 4 (224 * c)), (12, leBytes 4 bs.length),
        (16, (bs.drop (224 * c)).take 224)]))

/-- A request answered: response code and contents; the transcript that later signatures cover grows, and GET_VERSION
starts it. -/
def Dev.spdmAnswer (d : Dev) (o : Option (Nat × List (BitVec 8))) (code resp : Nat)
    (content : Dev → List (BitVec 8) → List (BitVec 8)) : Dev :=
  match d.spdmNext o code with
  | none => d
  | some (key, msg, d) =>
    let old := if code = 0x84 then [] else tblGet [] d.sys.spdm.script key
    let out := Config.spdmMessage resp msg (content d (old ++ msg))
    (d.updSys fun s => { s with spdm := { s.spdm with script := tblPut [] key (old ++ msg ++ out) s.spdm.script } }).spdmSend
      key out

/-- A signature of the identity key over what precedes it. -/
def signed (script content : List (BitVec 8)) : List (BitVec 8) :=
  content ++ identitySign (script ++ content)

/-- A request outside the supported set: an ERROR response, counted (R568). -/
def Dev.spdmError (d : Dev) (o : Option (Nat × List (BitVec 8))) : Dev :=
  match d.spdmNext o 0 with
  | none => d
  | some (key, msg, d) => (d.count .SEC_SPDM_ERR_CNT).spdmSend key (Config.spdmMessage 0x7F msg [])

/-- SPDM_REQUEST_FRAGMENT (R569): the first request fragment is added to its message; offset 0 begins one, and
abandons what its source had outstanding. -/
def Dev.spdmFragment (d : Dev) : Dev :=
  match d.takeFm 0x30 with
  | none => d
  | some ((_, f), d) =>
    let src := f.src.toNat
    let off := plLe f.payload 8 4
    let len := plLe f.payload 12 4
    d.updSys fun s =>
      let x := s.spdm
      let (n, got) := if off = 0 then (len, []) else tblGet (0, []) x.parts src
      let ready := if off = 0 then x.ready.filter fun e => e.1 ≠ src else x.ready
      if off ≠ got.length || n ≠ len then { s with spdm := { x with ready := ready } }
      else
        let got := got ++ ((payloadBytes f.payload).drop 16).take (min 224 (len - off))
        if len ≤ got.length then
          { s with spdm := { x with parts := tblPut (0, []) src (0, []) x.parts, ready := ready ++ [(src, got)] } }
        else { s with spdm := { x with parts := tblPut (0, []) src (len, got) x.parts, ready := ready } }

/-! The journal (R575, R576) -/

/-- Does an entry name an RW field, with a good KIND (detail 0x77)? The other bytes of an entry are zero. -/
def entryOk (bs : List (BitVec 8)) : Bool :=
  (byteAt bs 0 == 1 || byteAt bs 0 == 2) && zeroSpan bs 1 3 &&
    match regAt (leAt bs 4 4) with
    | some p => rwMask p.reg &&& laneMask p (if (regInfo p.reg).wide && p.byte == 0 then 8 else 4) ≠ 0
    | none => false

/-- The live records once a list of records, behind those that are not durable, has counted. -/
def FlashSt.liveAfter (f : FlashSt) (l : List JRec) : Nat :=
  (((f.open_.map (·.recs)).flatten ++ l).foldl addLive f.live).length

/-- JOURNAL_PUT (R575, R576): refused, or its group is appended. -/
def Dev.journalPut (d : Dev) (h r : Nat) : Dev :=
  d.withDesc h r 0x10 fun d x =>
    if (d.maintSlot 5).isSome || d.sys.flash.open_.any (fun g => match g.desc with
      | some y => y.order == x.order
      | none => false) then d
    else if !((recs16 x.data (x.arg 28 1)).all entryOk) then d.refuseDetail x 0x77
    else
      let items := (jrnlEntries x).map fun e => ({ kind := e.1, func := x.fn, key := e.2.1, value := e.2.2 } : JItem)
      let recs := items.map fun e =>
        ({ kind := e.kind, func := e.func, key := e.key, value := e.value, dseq := 0, ring := 0, rseq := 0 } : JRec)
      if 16384 < d.sys.flash.liveAfter recs then d.refuseDetail x 0x78
      else d.appendGroup items (some x)

/-- A durable KIND 0x01 value applied as a register write from the issuer (R575). -/
def Dev.applyRec (d : Dev) (r : JRec) : Dev :=
  if r.kind = 1 then
    match regAt r.key with
    | some p => d.writeAt r.func r.key (if (regInfo p.reg).wide && p.byte == 0 then 8 else 4) r.value
    | none => d
  else d

/-- JOURNAL_COMMIT_DURABLE: the COMMIT of the oldest group is durable (R574, R575). -/
def Dev.commitDurable (d : Dev) : Dev :=
  match d.sys.flash.open_ with
  | [] => d
  | g :: _ =>
    let d := d.updFlash FlashSt.commitFirst
    match g.desc with
    | none => d
    | some x => ((g.recs.foldl (fun (d : Dev) e => d.applyRec e) (d.setRawF .HOST_JSEQ x.fn x.ring 0 x.seq)).completeOk x 0)

/-- JOURNAL_COMPACTION: at 75 % full firmware starts it (R576). -/
def Dev.compactStart (d : Dev) : Dev :=
  if d.sys.flash.threeQuarters && (d.maintSlot 5).isNone then (d.maintByFw 5 0).2 else d

/-- JOURNAL_COMPACTION_COMPLETE (R576). -/
def Dev.compactEnd (d : Dev) : Dev :=
  match d.maintSlot 5 with
  | none => d
  | some n =>
    (d.updFlash FlashSt.compacted).maintEnd n 0 0 0 0 0

end Sys2Proof.Machine
end

