-- ==== Sys2Proof/Machine/Xfer.lean ====
section
/-! DEFINITION. State transfer to a repaired switch, canaries, the end and the retry of maintenance activities, Loupe's
ring (17: R594-R613). -/

namespace Sys2Proof.Machine

/-! State transfer (R594-R597) -/

/-- The private encoding of a state image, and its decoding where the version is one this firmware reads (R594). -/
opaque xferEncode : XferImage → List (BitVec 8)
opaque xferDecode : List (BitVec 8) → Option XferImage

/-- The registers of barrier b. -/
def barRegs (b : Nat) (t : Tbl (BitVec 64)) : Tbl (BitVec 64) :=
  t.filter fun e => (keyReg e.1 == RegName.CORE_BAR.ctorIdx || keyReg e.1 == RegName.CORE_BAR_CHILD.ctorIdx) &&
    keyI e.1 == b

/-- A context as it would lie in its spill slot (R258): with its group memory, non-resident. -/
def spillState (c : Nat) (m : Mem) (d : Dev) : XferCtx :=
  let x := d.ctx c
  let img := match x.slot with
    | some s => if x.restoring then x.image else slotImage m (d.phys x.tile) s
    | none => x.image
  { id := c, st := { x with slot := none, spilling := false, restoring := false, want := false, image := img }
    enc := d.rawF .TILE_CTX_ENC 0 c 0, fa := d.rawF .TILE_CTX_FA 0 c 0, exc := d.rawF .TILE_CTX_EXC 0 c 0 }

/-- The snapshot of a job (R594). -/
def snapshot (j : XferJob) (m : Mem) (d : Dev) : XferImage :=
  let named := fun k => bitAt j.parts k
  { tables := j.tables % 64
    regs := d.regs.filter fun e => (xferTables j.tables).contains (keyReg e.1)
    bars := if bitAt j.tables 5 then
        ((List.range 256).filter fun b => d.bit F.CORE_BAR_VALID b && named (d.fd F.CORE_BAR_PART b)).map fun b =>
          { id := b, st := d.bar b, regs := barRegs b d.regs }
      else []
    ctxs := (d.liveCtxs.filter fun c => (d.ctx c).state == .armed && named (d.ctx c).part).map fun c => spillState c m d }

/-- The number of chunks of the partner's image. -/
def XferSt.count (x : XferSt) : Nat := max 1 (chunkCount x.image)

/-- The cc in which barrier b releases with an epoch: an accepted XFER_START that names both takes its snapshot, or
ends with detail 0x84 (R594). d: the device before the release. -/
def xferAtRelease (b epoch : Nat) (m : Mem) (d : Dev) : Dev → Dev :=
  match d.sys.xfer.job with
  | none => id
  | some j =>
    if d.sys.xfer.taken || j.bar ≠ b || j.epoch ≠ epoch then id
    else if d.liveCtxs.any fun c => bitAt j.parts (d.ctx c).part && (d.ctx c).state != .armed && (d.ctx c).state != .free then
      fun e => (e.updSys fun s => { s with xfer := s.xfer.jobOver }).maintEnd j.slot 1 0xFC 0x84 0 0
    else fun e => e.updSys fun s => { s with
      xfer := { s.xfer with taken := true, image := xferEncode (snapshot j m d), next := 0, high := 0 } }

/-- FM_XFER_START (R588, R594): when the named release has come in this very cc the snapshot is taken at once. -/
def fmXferStart (m : Mem) (d : Dev) : Mem × Dev :=
  let e := d.fmXfer
  match e.sys.xfer.job with
  | some j => (m, if (e.bar j.bar).last = some (e.cycle, j.epoch) then xferAtRelease j.bar j.epoch m e e else e)
  | none => (m, e)

/-- A barrier releases (R252, R594, R598). -/
def barReleaseX (b : Nat) (m : Mem) (d : Dev) : Mem × Dev :=
  (m, (xferAtRelease b (d.bar b).epoch m d) (d.barRelease b))

/-- BARRIER_RELEASE_TIME: fabric time reaches the release time (R253). -/
def barTime (b : Nat) (m : Mem) (d : Dev) : Mem × Dev :=
  let x := d.bar b
  if x.state == .releasing && !x.failed && d.reached x.tr then barReleaseX b m d else (m, d)

/-- BARRIER_RELEASE_RX: a late RELEASE releases at once (R253). -/
def barReleaseRxX (m : Mem) (d : Dev) : Mem × Dev :=
  match d.barReleaseRx with
  | (d, none) => (m, d)
  | (d, some b) => barReleaseX b m d

/-- STATE_CHUNK_SEND: four chunks per µs, 1,900 cc, at most (R596). -/
def Dev.xferSend (d : Dev) : Dev :=
  let x := d.sys.xfer
  match x.job with
  | none => d
  | some j =>
    if !x.taken || x.count ≤ x.next || 4 ≤ (x.times.filter fun t => decide (d.cycle < t + 1900)).length then d
    else
      let c := x.next
      let d := d.updSys fun s => { s with xfer := { s.xfer with
        next := c + 1, high := max (c + 1) s.xfer.high, times := (d.cycle :: x.times).take 4 } }
      let d := (d.fdSet F.FLT_MAINT_STAT_PROGRESS j.slot 0 (max (c + 1) x.high)).updMaint j.slot fun m =>
        { m with n1 := m.n1 + 1, n2 := m.n2 + b2n (decide (c < x.high)) }
      d.srcPush .host (mgmtFlit d.selfId j.dst
        (frame 240 [(0, leBytes 1 0x44), (4, leBytes 2 j.xid), (8, leBytes 4 c), (12, leBytes 4 x.count),
          (16, chunkOf x.image c)]))

/-- STATE_REQ_RX (R596). -/
def Dev.xferReq (d : Dev) : Dev :=
  match d.takeFm 0x45 with
  | none => d
  | some ((_, f), d) =>
    match d.sys.xfer.job with
    | some j =>
      if d.sys.xfer.taken && j.xid = plLe f.payload 4 2 then
        d.updSys fun s => { s with xfer := { s.xfer with next := min s.xfer.high (plLe f.payload 8 4) } }
      else d
    | none => d

/-- The maintenance event of an install, to the primary host; the slot it names is not given (log entry 5). -/
def Dev.xferEvent (d : Dev) (outcome reason detail : Nat) : Dev :=
  let (v, d) := d.fresh
  (d.fltSet F.FLT_STATUS_MAINT_DONE).post
    { cls := 0xC, reason := reason, part := none
      body := leBytes 1 6 ++ leBytes 1 outcome ++ leBytes 2 d.selfId ++ leBytes 1 detail ++ leBytes 1 0 ++
        leBytes 2 v.toNat ++ leBytes 8 0 }

/-- May a state image be installed (R597)? -/
def Dev.xferOk (d : Dev) (x : XferImage) : Bool :=
  x.ctxs.all fun c => (d.ctx c.id).state == .free && d.fd F.TILE_PART_PART c.st.tile == c.st.part

/-- Once the tables are written (R597): barriers, contexts non-resident with their spill slots written; ARM is cleared and
the event posted. -/
def installRest (x : XferImage) (m : Mem) (d : Dev) : Mem × Dev :=
  let d := x.bars.foldl (fun (d : Dev) b =>
    { (d.updBar b.id fun _ => b.st) with regs := b.regs.foldl (fun t e => tblInsert e.1 e.2 t)
                                           (d.regs.filter fun e => !((barRegs b.id d.regs).any fun y => y.1 == e.1)) }) d
  let (m, d) := x.ctxs.foldl (fun (a : Mem × Dev) c => setupSpill c.id a.1
    ((((a.2.updCtx c.id fun _ => c.st).setRawF .TILE_CTX_ENC 0 c.id 0 c.enc).setRawF .TILE_CTX_FA 0 c.id 0 c.fa).setRawF
      .TILE_CTX_EXC 0 c.id 0 c.exc)) (m, d)
  (m, ((d.updSys fun s => { s with xfer := { s.xfer with inst := none } }).fdSet F.FLT_XFER_CFG_ARM 0 0 0).xferEvent 0 0 0)

/-- TABLE_UPDATE_COMMIT: the oldest update commits; with that of a state image the install goes on (R174, R597). -/
def commitUpdate (m : Mem) (d : Dev) : Mem × Dev :=
  let fw := fun (d : Dev) => d.core.updWait.any fun u => u.fn == 2
  let e := d.tableCommit
  match d.sys.xfer.inst with
  | some x => if fw d && !fw e then installRest x m e else (m, e)
  | none => (m, e)

/-- Every chunk has arrived (R597): with FWD_EN = 1 the tables wait to commit as an update (R176). -/
def xferInstall (m : Mem) (d : Dev) : Mem × Dev :=
  let x := d.sys.xfer
  let bs := ((List.range x.nchunk).map fun c => tblGet [] x.chunks c).flatten
  let d := d.updSys fun s => { s with xfer := { s.xfer with chunks := [], nchunk := 0 } }
  match xferDecode bs with
  | some y =>
    if d.xferOk y then
      if d.bit F.CORE_CTRL_FWD_EN && !(xferTables y.tables).isEmpty then
        let u : Update := { fn := 2, ring := 0, order := d.accOrder, reason := 0, cells := [] }
        (m, { (d.updSys fun s => { s with xfer := { s.xfer with inst := some y } }).updCore fun c => { c with
          updWait := c.updWait ++ [u] } with accOrder := d.accOrder + 1 })
      else installRest y m (d.putTables y)
    else (m, d.xferEvent 1 0xFC 0x85)
  | none => (m, d.xferEvent 1 0xFC 0x85)

/-- STATE_CHUNK_RX (R596): stored, or discarded and counted; the last one starts the install. -/
def xferRx (m : Mem) (d : Dev) : Mem × Dev :=
  match d.takeFm 0x44 with
  | none => (m, d)
  | some ((_, f), d) =>
    if !(d.bit F.FLT_XFER_CFG_ARM && f.src.toNat == d.fd F.FLT_XFER_CFG_SRC &&
        plLe f.payload 4 2 == d.fd F.FLT_XFER_CFG_XFER_ID) then (m, d.count .FLT_XFER_REJ_CNT)
    else
      let n := plLe f.payload 12 4
      let c := plLe f.payload 8 4
      let old := d.sys.xfer.chunks
      let new := if c < n then tblPut [] c (((payloadBytes f.payload).drop 16).take 224) old else old
      let d := d.updSys fun s => { s with xfer := { s.xfer with nchunk := n, chunks := new } }
      if n ≤ d.sys.xfer.chunks.length then xferInstall m d else (m, d)

/-- STATE_REQ_TIMEOUT: 1 ms after a chunk with chunks missing (R596). -/
def Dev.xferAsk (d : Dev) : Dev :=
  let x := d.sys.xfer
  match (List.range x.nchunk).find? fun c => (tblGet [] x.chunks c).isEmpty with
  | some c =>
    if d.bit F.FLT_XFER_CFG_ARM && !x.chunks.isEmpty then
      d.srcPush .host (mgmtFlit d.selfId (d.fd F.FLT_XFER_CFG_SRC)
        (frame 12 [(0, leBytes 1 0x45), (4, leBytes 2 (d.fd F.FLT_XFER_CFG_XFER_ID)), (8, leBytes 4 c)]))
    else d
  | none => d

/-! Canaries (R601) -/

/-- One canary that failed: a self-check failure of the physical tile, and the tile's contexts fault. -/
def Dev.canaryFail (d : Dev) (x : CanaryFail) : Dev :=
  let i := x.tile.val
  if d.domOn i && (!x.sift || d.domOn (siftDom i)) then
    -- TAG: the spec gives no value for a canary's (log entry 5)
    let (v, d) := d.fresh
    let d := d.scFail { check := if x.sift then 3 else 1, tile := d.phys i, lane := none, ctx := none, tag := v.toNat % 65536
                        temp := x.temp.toNat, rail := x.rail.toNat, pattern := d.sys.canary }
    d.faultAll (d.tileCtxs i) (if x.sift then 0x86 else 0x27)
  else d

/-- CANARY_TIMER: every CANARY_MS the canaries run on the next of 64 patterns; fails: those whose result differs. -/
def Dev.canary (d : Dev) (fails : List CanaryFail) : Dev :=
  if d.bit F.FLT_SC_CFG_CANARY_EN then
    (fails.foldl (fun (d : Dev) x => d.canaryFail x) d).updSys fun s => { s with canary := (s.canary + 1) % 64 }
  else d

/-! Ends and retries of activities (R605-R609) -/

/-- A cancelled activity has stopped (R609). -/
def Dev.maintStopped (d : Dev) (n : Nat) : Dev :=
  let d := match d.maintAct n with
    | 4 => d.bcastClear 0
    | 6 => d.updSys fun s => { s with xfer := s.xfer.jobOver }
    | _ => d
  d.maintEnd n 2 0 0 (d.maint n).n1 (d.maint n).n2

/-- MAINT_ACTIVITY_END of slot n: a cancelled activity stops; one that has done its work ends (R605, R606). ok: the
march test passed; e: what a SCRUB found. COMPACT ends by a row of its own. -/
def Dev.maintDone (d : Dev) (n : Nat) (ok : Bool) (e : ReadErr) : Dev :=
  if d.fd F.FLT_MAINT_STAT_STATE n = 2 then d.maintStopped n
  else if !d.maintBusy n then d
  else
    let m := d.maint n
    match d.maintAct n with
    | 1 => if d.domOn (dieDom (d.maintIdx n)) then d.maintFinish n ok e else d
    | 4 => if d.fd F.BOOT_BCAST_STAT_STATE = 2 then (d.bcastClear 0).maintEnd n 0 0 0 m.n1 m.n2 else d
    | 6 =>
      let x := d.sys.xfer
      if x.taken && x.count ≤ x.next then
        (d.updSys fun s => { s with xfer := s.xfer.jobOver }).maintEnd n 0 0 0 m.n1 m.n2
      else d
    | _ => d.maintFinish n ok e

/-- MAINT_RETRY: firmware tries the first of its refused activities again (R608). -/
def Dev.maintRetry (d : Dev) : Dev :=
  match d.sys.retry with
  | [] => d
  | (act, i) :: _ => (d.maintByFw act i).2

/-! Loupe's ring (R612, R613) -/

/-- LOUPE_RECORD_WRITE: the first record queued in an earlier cc goes to its ring by the rules of R211, or is dropped;
one a cc. -/
def loupeWrite (m : Mem) (d : Dev) : Mem × Dev :=
  match (if d.sys.loupe.took = d.cycle + 1 then [] else d.sys.loupe.q.take 1).filter fun r => decide (r.cycle < d.cycle) with
  | [] => (m, d)
  | r :: _ =>
    let d := d.updSys fun s => { s with loupe := { s.loupe with q := s.loupe.q.drop 1, took := d.cycle + 1 } }
    let dest := d.fd F.LOUPE_CTRL_DEST
    let n := ringLog2 dest (d.fd F.LOUPE_CTRL_SIZE_LOG2)
    let slots := 2 ^ (n - 5)
    let w := d.fd F.LOUPE_WPTR_WPTR
    let base := d.fd F.LOUPE_BASE_BASE / 2 ^ n * 2 ^ n
    let full := d.fd F.LOUPE_CTRL_MODE == 0 && (w + 2 ^ 64 - d.fd F.LOUPE_RPTR_RPTR) % 2 ^ 64 == slots
    let bytes := bytesPut r.bytes 15 (leBytes 1 (byteAt r.bytes 15 ||| b2n d.sys.loupe.lost <<< 4))
    let wrote := (d.updSys fun s => { s with loupe := { s.loupe with lost := false } }).fdSet F.LOUPE_WPTR_WPTR 0 0 (w + 1)
    if full then (m, d.loupeDrop)
    else if dest = 0 then
      match d.captureRing base n with
      | none => (m, d.loupeDrop)
      | some k => if d.d2dFailed k then (m, d.loupeDrop)
        else (m.hbmWrite (base + 32 * (w % slots)) bytes, wrote)
    else match d.primary with
      | none => (m, d.loupeDrop)
      | some h => if d.d2dFailed 2 then (m, d.loupeDrop) else (m, wrote.hostWrite h (base + 32 * (w % slots)) bytes)

end Sys2Proof.Machine
end

