-- ==== Sys2Proof/Machine/Package.lean ====
section
/-! DEFINITION. Rails, temperatures, board management and the test port (19: R643-R653), HBM refresh (12: R457), and
one cycle of the core clock (04: R160-R162). -/

namespace Sys2Proof.Machine

/-! Rails (R643) -/

/-- RAIL_FAULT: a rail out of tolerance for 10 µs acts as COLD_RST_N asserted. -/
def railFault (m : Mem) (d : Dev) : Mem × Dev :=
  if d.sys.boot.coldLow then (m, d) else hardReset true 1 m (d.updBoot fun b => { b with railBad := true })

/-- RAIL_RECOVERY: every rail has been back for 1 ms; bring-up restarts at step 0x1. -/
def Dev.railBack (d : Dev) : Dev :=
  if d.sys.boot.railBad then
    let d := d.updBoot fun b => { b with railBad := false }
    if d.inReset then d else d.fdSet F.BOOT_STAT_STEP 0 0 1
  else d

/-! Temperatures (R651-R653) -/

def Dev.updTherm (d : Dev) (f : ThermSt → ThermSt) : Dev := d.updSys fun s => { s with therm := f s.therm }

/-- The silicon a sensor belongs to, in table order: core, memory-side, host I/O, HBM, EIC, PIC. -/
def siliconOf (s : Nat) : Nat := ([0, 1, 1, 2, 3, 4, 5, 5] : List Nat).getD s 5

/-- The warning and trip levels of R651. -/
def warnAt (k : Nat) : Int := ([100, 100, 100, 95, 85, 75] : List Int).getD k 75
def tripAt (k : Nat) : Int := ([115, 115, 120, 105, 100, 90] : List Int).getD k 90

/-- Is sensor s, reading t, at a warning (the coldest PIC: below 15 °C)? -/
def warns (s : Nat) (t : Int) : Bool :=
  t ≠ -128 && (if s = 7 then decide (t < 15) else decide (warnAt (siliconOf s) ≤ t))

/-- Is it 5 °C inside its warning level? -/
def calmAt (s : Nat) (t : Int) : Bool :=
  t = -128 || (if s = 7 then decide (20 ≤ t) else decide (t ≤ warnAt (siliconOf s) - 5))

def trips (s : Nat) (t : Int) : Bool := t ≠ -128 && s ≠ 7 && decide (tripAt (siliconOf s) ≤ t)

/-- A trip (R653): modulators stop, every laser module is disabled. -/
def Dev.tripped (d : Dev) (k : Nat) : Dev :=
  let d := d.updTherm fun t => { t with trip := true, cause := k }
  let d := d.forEach (List.range 256) fun d p =>
    if (d.port p).modOn then d.updPort p fun x => { x with modOn := false } else d
  d.forEach (List.range 64) fun d m => d.emit (.cmis (m / 4) (m % 4) false)

/-- The lowest silicon of a mask. -/
def lowSilicon (mask : Nat) : Nat := ((List.range 6).find? fun k => bitAt mask k).getD 0

/-- THERMAL_SAMPLE: the eight readings of `ThermSt.temps`. -/
def Dev.thermal (d : Dev) (temps : List Int) : Dev :=
  let ts := (List.range 8).map fun s => (s, at_ (-128) temps s)
  let mask := ts.foldl (fun a e => if warns e.1 e.2 then a ||| 1 <<< siliconOf e.1 else a) 0
  let old := d.sys.therm
  let new := mask ^^^ (mask &&& old.warn)
  let calm := if ts.all fun e => calmAt e.1 e.2 then min 10 (old.calm + 1) else 0
  let d := d.updTherm fun t => { t with
    temps := ts.map (·.2)
    warn := mask
    cause := if new ≠ 0 then lowSilicon new else t.cause
    calm := calm
    alert := if new ≠ 0 then true else if calm = 10 then false else t.alert
    bmcAlert := t.bmcAlert || decide (new ≠ 0) }
  if d.inReset || old.trip then d
  else match ts.find? fun e => trips e.1 e.2 with
    | some e => d.tripped (siliconOf e.1)
    | none => d

/-! Board management (R648) -/

/-- The interface answers from the end of step 0x1. -/
def Dev.bmcUp (d : Dev) : Bool := !d.inReset && decide (2 ≤ d.bootStep)

/-- An answer on the board-management bus. -/
def Dev.bmcAnswer (d : Dev) (bs : List (BitVec 8)) : Dev := if d.bmcUp then d.emit (.bmc bs) else d

/-- The six bytes of TEMP: -128 for a sensor whose domain is off. -/
def Dev.bmcTemps (d : Dev) : List (BitVec 8) :=
  let t := fun s => at_ (-128) d.sys.therm.temps s
  let off := fun n => d.domState n == 0
  let eng := (List.range 16).all fun e => off (engineDom e)
  [if off coreDom then -128 else t 0, if off 68 then -128 else t 1, if off 69 then -128 else t 2, t 3,
    if off 68 && off 69 then -128 else t 4, if eng then -128 else max (t 5) (t 6)].flatMap fun x => leBytes 1 (tempByte x)

def Dev.bmcTemp (d : Dev) : Dev := d.bmcAnswer d.bmcTemps
/-- POWER: w is the power measured from the rails. -/
def Dev.bmcPower (d : Dev) (w : Nat) : Dev := d.bmcAnswer (leBytes 2 w)
def Dev.bmcStatus (d : Dev) : Dev := d.bmcAnswer (leBytes 4 (d.readReg .BOOT_STAT 0 0 0))
def Dev.bmcHbseq (d : Dev) : Dev := d.bmcAnswer (leBytes 4 (d.fd F.FLT_FM_STAT_HBSEQ))

/-- THERM: reading it clears BMC_ALERT_N. -/
def Dev.bmcTherm (d : Dev) : Dev :=
  if d.bmcUp then
    let t := d.sys.therm
    (d.bmcAnswer (leBytes 1 (b2n (t.warn ≠ 0) ||| b2n t.trip <<< 1 ||| t.cause <<< 2))).updTherm fun t =>
      { t with bmcAlert := false }
  else d

/-! The test port (R650) -/

def Dev.updJtag (d : Dev) (f : JtagSt → JtagSt) : Dev := d.updSys fun s => { s with jtag := f s.jtag }

/-- The IDCODE. -/
def idcode : Nat := 0x1D70055B

/-- An instruction comes into force, with the bits of the register it selects, unless the TAP is held in reset. -/
def Dev.jtagIr (d : Dev) (ir : JtagIr) (bits : List Bool) : Dev :=
  if d.sys.jtag.held then d else (d.updJtag fun j => { j with ir := ir }).emit (.jtag bits)

/-- BYPASS selects the one-bit register, which captures 0. -/
def Dev.jtagBypass (d : Dev) : Dev := d.jtagIr .bypass [false]

/-- IDCODE: 32 bits, the least significant first. -/
def Dev.jtagIdcode (d : Dev) : Dev := d.jtagIr .idcode ((List.range 32).map fun i => bitAt idcode i)

/-- SAMPLE/PRELOAD: the values at the balls come out, those shifted in are held. -/
def Dev.jtagSample (d : Dev) (seen load : List Bool) : Dev :=
  if d.sys.jtag.held then d else (d.jtagIr .sample seen).updJtag fun j => { j with cells := load }

/-- EXTEST, HIGHZ and CLAMP act only while COLD_RST_N is low; else they act as BYPASS. -/
def Dev.jtagOuter (d : Dev) (ir : JtagIr) (bits : List Bool) : Dev :=
  if d.sys.boot.coldLow then d.jtagIr ir bits else d.jtagBypass

/-- JTAG_TAP_RESET: TRST_N high or not. In reset the TAP stands at IDCODE. -/
def Dev.tapReset (d : Dev) (high : Bool) : Dev :=
  d.updJtag fun j => if high then { j with held := false } else { j with held := true, ir := .idcode }

/-! HBM refresh (R457) -/

/-- HBM_REFRESH of a bank of die k: it starts, or ends and releases the accesses that met it. -/
def Dev.hbmRefresh (d : Dev) (k bank : Nat) (start : Bool) (met : Nat) : Dev :=
  let busy := d.hbm.refresh.contains (k, bank)
  if start then
    if busy then d else { d with hbm := { d.hbm with refresh := d.hbm.refresh ++ [(k, bank)] } }
  else if busy then
    ({ d with hbm := { d.hbm with refresh := d.hbm.refresh.erase (k, bank) } }).countN .MEM_REFRESH_WAIT_CNT k 0 met
  else d

/-! The core clock (R160-R162) -/

/-- The slot counter after one cc: it follows fabric time while that is locked, one slot of correction a cc; a cc in which
it does not match breaks the row of 32 (R162). The express candidates take their next step (R153). -/
def Dev.slotTick (d : Dev) : Dev :=
  let d := { d.tmoPost.coreCycle with cycle := d.cycle + 1, hot := [] }
  let c := d.core
  let next := (c.slot + 1) % 32
  let want := d.fabricCycle % 32
  let lead := (next + 32 - want) % 32
  let put := fun (d : Dev) (t n : Nat) (ok : Bool) => d.updCore fun c => { c with slot := t, matched := n, slotLocked := ok }
  let lose := fun (d : Dev) => if c.slotLocked then d.flagOr F.CORE_SLOT_STAT_LOCK_LOST 0 0 1 else d
  (if !d.time.locked then put (lose d) next 0 false
  else if lead = 0 then
    let n := min 32 (c.matched + 1)
    put d next n (c.slotLocked || n = 32)
  else
    let t := if lead ≤ 16 then c.slot else (c.slot + 2) % 32
    let near := lead = 1 || lead = 31
    put ((if near then d else lose d).count .CORE_SLOT_ADJ_CNT) t 0 (c.slotLocked && near)).expressTick

/-- SLOT_COUNTER_TICK: one cc of the core clock, for the slot counter and for stalled runs (R283). -/
def slotCounter (m : Mem) (d : Dev) : Mem × Dev :=
  let (m, d) := proceedHeld m d.slotTick
  seqTick m d

end Sys2Proof.Machine
end

