-- ==== Sys2Proof/Machine/CmdCore.lean ====
section
/-! DEFINITION. The commands of the switch core (04: R134-R178), its queues and its captures (05: R179-R218). -/

namespace Sys2Proof.Machine

/-- INGRESS_BIND (R163): a delivered flit is checked for partition, looked up in the tables, metered and queued or
discarded. -/
def execIngressBind (src : Source) (s : State) :
    Host.Outcome State Fault Refusal :=
  coreDone (fun d => d.ingressBind src ((List.range 16).filter fun k => d.partReset k)) s

/-- SLOT_COUNTER_TICK (R160): each cc the slot counter advances, holds or skips to follow fabric time, updating
lock. -/
def execSlotCounterTick (s : State) :
    Host.Outcome State Fault Refusal :=
  coreMem (fun m d => slotCounter m d) s

/-- STAGE_ONE_CROSSING (R137): a cell crosses stage one to its intermediate group when its slot comes, by hash or
dynamic choice. -/
def execStageOneCrossing (g : Group) (s : State) :
    Host.Outcome State Fault Refusal :=
  coreDone (fun d => d.stageOne g.val) s

/-- STAGE_TWO_CROSSING (R137): a cell crosses stage two to its egress group when its slot comes. -/
def execStageTwoCrossing (g : Group) (s : State) :
    Host.Outcome State Fault Refusal :=
  coreDone (fun d => d.stageTwo g.val) s

/-- S2_CROSSING (R156): an S2 express flit crosses in its slot and takes the first free transmit boundary. -/
def execS2Crossing (g : Group) (p : Port) (s : State) :
    Host.Outcome State Fault Refusal :=
  coreDone (fun d => d.s2Crossing g.val p.val) s

/-- SCHEDULER_VISIT (R141): the egress scheduler visits a client and selects up to two flits by strict order and
deficit rotation. -/
def execSchedulerVisit (c : Client) (s : State) :
    Host.Outcome State Fault Refusal :=
  coreDone (fun d => d.schedulerVisit c) s

/-- RESEQ_ARRIVE (R151): a dynamic-mode cell reaches the egress resequencer and is held, released or discarded late.
-/
def execReseqArrive (g : Group) (s : State) :
    Host.Outcome State Fault Refusal :=
  coreDone (fun d => d.reseqArrive g.val) s

/-- RESEQ_HOLE (R151): a hole notice for a discarded cell lets the resequencer skip its MSEQ. -/
def execReseqHole (g : Group) (s : State) :
    Host.Outcome State Fault Refusal :=
  coreDone (fun d => d.reseqHoleStep g.val) s

/-- RESEQ_TIMEOUT (R151): held cells wait TIMEOUT cc and the resequencer skips to the lowest held MSEQ. -/
def execReseqTimeout (g : Group) (s : State) :
    Host.Outcome State Fault Refusal :=
  coreDone (fun d => d.reseqTimeout g.val) s

/-- TABLE_UPDATE_COMMIT (R174): a checked table update commits in one cc in every ingress group and places drain
markers. -/
def execTableUpdateCommit (s : State) :
    Host.Outcome State Fault Refusal :=
  coreMem (fun m d => commitUpdate m d) s

/-- TABLE_UPDATE_DRAIN_COMPLETE (R175): every drain marker has passed every queue and the update's completion is
posted. -/
def execTableUpdateDrainComplete (s : State) :
    Host.Outcome State Fault Refusal :=
  coreDone (fun d => d.drainDone) s

/-- TABLE_UPDATE_DRAIN_TIMEOUT (R177): an update not drained within DRAIN_TO completes with reason 0xF6 and stays
committed. -/
def execTableUpdateDrainTimeout (s : State) :
    Host.Outcome State Fault Refusal :=
  coreDone (fun d => d.drainTimeout) s

/-- CREDIT_ARBITRATION (R190): each cc due credits and waiting internal sources are served up to four, by rank and
age. -/
def execCreditArbitration (s : State) :
    Host.Outcome State Fault Refusal :=
  coreDone (fun d => d.creditArb) s

/-- SHAPER_TICK (R198): each cc every shaper and meter bucket gains RATE tokens up to its burst. -/
def execShaperTick (s : State) :
    Host.Outcome State Fault Refusal :=
  coreDone (fun d => d.shaperTick) s

/-- TELEMETRY_SAMPLE (R202): at each fabric cycle multiple of 2^K, queue state of masked ports is sampled into
telemetry records. -/
def execTelemetrySample (s : State) :
    Host.Outcome State Fault Refusal :=
  coreDone (fun d => d.teleSample) s

/-- TELEMETRY_RECORD_WRITE (R204): a pending telemetry record of a sample is written to the telemetry ring. -/
def execTelemetryRecordWrite (s : State) :
    Host.Outcome State Fault Refusal :=
  coreDone (fun d => d.teleWrite) s

/-- MIRROR_CAPTURE (R208): a filter match at a capture point produces a Mirror record into the queue. -/
def execMirrorCapture (s : State) :
    Host.Outcome State Fault Refusal :=
  coreDone (fun d => d.mirrCapture) s

/-- MIRROR_RECORD_WRITE (R209): mirror writes one queued record per cc to its ring, or drops it when the ring is
full. -/
def execMirrorRecordWrite (s : State) :
    Host.Outcome State Fault Refusal :=
  coreMem (fun m d => mirrWrite m d) s

/-- PORT_QUEUES_HELD (R212): a port goes down and its queues enter HELD with a hold timer, or FLUSHING at HOLD 0. -/
def execPortQueuesHeld (p : Port) (s : State) :
    Host.Outcome State Fault Refusal :=
  coreDone (fun d => d.queuesHeld p.val) s

/-- HOLD_TIMER_EXPIRY (R212): the hold timer of a HELD port ends and its queues enter FLUSHING. -/
def execHoldTimerExpiry (p : Port) (s : State) :
    Host.Outcome State Fault Refusal :=
  coreDone (fun d => d.holdExpiry p.val) s

/-- FLUSH_COMPLETE (R212): every cell of the port is freed and its queues return to ACTIVE or HELD. -/
def execFlushComplete (p : Port) (s : State) :
    Host.Outcome State Fault Refusal :=
  coreDone (fun d => d.flushComplete p.val) s

end Sys2Proof.Machine
end

