-- ==== Sys2Proof/Machine/CmdCtx.lean ====
section
/-! DEFINITION. The commands of contexts (06: R224-R243, R258-R262) and of time and barriers (06: R244-R257). -/

namespace Sys2Proof.Machine

/-- CTX_SETUP (R227): the descriptor sets up a context from its tree descriptor or is refused with 0xC6 or 0xC8. -/
def execCtxSetup (fn : Fn) (r : RingNo) (s : State) :
    Host.Outcome State Fault Refusal :=
  hostMem (fun m d => withNewMem fn.val r.val 2 ctxSetup m d) s

/-- CTX_FREE (R228): the descriptor frees an ARMED or FAULTED context, or completes CONTEXT_BUSY or refused. -/
def execCtxFree (fn : Fn) (r : RingNo) (s : State) :
    Host.Outcome State Fault Refusal :=
  hostDone (fun d => d.withNew fn.val r.val 3 Dev.ctxFree) s

/-- CTX_ABORT (R228): the descriptor faults an ARMED or OPEN context with reason 0xC9. -/
def execCtxAbort (fn : Fn) (r : RingNo) (s : State) :
    Host.Outcome State Fault Refusal :=
  hostDone (fun d => d.withNew fn.val r.val 4 Dev.ctxAbort) s

/-- CONTRIBUTION_ARRIVE (R231): a contribution bound to a tile is checked in order and is taken, waits, or faults
the context. -/
def execContributionArrive (i : TileId) (s : State) :
    Host.Outcome State Fault Refusal :=
  tileMem i.val (fun m d => ctxArrive i.val m d) s

/-- CONTRIBUTION_RETRY (R231): a waiting contribution is reconsidered when its context becomes resident, returns to
ARMED or base advances. -/
def execContributionRetry (s : State) :
    Host.Outcome State Fault Refusal :=
  coreMem (fun m d => ctxRetry m d) s

/-- CTX_TMO_EXPIRY (R228): an OPEN context takes no flit for TMO µs and faults with reason 0xC0. -/
def execCtxTmoExpiry (c : CtxId) (s : State) :
    Host.Outcome State Fault Refusal :=
  coreDone (fun d => d.ctxTmo c.val) s

/-- SPILL_COMPLETE (R260): the memory-side die acknowledges the spill and the slot is freed. -/
def execSpillComplete (c : CtxId) (s : State) :
    Host.Outcome State Fault Refusal :=
  coreMem (fun m d => spillDone c.val m d) s

/-- RESTORE_COMPLETE (R260): a context's state is restored bit for bit into a slot and its waiting work resumes. -/
def execRestoreComplete (c : CtxId) (e : ReadErr) (s : State) :
    Host.Outcome State Fault Refusal :=
  coreMem (fun m d => restoreDone c.val e m d) s

/-- FABRIC_TIME_TICK (R244): fabric time advances by the core clock as slewed under R248. -/
def execFabricTimeTick (s : State) :
    Host.Outcome State Fault Refusal :=
  coreDone (fun d => d.timeTick) s

/-- TIME_EXCHANGE_TIMER (R247): every PERIOD × 100 µs each ACTIVE link end sends SYNC and ANNOUNCE. -/
def execTimeExchangeTimer (s : State) :
    Host.Outcome State Fault Refusal :=
  coreDone (fun d => d.timeExchange) s

/-- SYNC_RX (R247): a received SYNC is answered with SYNC_REPLY within 100 µs. -/
def execSyncRx (s : State) :
    Host.Outcome State Fault Refusal :=
  coreDone (fun d => d.syncRx) s

/-- SYNC_REPLY_RX (R247): a SYNC_REPLY gives fibre delay, offset and D_p, sets CORE_PEER, and steps or slews time.
-/
def execSyncReplyRx (s : State) :
    Host.Outcome State Fault Refusal :=
  coreDone (fun d => d.syncReplyRx) s

/-- ANNOUNCE_RX (R248): an ANNOUNCE updates the best master, upstream port and hop count. -/
def execAnnounceRx (s : State) :
    Host.Outcome State Fault Refusal :=
  coreDone (fun d => d.announceRx) s

/-- BARRIER_ARRIVE_RX (R252): an ARRIVE flit from a child advances a barrier toward GATHER, WAIT or RELEASING, or
fails it. -/
def execBarrierArriveRx (s : State) :
    Host.Outcome State Fault Refusal :=
  coreDone (fun d => d.barArriveRx) s

/-- BARRIER_RELEASE_RX (R252): a RELEASE on PARENT moves a waiting barrier to RELEASING and is forwarded to
children. -/
def execBarrierReleaseRx (s : State) :
    Host.Outcome State Fault Refusal :=
  coreMem (fun m d => barReleaseRxX m d) s

/-- BARRIER_RELEASE_TIME (R253): fabric time reaches Tr, local waiters are released and the epoch advances. -/
def execBarrierReleaseTime (b : BarId) (s : State) :
    Host.Outcome State Fault Refusal :=
  coreMem (fun m d => barTime b.val m d) s

/-- BARRIER_TIMEOUT (R252): a barrier in GATHER or WAIT reaches its timeout and enters FAILED with 0xCB. -/
def execBarrierTimeout (b : BarId) (s : State) :
    Host.Outcome State Fault Refusal :=
  coreDone (fun d => d.barTimeout b.val) s

end Sys2Proof.Machine
end

