-- ==== Sys2Proof/Machine/Engine.lean ====
section
/-! DEFINITION. What the four engines share (08: R316-R328, R358-R362, R659): a command's fields, its operand
accesses, and its start and end. A command's effect is made whole when its row is taken; its completion is
ENGINE_COMMAND_COMPLETE. -/

namespace Sys2Proof.Machine

/-! Command fields (R316) -/

def EngCmd.fld (x : EngCmd) (hi lo : Nat) : Nat := bitsOf x.raw.toNat hi lo
def EngCmd.code (x : EngCmd) : Nat := x.fld 255 248
def EngCmd.tag (x : EngCmd) : Nat := x.fld 235 220
def EngCmd.fence (x : EngCmd) : Bool := x.fld 219 219 == 1
def EngCmd.opa (x : EngCmd) : Nat := x.fld 95 64
def EngCmd.opb (x : EngCmd) : Nat := x.fld 63 32
def EngCmd.opc (x : EngCmd) : Nat := x.fld 31 0

/-! A command in execution -/

/-- What a command's accesses need: the logical and the physical tile, the engine, the command, its context,
partition and slot, and what its reads find. -/
structure EngX where
  i : Nat
  pt : Nat
  e : Nat
  cmd : EngCmd
  c : Nat
  part : Nat
  slot : Nat
  err : ReadErr
  deriving DecidableEq, Repr

/-- Memories and device as a command's work proceeds, and the check it has failed: reason and item (R321). -/
structure Io where
  m : Mem
  d : Dev
  fail : Option (Nat × Nat)
  deriving DecidableEq, Repr

/-- The engines' tile-address, tile-memory and HBM-address reasons (R362). -/
def tileAddrReason (e : Nat) : Nat := ([0x22, 0x42, 0x62, 0x82] : List Nat).getD e 0
def tileMemReason (e : Nat) : Nat := ([0x25, 0x48, 0x67, 0x85] : List Nat).getD e 0
def hbmReason (e : Nat) : Nat := if e = 1 then 0x43 else 0x63

/-- The command fails at an item; only the first failure counts. -/
def Io.failAt (x : Io) (reason item : Nat) : Io :=
  match x.fail with
  | some _ => x
  | none => { x with fail := some (reason, item) }

/-- Work for every element of a list in order, up to the first failure. -/
def Io.each {α : Type} (x : Io) (l : List α) (f : Io → α → Io) : Io :=
  l.foldl (fun x a => if x.fail.isSome then x else f x a) x

/-- The device changed, unless the command has failed. -/
def Io.dev (x : Io) (f : Dev → Dev) : Io := if x.fail.isSome then x else { x with d := f x.d }

/-- Is the tile-memory range from a of n bytes addressable by the command (R324, R325)? align is 32 unless the
command states otherwise. -/
def EngX.okTile (q : EngX) (a n : Nat) (write : Bool) (align : Nat := 32) : Bool :=
  a % align == 0 &&
    (if 0x200000 ≤ a then decide (a < 0x400000) && decide (a + n ≤ 0x400000)
     else !write && a / 0x8000 == q.slot && decide (a + n ≤ 0x8000 * (q.slot + 1)))

/-- The start checks of a command: the reason of the first that is broken. -/
def firstBad : List (Bool × Nat) → Option Nat
  | [] => none
  | (b, r) :: l => if b then some r else firstBad l

/-- The start check of a tile-memory range; none is made for HBM (R328). -/
def EngX.addr (q : EngX) (space a n : Nat) (write : Bool) (align : Nat := 32) : Bool × Nat :=
  (space == 0 && !(q.okTile a n write align), tileAddrReason q.e)

/-- The offset from a of the first unit with an uncorrectable error in n bytes of tile memory (R327). -/
def EngX.badUnit (q : EngX) (a n : Nat) : Option Nat :=
  (q.err.tileBad.filter fun u => n ≠ 0 && decide (a / 32 ≤ u / 32) && decide (u / 32 ≤ (a + n - 1) / 32)).foldl
    (fun b u => some (min (u / 32 * 32 - a) (b.getD 0x400000))) none

/-- n bytes of tile memory read (R327). An error fails the command at an item: that named, or for an array of things of
sz bytes the first one in the failing unit (log entry 115). -/
def Io.rdTile (x : Io) (q : EngX) (a n item : Nat) (sz : Nat := 0) : Io × List (BitVec 8) :=
  if x.fail.isSome then (x, [])
  else match q.badUnit a n with
    | some u => (x.failAt (tileMemReason q.e) (item + u / sz), [])
    | none => (x, x.m.tileRead q.pt a n)

/-- The start check of a table that the checks after it read (R321, R327). -/
def EngX.table (q : EngX) (a n : Nat) : Bool × Nat := ((q.badUnit a n).isSome, tileMemReason q.e)

/-- Bytes written to tile memory. -/
def Io.wrTile (x : Io) (q : EngX) (a : Nat) (bs : List (BitVec 8)) : Io :=
  if x.fail.isSome then x else { x with m := x.m.tileWrite q.pt a bs }

/-- The access check of one granule (R328, R451; an unreachable die: R19). The access is an internal transfer: it holds no
cell, so nothing pushes it out or meters it (R454). -/
def Io.reach (x : Io) (q : EngX) (g item : Nat) (rd wr : Bool) : Io :=
  if x.fail.isSome then x
  else if decide (g < hbmEnd) && x.d.d2dFailed (gDie g) then x.failAt 0xE4 item
  else if x.d.mayReach g q.part rd wr then x
  else x.failAt (hbmReason q.e) item

/-- One granule read (R328, R460). -/
def Io.rdGran (x : Io) (q : EngX) (g item : Nat) : Io × List (BitVec 8) :=
  let x := x.reach q g item true false
  if x.fail.isSome then (x, [])
  else if x.d.hbmFails g then
    (({ x with d := x.d.memError g (some q.part) 1 q.pt }).failAt 0xD4 item, [])
  else (x, x.m.hbmRead (256 * g) 256)

/-- Bytes written into one granule; 256 of them replace it whole (R459). -/
def Io.wrGran (x : Io) (q : EngX) (g ofs item : Nat) (bs : List (BitVec 8)) : Io :=
  let x := x.reach q g item false true
  if x.fail.isSome then x
  else { x with
    m := x.m.hbmWrite (256 * g + ofs) bs
    d := if bs.length = 256 then x.d.hbmWhole g else x.d }

/-- The granules, one after another, of an access of n bytes. -/
def granules (g n : Nat) : List Nat := (List.range (ceilDiv n 256)).map fun k => g + k

/-- n bytes read at an address: bytes of tile memory, or granules of HBM. -/
def Io.rd (x : Io) (q : EngX) (space a n item : Nat) : Io × List (BitVec 8) :=
  if space = 0 then x.rdTile q a n item
  else
    let (x, bs) := (granules a n).foldl (fun (acc : Io × List (BitVec 8)) g =>
      let (x, b) := acc.1.rdGran q g item
      (x, acc.2 ++ b)) (x, [])
    (x, bs.take n)

/-- Bytes written at an address; in HBM the last granule is filled with zeros. -/
def Io.wr (x : Io) (q : EngX) (space a item : Nat) (bs : List (BitVec 8)) : Io :=
  if space = 0 then x.wrTile q a bs
  else
    let n := ceilDiv bs.length 256
    (List.range n).foldl (fun x k => x.wrGran q (a + k) 0 item (padTo 256 ((bs.drop (256 * k)).take 256))) x

/-- at of R339: an address a byte offset beyond a base. -/
def atOfs (space base ofs : Nat) : Nat := if space = 0 then base + ofs else base + ofs / 256

/-- Flags of one position (R381-R383). Built-in commands carry TAG and CODE 0 (R387). -/
def Io.flags (x : Io) (q : EngX) (out elem fl : Nat) : Io :=
  x.dev fun d => d.raise q.c (if q.e = 0 then 0 else 1) fl out elem (if q.cmd.builtin then 0 else q.cmd.tag)
    (if q.cmd.builtin then 0 else q.cmd.code) q.cmd.builtin (2 ^ 100)

/-- A counter of the tile raised. -/
def Io.count (x : Io) (q : EngX) (r : RegName) (n : Nat := 1) (sub : Nat := 0) : Io :=
  x.dev fun d => d.countN r q.i sub n

/-- The operation item of a SUM command is checked before its result is written (R599, R600): a mismatch fails
the command. Shadowing finds one in a shadowed command only. -/
def Io.selfCheck (x : Io) (q : EngX) (item : Nat) : Io :=
  match q.err.sc with
  | none => x
  | some s =>
    let n := (x.d.tile q.pt).sumStarts
    let on := if s.shadow then x.d.bit F.FLT_SC_CFG_SHADOW_EN && !(x.d.shadowOff q.i) &&
        n % 2 ^ x.d.fd F.FLT_SC_CFG_SHADOW_K == 0
      else x.d.bit F.FLT_SC_CFG_RES_EN
    if on && s.item = item then x.failAt (if s.shadow then 0x28 else 0x26) item else x

/-! Start and end (R318, R320, R321, R358) -/

/-- Has every command that the same run pushed before m completed (R318)? -/
def TileSt.fenceOk (t : TileSt) (m : EngCmd) : Bool :=
  !m.fence ||
    (!(t.q.any fun e => e.2.any fun y => y.ctx = m.ctx && y.builtin = m.builtin && decide (y.serial < m.serial)) &&
      !(m.builtin && t.built.any fun e => e.2.ctx = m.ctx && decide (e.2.serial < m.serial)) &&
      !(t.busy.any fun e => match e.2 with
        | some y => y.ctx = m.ctx && y.builtin = m.builtin && !y.dead && decide (y.serial < m.serial)
        | none => false))

/-- The head of engine e's queue on tile i leaves it, and a built-in push that waits takes the free entry
(R289). -/
def Dev.popCmd (d : Dev) (pt e : Nat) : Dev :=
  d.updTile pt fun t => TileSt.letIn { t with q := tblPut [] e ((tblGet [] t.q e).drop 1) t.q }

/-- What Loupe records of an engine command (R611). -/
def Dev.loupeCmd (d : Dev) (i kind e : Nat) (x : EngCmd) (reason : Nat := 0) : Dev :=
  d.loupe { tile := i, kind := kind, eng := e, builtin := x.builtin, tag := x.tag, ctx := x.ctx, pc := x.pc,
            code := x.code, reason := reason }

/-- A command's failure captured (R358), its context faulted (R321), and a self-check failure noted (R602). -/
def Dev.engFault (d : Dev) (q : EngX) (reason item : Nat) : Dev :=
  let d := d.loupeCmd q.i 3 q.e q.cmd reason
  let d := match q.err.sc with
    | some s =>
      if reason = 0x26 || reason = 0x28 then
        d.scFail { check := if s.shadow then 2 else 0, tile := q.pt, lane := some (s.lane % 256), ctx := some q.c, tag := q.cmd.tag,
                   temp := s.temp.toNat, rail := s.rail.toNat, pattern := s.pattern.toNat }
      else d
    | none => d
  let d := d.heatFlag F.TILE_ENG_FAULT_VALID q.i 0 1
  let d := if d.bit F.TILE_ENG_FAULT_VALID q.i then d
    else (d.setRawF .TILE_ENG_FAULT 0 q.i 0
      (reason <<< 56 ||| q.cmd.tag <<< 40 ||| q.c <<< 28 ||| (if q.cmd.builtin then 0 else q.cmd.pc) <<< 16 |||
        1 <<< 15 ||| b2n q.cmd.builtin <<< 14 ||| q.e <<< 12 ||| q.cmd.code <<< 4)).setRawF
          .TILE_ENG_FAULT_ITEM 0 q.i 0 item
  d.ctxFault q.c reason

/-- The command at the head of engine e's queue on tile i, when the engine sees it and it may start (R278, R318). -/
def Dev.headCmd (d : Dev) (i e : Nat) : Option EngCmd :=
  let t := d.tile (d.phys i)
  match tblGet [] t.q e with
  | [] => none
  | m :: _ => if (tblGet none t.busy e).isSome || m.unseen ≠ 0 || !(t.fenceOk m) then none else some m

/-- What a command's accesses need, from the state. -/
def Dev.engX (d : Dev) (i e : Nat) (m : EngCmd) (err : ReadErr) : EngX :=
  { i := i, pt := d.phys i, e := e, cmd := m, c := m.ctx, part := (d.ctx m.ctx).part
    slot := (d.ctx m.ctx).slot.getD 64, err := err }

/-- The domain engine e of tile i needs beside the tile's own (R518). -/
def engDom (i e : Nat) : Nat := if e = 3 then siftDom i else i

/-- An engine's row: the head of engine e's queue on tile i starts when it is a command the row names, is
checked, and does its work. checks: its start checks in order; work: its action. A command that fails does
nothing more, and the engine may start its next. A command waits while its domain is not ON, and fails when the
domain has FAILED (R520, R522). -/
def engRow (i e : Nat) (names : EngCmd → Mem → Nat → Bool) (err : ReadErr) (checks : EngX → Io → List (Bool × Nat))
    (work : EngX → Io → Io) (m : Mem) (d : Dev) : Mem × Dev :=
  match d.headCmd i e with
  | none => (m, d)
  | some x =>
    if names x m (d.phys i) && d.domFailed (engDom i e) then
      (m, (d.popCmd (d.phys i) e).engFault (d.engX i e x err) 0xE0 0)
    else if names x m (d.phys i) && d.domOn (engDom i e) then
      let q := d.engX i e x err
      let d := if e = 0 then d.updTile q.pt fun t => { t with sumStarts := t.sumStarts + 1 } else d
      let d := (((d.loupeCmd i 1 e x).popCmd q.pt e).noteHbm err).countN .TILE_MEM_CORR_CNT i 0 err.tileCorr
      let io : Io := { m := m, d := d, fail := none }
      let io := match firstBad (checks q io) with
        | some r => io.failAt r 0
        | none => work q io
      match io.fail with
      | some (r, item) => (io.m, io.d.engFault q r item)
      | none => (io.m, io.d.updTile q.pt fun t => { t with busy := tblPut none e (some x) t.busy })
    else (m, d)

/-- The counter of an engine's completed commands (R361). -/
def cmdCounter (e : Nat) : RegName :=
  match e with
  | 0 => .SUM_CMD_CNT
  | 1 => .MOVE_CMD_CNT
  | 2 => .SORT_CMD_CNT
  | _ => .SIFT_CMD_CNT

/-- ENGINE_COMMAND_COMPLETE (R320): every flit the command sent holds a cell; the engine is free, and group
memory that waited for the command is written (R292). -/
def engComplete (i e : Nat) (m : Mem) (d : Dev) : Mem × Dev :=
  let pt := d.phys i
  match tblGet none (d.tile pt).busy e with
  | none => (m, d)
  | some x =>
    if (tblGet [] d.core.srcQ (256 + i)).any fun f => f.cmd = x.serial + 1 && f.cell.isNone then (m, d)
    else
      let d := ((d.updTile pt fun t => { t with 
          busy := tblPut none e none t.busy
          fresh := if x.builtin || x.dead then t.fresh else t.fresh ++ [(e, x.ctx)] }).count (cmdCounter e) i).loupeCmd
        i 2 e x
      groupWriteAll i m d

/-- A row that takes commands by CODE. -/
def byCode (codes : List Nat) (x : EngCmd) (_ : Mem) (_ : Nat) : Bool := codes.contains x.code

/-- The row of an engine's reserved codes: the command fails with the engine's reason (R362). -/
def engReserved (i e reason known : Nat) (err : ReadErr) : Mem → Dev → Mem × Dev :=
  engRow i e (fun x _ _ => x.code = 0 || decide (known < x.code)) err (fun _ _ => [(true, reason)]) (fun _ io => io)

end Sys2Proof.Machine
end

