-- ==== Sys2Proof/Machine/Move.lean ====
section
/-! DEFINITION. The MOVE engine (08: R336-R343; 10: R396-R402). -/

namespace Sys2Proof.Machine

/-! Fields (R336) -/

def mvSsp (x : EngCmd) : Nat := x.fld 215 215
def mvDsp (x : EngCmd) : Nat := x.fld 214 214
def mvOob (x : EngCmd) : Nat := x.fld 213 212
def mvEsz (x : EngCmd) : Nat := x.fld 211 208
def mvBase (x : EngCmd) : Nat := x.fld 207 176
def mvLimit (x : EngCmd) : Nat := x.fld 175 144
def mvType (x : EngCmd) : Nat := x.fld 143 140
def mvExp (x : EngCmd) : Nat := x.fld 139 139
def mvDst (x : EngCmd) : Nat := x.fld 138 123
def mvCtxo (x : EngCmd) : Nat := x.fld 122 111
def mvFmt (x : EngCmd) : Nat := x.fld 110 106
def mvEnc (x : EngCmd) : Nat := x.fld 105 104
def mvRowf (x : EngCmd) : Nat := x.fld 103 96

/-- The reserved bits of R316. -/
def mvRes (x : EngCmd) : Nat := x.fld 218 216

/-- Does either space lie in HBM? -/
def mvHbm (x : EngCmd) : Bool := mvSsp x == 1 || mvDsp x == 1

/-! COPY (R338) -/

def copyChecks (q : EngX) (_ : Io) : List (Bool × Nat) :=
  let x := q.cmd
  let u := if mvHbm x then 256 else 32
  let n := if mvSsp x = 1 then x.opc / 256 else x.opc
  [(mvRes x ||| x.fld 213 96 ≠ 0, 0x41),
   (x.opc = 0 || x.opc % u ≠ 0, 0x45),
   (mvSsp x = mvDsp x && x.opa ≠ x.opb && decide (x.opa < x.opb + n) && decide (x.opb < x.opa + n), 0x47),
   q.addr (mvSsp x) x.opa x.opc false,
   q.addr (mvDsp x) x.opb x.opc true]

def copyWork (q : EngX) (io : Io) : Io :=
  let x := q.cmd
  io.each (List.range (ceilDiv x.opc 256)) fun io k =>
    let (io, bs) := io.rd q (mvSsp x) (atOfs (mvSsp x) x.opa (256 * k)) (min 256 (x.opc - 256 * k)) k
    io.wr q (mvDsp x) (atOfs (mvDsp x) x.opb (256 * k)) k bs

/-! GATHER and SCATTER (R339) -/

def indexChecks (src dst : EngCmd → Nat) (q : EngX) (_ : Io) : List (Bool × Nat) :=
  let x := q.cmd
  [(mvRes x ||| x.fld 143 96 ≠ 0 || mvOob x = 3 || decide (5 < mvEsz x) || (mvHbm x && decide (mvEsz x < 3)), 0x41),
   q.addr 0 x.opa (4 * x.opc) false,
   (mvSsp x = 0 && src x % 32 ≠ 0 || mvDsp x = 0 && dst x % 32 ≠ 0, 0x42)]

/-- An element's address checked before its access: tile memory here, HBM at the access. -/
def Io.elem (io : Io) (q : EngX) (space a n : Nat) (write : Bool) (item : Nat) : Io :=
  if space = 0 && !(q.okTile a n write) then io.failAt 0x42 item else io

/-- One element copied. -/
def Io.moveElem (io : Io) (q : EngX) (ss sa ds da n item : Nat) : Io :=
  let io := (io.elem q ss sa n false item).elem q ds da n true item
  let (io, bs) := io.rd q ss sa n item
  io.wr q ds da item bs

def gatherWork (q : EngX) (io : Io) : Io :=
  let x := q.cmd
  let n := 32 <<< mvEsz x
  io.each (List.range x.opc) fun io k =>
    let (io, bs) := io.rdTile q (x.opa + 4 * k) 4 k
    let idx := ofLe bs
    let dst := atOfs (mvDsp x) x.opb (k * n)
    if io.fail.isSome then io
    else if mvLimit x ≤ idx then
      if mvOob x = 0 then io.failAt 0x44 k
      else
        let io := io.count q .MOVE_OOB_CNT
        if mvOob x = 1 then
          (io.elem q (mvDsp x) dst n true k).wr q (mvDsp x) dst k (List.replicate n 0)
        else io
    else io.moveElem q (mvSsp x) (atOfs (mvSsp x) (mvBase x) (idx * n)) (mvDsp x) dst n k

def scatterWork (q : EngX) (io : Io) : Io :=
  let x := q.cmd
  let n := 32 <<< mvEsz x
  io.each (List.range x.opc) fun io k =>
    let (io, bs) := io.rdTile q (x.opa + 4 * k) 4 k
    let idx := ofLe bs
    if io.fail.isSome then io
    else if mvLimit x ≤ idx then
      if mvOob x = 0 then io.failAt 0x44 k else io.count q .MOVE_OOB_CNT
    else io.moveElem q (mvSsp x) (atOfs (mvSsp x) x.opb (k * n)) (mvDsp x)
      (atOfs (mvDsp x) (mvBase x) (idx * n)) n k

/-! SEND and DISPATCH (R340-R343) -/

/-- A combination that R341 refuses with 0x46. -/
def badSend (x : EngCmd) : Bool :=
  mvType x == 0 || decide (3 < mvType x) || (mvExp x == 1 && mvType x != 1) || decide (0xA < mvFmt x) ||
    (mvEnc x != 0 && (mvFmt x == 0 || mvFmt x == 0xA))

/-- The virtual lane of a flit sent (R95, R340). -/
def sendVl (x : EngCmd) : Nat :=
  match mvType x with
  | 1 => if mvExp x = 1 then 2 else 7
  | 2 => 3
  | _ => 4

/-- One flit sent (R340): form, OFS and payload; rank is that of a contribution. -/
def Io.send (io : Io) (q : EngX) (dst rank : Nat) (f : EncFlit) : Io :=
  io.dev fun d =>
    let x := q.cmd
    let t := mvType x
    let g : Flit := { Flit.idle with
      type := BitVec.ofNat 4 t, vl := BitVec.ofNat 3 (sendVl x), exp := mvExp x == 1
      dst := BitVec.ofNat 16 dst, src := BitVec.ofNat 16 d.selfId, part := BitVec.ofNat 4 q.part
      tag := BitVec.ofNat 16 x.tag, ofs := BitVec.ofNat 32 f.ofs, fmt := BitVec.ofNat 5 (mvFmt x)
      form := BitVec.ofNat 2 f.form, payload := f.payload }
    let (g, d) := if t = 1 then d.numberFlit (srcTile q.i) g
      else ({ g with
        ctx := BitVec.ofNat 12 (mvCtxo x), mseq := BitVec.ofNat 16 (d.ctx q.c).e
        rank := if t = 2 then BitVec.ofNat 16 rank else 0 }, d)
    let d := if f.form < 3 then d.count .TILE_SPARSE_TX_CNT q.i f.form else d
    d.srcPush (srcTile q.i) g (x.serial + 1)

/-- Does the stream go through the encoder (R336, R398)? -/
def encodes (x : EngCmd) : Bool := (mvEnc x == 1 || mvEnc x == 2) && sparseB (mvFmt x) != 0

/-- The flits an encoder can decide from the segments read, of a stream that ends at stop, and the fallbacks counted. -/
def decided (fmt enc stop : Nat) : Nat → Nat → List (List Nat) → List EncFlit × Nat
  | 0, _, _ => ([], 0)
  | fuel + 1, pos, segs =>
    if encReady fmt enc pos stop segs then
      let (f, n, fb) := encodeOne fmt enc pos segs
      let (rest, k) := decided fmt enc stop fuel (pos + n) (segs.drop n)
      (f :: rest, k + b2n fb)
    else ([], 0)

/-- The flits of a stream of n payloads of which the first ps could be read. -/
def streamOf (x : EngCmd) (n : Nat) (ps : List Payload) : List EncFlit × Nat :=
  let fmt := mvFmt x
  if encodes x then
    let segs := (ps.map fun p => (List.range (segsPer fmt)).map (denseSeg fmt p)).flatten
    decided fmt (mvEnc x) (n * segsPer fmt) (segs.length + 1) 0 segs
  else (ps.zipIdx.map fun p => { form := if fmt = 0 then 3 else 0, ofs := p.2, payload := p.1 }, 0)

/-- Payloads read one after another, up to the first that cannot be; item names the item of each. -/
def Io.payloads (io : Io) (q : EngX) (space a n : Nat) (item : Nat → Nat) : Io × List Payload :=
  (List.range n).foldl (fun (acc : Io × List Payload) k =>
    let (io, bs) := acc.1.rd q space (atOfs space a (256 * k)) 256 (item k)
    if io.fail.isSome then (io, acc.2) else (io, acc.2 ++ [payloadOf bs])) (io, [])

/-- A stream sent: what was read of it leaves even when a later payload cannot be read (R340). -/
def Io.sendStream (io : Io) (q : EngX) (dst rank space a n first : Nat) (item : Nat → Nat) : Io :=
  if io.fail.isSome then io
  else
    let (io, ps) := io.payloads q space a n item
    let (fs, fb) := streamOf q.cmd n ps
    let io' := ({ io with fail := none }).count q .TILE_P4F_FALLBACK_CNT fb
    let io' := fs.foldl (fun io f => io.send q dst rank { f with ofs := first + f.ofs }) io'
    { io' with fail := io.fail }

def sendChecks (q : EngX) (_ : Io) : List (Bool × Nat) :=
  let x := q.cmd
  [(mvRes x ||| x.fld 214 208 ||| mvBase x ||| mvRowf x ||| mvLimit x >>> 16 ≠ 0 || mvEnc x = 3, 0x41),
   (badSend x, 0x46),
   (x.opc = 0, 0x45),
   q.addr (mvSsp x) x.opa (256 * x.opc) false]

def sendWork (q : EngX) (io : Io) : Io :=
  let x := q.cmd
  io.sendStream q (mvDst x) (mvLimit x % 65536) (mvSsp x) x.opa x.opc x.opb id

/-- DISPATCH (R343). -/
def dispatchChecks (q : EngX) (_ : Io) : List (Bool × Nat) :=
  let x := q.cmd
  [(mvRes x ||| x.fld 214 214 ||| mvEsz x ||| mvDst x ||| mvCtxo x ≠ 0 || mvOob x = 3 || mvEnc x = 3, 0x41),
   (badSend x || mvType x ≠ 1, 0x46),
   (x.opc = 0 || mvRowf x = 0, 0x45),
   q.addr 0 x.opa (16 * x.opc) false 16,
   (mvBase x % 2 ≠ 0, 0x42)]

def dispatchWork (q : EngX) (io : Io) : Io :=
  let x := q.cmd
  let ss := mvSsp x
  io.each (List.range x.opc) fun io r =>
    let (io, rec) := io.rdTile q (x.opa + 16 * r) 16 r
    let m := leAt rec 0 4
    let first := leAt rec 8 4 * mvRowf x
    if io.fail.isSome then io
    else if mvLimit x ≤ m then
      if mvOob x = 0 then io.failAt 0x44 r else io.count q .MOVE_OOB_CNT
    else if !(q.okTile (mvBase x + 2 * m) 2 false 2) then io.failAt 0x42 r
    else
      let (io, ep) := io.rdTile q (mvBase x + 2 * m) 2 r
      let src := atOfs ss x.opb (256 * first)
      if ss = 0 && !(q.okTile src (256 * mvRowf x) false) then io.failAt 0x42 r
      else io.sendStream q (ofLe ep) 0 ss src (mvRowf x) first fun _ => r

/-! ENCODE and DECODE (R400-R402) -/

/-- An FMT that stored streams do not take (R401). -/
def badStream (x : EngCmd) : Bool := mvFmt x == 0 || decide (0xA ≤ mvFmt x)

/-- Bytes of a stored stream of r records in tile memory (R400). -/
def streamBytes (r : Nat) : Nat := 32 + 288 * r

def encodeChecks (q : EngX) (_ : Io) : List (Bool × Nat) :=
  let x := q.cmd
  [(mvRes x ||| x.fld 213 111 ||| mvRowf x ≠ 0 || mvEnc x = 3, 0x41),
   (badStream x, 0xA0),
   q.addr (mvSsp x) x.opa (256 * x.opc) false,
   q.addr (mvDsp x) x.opb (streamBytes (x.opc * segsPer (mvFmt x))) true]

/-- The header of record r, and the places of its header and payload (R400). -/
def recHead (f : EncFlit) : List (BitVec 8) := padTo 32 (leBytes 4 f.form ++ leBytes 4 f.ofs)
def recAt (space a r : Nat) : Nat := if space = 0 then a + 32 + 288 * r else a + 1 + 2 * r
def recPayAt (space a r : Nat) : Nat := if space = 0 then a + 64 + 288 * r else a + 2 + 2 * r

def encodeWork (q : EngX) (io : Io) : Io :=
  let x := q.cmd
  let ds := mvDsp x
  let (io, ps) := io.payloads q (mvSsp x) x.opa x.opc id
  let (fs, fb) := encodeStream (mvFmt x) (mvEnc x) ps
  let io := io.count q .TILE_P4F_FALLBACK_CNT fb
  let io := io.wr q ds x.opb 0 (padTo 32 (leBytes 4 fs.length ++ leBytes 4 x.opc))
  io.each fs.zipIdx fun io f =>
    (io.wr q ds (recAt ds x.opb f.2) f.2 (recHead f.1)).wr q ds (recPayAt ds x.opb f.2) f.2 (payloadBytes f.1.payload)

def decodeChecks (q : EngX) (_ : Io) : List (Bool × Nat) :=
  let x := q.cmd
  [(mvRes x ||| x.fld 213 111 ||| mvEnc x ||| mvRowf x ≠ 0, 0x41),
   (badStream x, 0xA0),
   q.addr (mvSsp x) x.opa 32 false,
   q.addr (mvDsp x) x.opb (256 * x.opc) true]

/-- The checks of one record, in order (R402): the reason, 0 when all pass. -/
def recBad (fmt opc : Nat) (head : List (BitVec 8)) (p : Payload) (seen : Nat → Bool) : Nat :=
  let form := byteAt head 0
  let ofs := leAt head 4 4
  if decide (2 < form) || leAt head 1 3 ≠ 0 || leAt head 8 24 ≠ 0 then 0xA7
  else
    let r := if form = 0 then 0 else (checkSparse fmt form p ofs (opc * epf fmt)).1
    if r ≠ 0 then r
    else if form = 0 && decide (opc ≤ ofs) then 0xA4
    else
      let (s, n) := flitSpan fmt form ofs p
      if (List.range n).any fun k => seen (s + k) then 0xA7 else 0

/-- The segments of a record's payload (R392-R394). -/
def recSegs (fmt form : Nat) (p : Payload) : List (List Nat) :=
  if form = 0 then (List.range (segsPer fmt)).map (denseSeg fmt p) else spSegs fmt form p

/-- DECODE's action: the records are read and checked in order, then every dense payload is written. An MX
payload is kept whole, since its formats travel dense only (R398). -/
def decodeWork (q : EngX) (io : Io) : Io :=
  let x := q.cmd
  let fmt := mvFmt x
  let d := segsPer fmt
  let ss := mvSsp x
  let (io, h) := io.rd q ss x.opa 32 0xFFFFFFFF
  let n := leAt h 0 4
  if io.fail.isSome then io
  else if leAt h 4 4 ≠ x.opc || decide (x.opc * d < n) then io.failAt 0xA7 0xFFFFFFFF
  else
    let (io, segs, dense) := (List.range n).foldl
      (fun (a : Io × Tbl (List Nat) × Tbl Payload) r =>
        let io := if ss = 0 && !(q.okTile (recAt ss x.opa r) 288 false) then a.1.failAt 0x42 r else a.1
        let (io, head) := io.rd q ss (recAt ss x.opa r) 32 r
        let (io, bs) := io.rd q ss (recPayAt ss x.opa r) 256 r
        let p := payloadOf bs
        let form := byteAt head 0
        if io.fail.isSome then (io, a.2)
        else
          let why := recBad fmt x.opc head p fun s => a.2.1.any fun e => e.1 = s
          if why ≠ 0 then (io.failAt why r, a.2)
          else
            let (s, k) := flitSpan fmt form (leAt head 4 4) p
            let new := (List.range k).zip (recSegs fmt form p)
            (io, new.foldl (fun t e => tblInsert (s + e.1) e.2 t) a.2.1,
              if isMx fmt then tblInsert (leAt head 4 4) p a.2.2 else a.2.2)) (io, [], [])
    let io := if io.fail.isNone && segs.length ≠ x.opc * d then io.failAt 0xA7 n else io
    io.each (List.range x.opc) fun io o =>
      let p : Payload := if isMx fmt then tblGet 0 dense o
        else BitVec.ofNat 2048 (segBits (sparseB fmt) ((List.range d).map fun s => tblGet [] segs (o * d + s)).flatten)
      io.wr q (mvDsp x) (atOfs (mvDsp x) x.opb (256 * o)) o (payloadBytes p)

/-- MOVE's rows. -/
def moveCopy (i : Nat) (err : ReadErr) : Mem → Dev → Mem × Dev := engRow i 1 (byCode [1]) err copyChecks copyWork
def moveGather (i : Nat) (err : ReadErr) : Mem → Dev → Mem × Dev := engRow i 1 (byCode [2]) err (indexChecks mvBase EngCmd.opb) gatherWork
def moveScatter (i : Nat) (err : ReadErr) : Mem → Dev → Mem × Dev := engRow i 1 (byCode [3]) err (indexChecks EngCmd.opb mvBase) scatterWork
def moveSend (i : Nat) (err : ReadErr) : Mem → Dev → Mem × Dev := engRow i 1 (byCode [4]) err sendChecks sendWork
def moveDispatch (i : Nat) (err : ReadErr) : Mem → Dev → Mem × Dev :=
  engRow i 1 (byCode [5]) err dispatchChecks dispatchWork
def moveEncode (i : Nat) (err : ReadErr) : Mem → Dev → Mem × Dev := engRow i 1 (byCode [6]) err encodeChecks encodeWork
def moveDecode (i : Nat) (err : ReadErr) : Mem → Dev → Mem × Dev := engRow i 1 (byCode [7]) err decodeChecks decodeWork
def moveReserved (i : Nat) (err : ReadErr) : Mem → Dev → Mem × Dev := engReserved i 1 0x40 7 err

end Sys2Proof.Machine
end

