-- ==== Sys2Proof/Machine/Sift.lean ====
section
/-! DEFINITION. The SIFT engine (08: R351-R357) and the Lens predictor (10: R413-R422). -/

namespace Sys2Proof.Machine

/-! Fields (R351) -/

def siWfmt (x : EngCmd) : Nat := x.fld 215 211
def siXfmt (x : EngCmd) : Nat := x.fld 210 206
def siM (x : EngCmd) : Nat := x.fld 205 190
def siKb (x : EngCmd) : Nat := x.fld 189 174
def siT (x : EngCmd) : Nat := x.fld 173 166
def siOutp (x : EngCmd) : Nat := x.fld 165 165
def siKsel (x : EngCmd) : Nat := x.fld 164 158
def siThr (x : EngCmd) : BitVec 32 := x.raw.extractLsb' 126 32

/-- The reserved bits of R316 and R351. -/
def siRes (x : EngCmd) : Nat := x.fld 218 216 ||| x.fld 125 96

/-- kb blocks of an MX row at an address, expanded, with the flags of each element (R353). -/
def Io.mxRow (io : Io) (q : EngX) (fmt kb a item : Nat) : Io × List (Elem × Nat) :=
  (List.range (ceilDiv kb (bpf fmt))).foldl (fun (acc : Io × List (Elem × Nat)) f =>
    let (io, bs) := acc.1.rdTile q (a + 256 * f) 256 item
    let p := payloadOf bs
    (io, acc.2 ++ (List.range (32 * min (bpf fmt) (kb - f * bpf fmt))).map (expandElem fmt p))) (io, [])

/-- Bytes of n rows of kb blocks. -/
def rowsBytes (fmt kb n : Nat) : Nat := 256 * n * ceilDiv kb (bpf fmt)

/-- The order of scores: is a at least b, with -0 equal to +0 (R355)? Neither is a NaN. -/
def geScore (a b : BitVec 32) : Bool :=
  (isZero a && isZero b) || decide (f32Key b ≤ f32Key a)

/-! SCORE (R353, R357) -/

def scoreChecks (q : EngX) (_ : Io) : List (Bool × Nat) :=
  let x := q.cmd
  let w := if siOutp x = 1 then 8 else 4
  [(siRes x ||| siKsel x ||| (siThr x).toNat ≠ 0, 0x81),
   (!(isMx (siWfmt x) && isMx (siXfmt x)), 0x83),
   (siM x = 0 || siKb x = 0 || siT x = 0, 0x84),
   q.addr 0 x.opa (rowsBytes (siWfmt x) (siKb x) (siM x)) false,
   q.addr 0 x.opb (rowsBytes (siXfmt x) (siKb x) (siT x)) false,
   q.addr 0 x.opc (w * siT x * siM x) true]

def scoreWork (q : EngX) (io : Io) : Io :=
  let x := q.cmd
  io.each (List.range (siT x * siM x)) fun io o =>
    let (io, ws) := io.mxRow q (siWfmt x) (siKb x) (x.opa + rowsBytes (siWfmt x) (siKb x) (o % siM x)) o
    let (io, xs) := io.mxRow q (siXfmt x) (siKb x) (x.opb + rowsBytes (siXfmt x) (siKb x) (o / siM x)) o
    let (r, fl) := dot ws xs
    let io := io.each fl.zipIdx fun io f => io.flags q o f.2 f.1
    if siOutp x = 1 then io.wrTile q (x.opc + 8 * o) (leBytes 4 r.1.toNat ++ leBytes 4 r.2.toNat)
    else io.wrTile q (x.opc + 4 * o) (leBytes 4 r.1.toNat)

/-! TOPK (R354) -/

def topkChecks (q : EngX) (_ : Io) : List (Bool × Nat) :=
  let x := q.cmd
  [(siRes x ||| siWfmt x ||| siXfmt x ||| siKb x ||| siT x ||| siOutp x ||| (siThr x).toNat ≠ 0, 0x81),
   (siM x = 0 || siKsel x = 0 || decide (64 < siKsel x) || decide (siM x < siKsel x) || x.opc = 0, 0x84),
   q.addr 0 x.opa (4 * siM x * x.opc) false,
   q.addr 0 x.opb (16 * siKsel x * x.opc) true]

/-- Does score a with the greater index come before b in the order of R354? -/
def scoreBefore (a b : BitVec 32) : Bool :=
  if isNan a then false else if isNan b then true else !(geScore b a)

/-- A score and its index put in order. -/
def scoreInsert (s : BitVec 32 × Nat) : List (BitVec 32 × Nat) → List (BitVec 32 × Nat)
  | [] => [s]
  | x :: l => if scoreBefore s.1 x.1 then s :: x :: l else x :: scoreInsert s l

/-- n binary32 scores at an address. -/
def Io.scores (io : Io) (q : EngX) (a n item : Nat) : Io × List (BitVec 32) :=
  let (io, bs) := io.rdTile q a (4 * n) item 4
  (io, if io.fail.isSome then [] else (List.range n).map fun k => BitVec.ofNat 32 (leAt bs (4 * k) 4))

def topkWork (q : EngX) (io : Io) : Io :=
  let x := q.cmd
  let k := siKsel x
  io.each (List.range x.opc) fun io t =>
    let (io, ss) := io.scores q (x.opa + 4 * siM x * t) (siM x) (t * siM x)
    let io := io.count q .SIFT_NAN_CNT (ss.countP isNan)
    let best := (ss.zipIdx.foldl (fun l s => scoreInsert s l) []).take k
    io.wrTile q (x.opb + 16 * t * k) (best.zipIdx.map fun s =>
      leBytes 4 s.1.2 ++ leBytes 4 s.1.1.toNat ++ leBytes 4 t ++ leBytes 2 0 ++ leBytes 2 (t * k + s.2)).flatten

/-! THRESH (R355) -/

def threshChecks (q : EngX) (_ : Io) : List (Bool × Nat) :=
  let x := q.cmd
  [(siRes x ||| siWfmt x ||| siXfmt x ||| siKb x ||| siT x ||| siOutp x ||| siKsel x ||| x.opc ≠ 0 ||
      isNan (siThr x), 0x81),
   (siM x = 0, 0x84),
   q.addr 0 x.opa (4 * siM x) false,
   q.addr 0 x.opb 32 true]

/-- The indices of scores that pass a threshold. -/
def passing (thr : BitVec 32) (ss : List (BitVec 32)) : List Nat :=
  (ss.zipIdx.filter fun s => !(isNan s.1) && geScore s.1 thr).map fun s => s.2

def threshWork (q : EngX) (io : Io) : Io :=
  let x := q.cmd
  let (io, ss) := io.scores q x.opa (siM x) 0
  let io := io.count q .SIFT_NAN_CNT (ss.countP isNan)
  let ok := passing (siThr x) ss
  if !(q.okTile x.opb (32 + 4 * ok.length) true) then io.failAt 0x82 0
  else io.wrTile q x.opb (padTo 32 (leBytes 4 ok.length) ++ (ok.map (leBytes 4)).flatten)

/-! NZMAP (R356) -/

/-- An element format other than RAW and the pair. -/
def elemFmt (f : Nat) : Bool := decide (1 ≤ f) && decide (f ≤ 9)

/-- The width of an element in bits. -/
def elemWidth (f : Nat) : Nat :=
  match f with
  | 1 | 9 => 32 | 2 | 3 => 16 | 4 | 5 => 8 | 6 | 7 => 6 | _ => 4

/-- Is element e of a payload non-zero (R356)? -/
def elemNonzero (f : Nat) (p : Payload) (e : Nat) : Bool :=
  (isMx f && plByte p (e / 32) == 0xFF) ||
    (if f = 9 then elemBits f p e else elemBits f p e % 2 ^ (elemWidth f - 1)) != 0

def nzmapChecks (q : EngX) (_ : Io) : List (Bool × Nat) :=
  let x := q.cmd
  [(siRes x ||| siWfmt x ||| siM x ||| siKb x ||| siT x ||| siOutp x ||| siKsel x ||| (siThr x).toNat ≠ 0, 0x81),
   (!(elemFmt (siXfmt x)), 0x83),
   (x.opc = 0, 0x84),
   q.addr 0 x.opa (256 * x.opc) false,
   q.addr 0 x.opb (64 * x.opc) true]

def nzmapWork (q : EngX) (io : Io) : Io :=
  let x := q.cmd
  io.each (List.range x.opc) fun io f =>
    let (io, bs) := io.rdTile q (x.opa + 256 * f) 256 f
    let p := payloadOf bs
    let m := (List.range (epf (siXfmt x))).foldl (fun a e =>
      if elemNonzero (siXfmt x) p e then a + 2 ^ e else a) 0
    io.wrTile q (x.opb + 64 * f) (leBytes 64 m)

/-! LENS (R413-R422) -/

/-- The mode byte of a LENS command's descriptor (R414). -/
def lensMode (x : EngCmd) (m : Mem) (pt : Nat) : Nat := (m.tileByte pt (x.opa + 16)).toNat

/-- Is the Lens descriptor invalid (R414, reason 0x90)? -/
def lensDescBad (bs : List (BitVec 8)) : Bool :=
  decide (1 < byteAt bs 16) || decide (15 < byteAt bs 17) || decide (15 < byteAt bs 18) || leAt bs 19 45 ≠ 0

/-- The bytes of a mask record of ns slices (R417). -/
def maskBytes (ns : Nat) : Nat := 32 + 32 * ceilDiv ns 256

/-- The start checks of both modes (R321, R413-R419, R426). The mode decides which fields are used, so the
descriptor's own address is checked first (log entry 32). -/
def lensChecks (q : EngX) (io : Io) : List (Bool × Nat) :=
  let x := q.cmd
  let bs := io.m.tileRead q.pt x.opa 64
  let check := byteAt bs 16 == 1
  let m := siM x
  let ns := m / 32
  let u := if check then siWfmt x ||| siKb x ||| siKsel x ||| (siThr x).toNat ||| x.opc else 0
  [q.addr 0 x.opa 64 false,
   q.table x.opa 64,
   (siRes x ||| siOutp x ||| u ≠ 0, 0x81),
   (lensDescBad bs, 0x90),
   (!check && isNan (siThr x), 0x93),
   (if check then !(elemFmt (siXfmt x)) else !(isMx (siWfmt x) && isMx (siXfmt x)), 0x92),
   (m = 0 || m % 32 ≠ 0, 0x91),
   (siT x = 0 || (!check && (siKb x = 0 || siKsel x = 0 || decide (64 < siKsel x))), 0x84)] ++
  (if check then
     [q.addr 0 (leAt bs 12 4) (maskBytes ns) false,
      q.addr 0 x.opb (256 * siT x * ceilDiv m (epf (siXfmt x))) false]
   else
     let r := 32 * siKsel x
     [q.addr 0 (leAt bs 0 4) (rowsBytes (siWfmt x) (siKb x) r) false,
      q.addr 0 (leAt bs 4 4) (rowsBytes (siWfmt x) (siKsel x) m) false,
      q.addr 0 (leAt bs 8 4) (rowsBytes (siXfmt x) (siKsel x) (siT x)) true,
      q.addr 0 (leAt bs 12 4) (maskBytes ns) true,
      q.addr 0 x.opb (rowsBytes (siXfmt x) (siKb x) (siT x)) false,
      q.addr 0 x.opc (16 * ns) true])

/-- Step 1 of a token (R415): h = V x, rounded to binary32; va is VADDR. -/
def Io.lensH (io : Io) (q : EngX) (va t : Nat) : Io × List Elem :=
  let x := q.cmd
  let kb := siKb x
  let r := 32 * siKsel x
  (List.range r).foldl (fun (b : Io × List Elem) j =>
    let o := t * r + j
    let (io, xs) := b.1.mxRow q (siXfmt x) kb (x.opb + rowsBytes (siXfmt x) kb t) o
    let (io, vs) := io.mxRow q (siWfmt x) kb (va + rowsBytes (siWfmt x) kb j) o
    let (h, fl) := dot vs xs
    (io.each fl.zipIdx fun io f => io.flags q o f.2 f.1, b.2 ++ [(h.1, 0)])) (io, [])

/-- Step 2 of a token (R415): h re-quantised, flit by flit; blocks beyond KSEL in the last flit are zero. ha is HADDR. -/
def Io.lensQuant (io : Io) (q : EngX) (ha t : Nat) (hs : List Elem) : Io :=
  let x := q.cmd
  let xf := siXfmt x
  let n := epf xf
  let nf := ceilDiv (siKsel x) (bpf xf)
  io.each (List.range nf) fun io f =>
    let es := (hs.drop (n * f)).take n
    let (p, fl) := convFlit xf es fun _ => none
    let io := io.each (fl.take es.length).zipIdx fun io g =>
      io.flags q 0x7FFFFFFF (t * (32 * siKsel x) + n * f + g.2) g.1
    io.wrTile q (ha + 256 * (t * nf + f)) (payloadBytes p)

/-- Predict mode (R415-R418), token after token. -/
def predictWork (q : EngX) (io : Io) : Io :=
  let x := q.cmd
  let wf := siWfmt x
  let xf := siXfmt x
  let ks := siKsel x
  let m := siM x
  let ns := m / 32
  let (io, ds) := io.rdTile q x.opa 64 0
  let (va, ua, ha, ma) := (leAt ds 0 4, leAt ds 4 4, leAt ds 8 4, leAt ds 12 4)
  let nf := ceilDiv ks (bpf xf)
  let (io, hit) := (List.range (siT x)).foldl (fun (a : Io × List Nat) t =>
    let (io, hs) := a.1.lensH q va t
    let io := io.lensQuant q ha t hs
    (List.range m).foldl (fun (b : Io × List Nat) j =>
      let o := t * m + j
      let (io, hx) := b.1.mxRow q xf ks (ha + 256 * nf * t) o
      let (io, us) := io.mxRow q wf ks (ua + rowsBytes wf ks j) o
      let (s, fl) := dot us hx
      let io := io.each fl.zipIdx fun io f => io.flags q (0x80000000 + o) f.2 f.1
      if isNan s.1 then (io.count q .SIFT_NAN_CNT, b.2)
      else (io, if geScore s.1 (siThr x) then b.2 ++ [j / 32] else b.2)) (io, a.2)) (io, [])
  let guard := byteAt ds 17
  let sel := (List.range ns).map fun k => hit.any fun h => decide (h ≤ k + guard) && decide (k ≤ h + guard)
  let aud := byteAt ds 18
  let e := (io.d.ctx q.c).e
  let audited := aud ≠ 0 && e % 2 ^ aud = 0
  let recs := (sel.zipIdx.map fun s =>
    leBytes 4 (if s.1 || audited then 0 else 0xFFFFFFFF) ++ leBytes 4 0 ++ leBytes 4 s.2 ++ leBytes 2 0 ++
      leBytes 2 s.2).flatten
  let mask := leBytes 2 e ++ leBytes 2 (1 + 2 * b2n audited) ++ leBytes 4 ns ++ leBytes 24 0 ++
    leBytes (maskBytes ns - 32) (sel.zipIdx.foldl (fun a s => if s.1 then a + 2 ^ s.2 else a) 0)
  let io := (io.wrTile q x.opc recs).wrTile q ma mask
  let io := (io.count q .SIFT_LENS_SLICE_CNT ns).count q .SIFT_LENS_SEL_CNT (sel.countP id)
  if audited then io.count q .SIFT_LENS_AUDIT_CNT else io

/-- Check mode (R419). -/
def checkWork (q : EngX) (io : Io) : Io :=
  let x := q.cmd
  let xf := siXfmt x
  let m := siM x
  let ns := m / 32
  let (io, ds) := io.rdTile q x.opa 64 0
  let (io, mk) := io.rdTile q (leAt ds 12 4) (maskBytes ns) 0
  if io.fail.isSome then io
  else if leAt mk 4 4 ≠ ns then io.failAt 0x94 0
  else if !(byteAt mk 2 % 4 = 3 && leAt mk 0 2 = (io.d.ctx q.c).e) then io
  else
    let nf := ceilDiv m (epf xf)
    let (io, act) := (List.range (siT x)).foldl (fun (a : Io × List Bool) t =>
      (List.range nf).foldl (fun (b : Io × List Bool) f =>
        let (io, bs) := b.1.rdTile q (x.opb + 256 * (t * nf + f)) 256 (t * nf + f)
        let p := payloadOf bs
        (io, b.2.zipIdx.map fun z =>
          z.1 || (decide (z.2 / epf xf = f) && elemNonzero xf p (z.2 % epf xf)))) a)
      (io, List.replicate m false)
    let miss := act.zipIdx.countP fun z => z.1 && !(bitAt (byteAt mk (32 + z.2 / 256)) (z.2 / 32 % 8))
    (io.count q .SIFT_LENS_CHECK_CNT (act.countP id)).count q .SIFT_LENS_MISS_CNT miss

/-- SIFT's rows. A LENS command is a check when its descriptor's MODE is 1, else a prediction. -/
def siftScore (i : Nat) (err : ReadErr) : Mem → Dev → Mem × Dev := engRow i 3 (byCode [1]) err scoreChecks scoreWork
def siftTopk (i : Nat) (err : ReadErr) : Mem → Dev → Mem × Dev := engRow i 3 (byCode [2]) err topkChecks topkWork
def siftThresh (i : Nat) (err : ReadErr) : Mem → Dev → Mem × Dev := engRow i 3 (byCode [3]) err threshChecks threshWork
def siftNzmap (i : Nat) (err : ReadErr) : Mem → Dev → Mem × Dev := engRow i 3 (byCode [4]) err nzmapChecks nzmapWork
def lensPredict (i : Nat) (err : ReadErr) : Mem → Dev → Mem × Dev :=
  engRow i 3 (fun x m pt => x.code = 5 && lensMode x m pt ≠ 1) err lensChecks predictWork
def lensCheck (i : Nat) (err : ReadErr) : Mem → Dev → Mem × Dev :=
  engRow i 3 (fun x m pt => x.code = 5 && lensMode x m pt = 1) err lensChecks checkWork
def siftReserved (i : Nat) (err : ReadErr) : Mem → Dev → Mem × Dev := engReserved i 3 0x80 5 err

end Sys2Proof.Machine
end

