-- ==== Sys2Proof/Machine/Sort.lean ====
section
/-! DEFINITION. The SORT engine (08: R344-R350). -/

namespace Sys2Proof.Machine

def soKtype (x : EngCmd) : Nat := x.fld 215 213
def soDesc (x : EngCmd) : Bool := x.fld 212 212 == 1

/-- A record (R344): its 16 bytes. -/
abbrev Rec := List (BitVec 8)

/-- sort_key of R346. -/
def sortKey (ktype : Nat) (r : Rec) : Nat :=
  let w := if ktype ≤ 2 then 32 else 64
  let k := leAt r 0 (w / 8)
  let top := 2 ^ (w - 1)
  if ktype = 1 || ktype = 4 then k ^^^ top
  else if ktype = 2 then (if top ≤ k then 0xFFFFFFFF - k else k + top)
  else k

/-- Does a come strictly before b by key, RANK and SEQ (R346)? Positions break what is left. -/
def recBefore (ktype : Nat) (desc : Bool) (a b : Rec) : Bool :=
  let ka := sortKey ktype a
  let kb := sortKey ktype b
  if ka ≠ kb then (if desc then decide (kb < ka) else decide (ka < kb))
  else
    let ra := leAt a 12 2
    let rb := leAt b 12 2
    if ra ≠ rb then decide (ra < rb) else decide (leAt a 14 2 < leAt b 14 2)

/-- A record put into a sorted list, after those it does not precede. -/
def recInsert (ktype : Nat) (desc : Bool) (r : Rec) : List Rec → List Rec
  | [] => [r]
  | x :: l => if recBefore ktype desc r x then r :: x :: l else x :: recInsert ktype desc r l

/-- Records in the order of R346, the input index breaking ties. -/
def recSort (ktype : Nat) (desc : Bool) (l : List Rec) : List Rec :=
  l.foldl (fun acc r => recInsert ktype desc r acc) []

/-- The records of an array in memory order. -/
def recsOf (n : Nat) (bs : List (BitVec 8)) : List Rec := (List.range n).map fun k => (bs.drop (16 * k)).take 16

/-- The reserved fields of R316 and R345. -/
def sortRes (x : EngCmd) : Bool := x.fld 218 216 ||| x.fld 211 96 != 0 || decide (4 < soKtype x)

/-! SORT (R347, R348) -/

def sortChecks (q : EngX) (_ : Io) : List (Bool × Nat) :=
  let x := q.cmd
  let n := 16 * x.opc
  [(sortRes x, 0x61),
   (x.opc = 0 || decide (65536 < x.opc), 0x64),
   q.addr 0 x.opa n false 16,
   q.addr 0 x.opb n true 16,
   (x.opa ≠ x.opb && decide (x.opa < x.opb + n) && decide (x.opb < x.opa + n), 0x66)]

def sortWork (q : EngX) (io : Io) : Io :=
  let x := q.cmd
  let (io, bs) := io.rdTile q x.opa (16 * x.opc) 0 16
  io.wrTile q x.opb (recSort (soKtype x) (soDesc x) (recsOf x.opc bs)).flatten

/-! MERGE (R347, R349, R350) -/

/-- A run of the run table: first granule, records, the index of the record that waits for output, that record
and its predecessor, none before the first. -/
structure MRun where
  g : Nat
  n : Nat
  pos : Nat
  head : Rec
  prev : Option Rec
  deriving DecidableEq, Repr

/-- The runs named by the run table (R349). -/
def runsOf (n : Nat) (bs : List (BitVec 8)) : List MRun :=
  (List.range n).map fun k =>
    { g := leAt bs (16 * k) 4, n := leAt bs (16 * k + 4) 4, pos := 0, head := [], prev := none }

def mergeChecks (q : EngX) (io : Io) : List (Bool × Nat) :=
  let x := q.cmd
  let rs := runsOf x.opc (io.m.tileRead q.pt x.opa (16 * (min 64 x.opc)))
  let total := (rs.map fun r => r.n).sum
  let out := ceilDiv total 16
  [(sortRes x, 0x61),
   (decide (x.opc < 2) || decide (64 < x.opc), 0x64),
   q.addr 0 x.opa (16 * x.opc) false 16,
   q.table x.opa (16 * x.opc),
   (decide (m32 ≤ total), 0x64),
   (rs.any fun r => r.n ≠ 0 && out ≠ 0 && decide (r.g < x.opb + out) && decide (x.opb < r.g + ceilDiv r.n 16), 0x66)]

/-- The record at a run's position read; a granule is accessed when its first record is (R328). item is the
next output position. -/
def Io.runHead (io : Io) (q : EngX) (item : Nat) (r : MRun) : Io × MRun :=
  if r.n ≤ r.pos then (io, { r with head := [] })
  else
    let (io, _) := if r.pos % 16 = 0 then io.rdGran q (r.g + r.pos / 16) item else (io, [])
    (io, { r with head := io.m.hbmRead (256 * r.g + 16 * r.pos) 16 })

/-- The run whose head comes first; ties go to the lower run (R346). -/
def pickRun (ktype : Nat) (desc : Bool) (rs : List MRun) : Option Nat :=
  (rs.zipIdx.filter fun r => decide (r.1.pos < r.1.n)).foldl (fun b r => match b with
    | none => some r
    | some y => if recBefore ktype desc r.1.head y.1.head then some r else b) none |>.map fun r => r.2

/-- Records are chosen one after another; fuel is the number left, k the next output position. -/
def mergeLoop (q : EngX) (ktype : Nat) (desc : Bool) (out : Nat) : Nat → Nat → List MRun → Io → Io
  | 0, k, _, io =>
    if io.fail.isSome || k % 16 = 0 then io
    else
      let g := out + k / 16
      (io.wrGran q g (16 * (k % 16)) k (List.replicate (256 - 16 * (k % 16)) 0)).dev fun d => d.hbmWhole g
  | fuel + 1, k, rs, io =>
    match pickRun ktype desc rs with
    | none => io
    | some j =>
      let r := rs.getD j { g := 0, n := 0, pos := 0, head := [], prev := none }
      let bad := match r.prev with
        | some p => recBefore ktype desc r.head p
        | none => false
      if bad then io.failAt 0x65 k
      else
        let g := out + k / 16
        let io := io.wrGran q g (16 * (k % 16)) k r.head
        let io := if k % 16 = 15 then io.dev fun d => d.hbmWhole g else io
        let (io, r) := io.runHead q (k + 1) { r with pos := r.pos + 1, prev := some r.head }
        if io.fail.isSome then io
        else mergeLoop q ktype desc out fuel (k + 1) (updAt rs j fun _ => r) io

def mergeWork (q : EngX) (io : Io) : Io :=
  let x := q.cmd
  let (io, tb) := io.rdTile q x.opa (16 * x.opc) 0
  let (io, rs) := (runsOf x.opc tb).foldl (fun (a : Io × List MRun) r =>
    let (io, r) := a.1.runHead q 0 r
    (io, a.2 ++ [r])) (io, [])
  if io.fail.isSome then io
  else mergeLoop q (soKtype x) (soDesc x) x.opb (rs.map fun r => r.n).sum 0 rs io

def sortSort (i : Nat) (err : ReadErr) : Mem → Dev → Mem × Dev := engRow i 2 (byCode [1]) err sortChecks sortWork
def sortMerge (i : Nat) (err : ReadErr) : Mem → Dev → Mem × Dev := engRow i 2 (byCode [2]) err mergeChecks mergeWork
def sortReserved (i : Nat) (err : ReadErr) : Mem → Dev → Mem × Dev := engReserved i 2 0x60 2 err

end Sys2Proof.Machine
end

