-- ==== Sys2Proof/Machine/Sum.lean ====
section
/-! DEFINITION. The SUM engine (08: R329-R335). -/

namespace Sys2Proof.Machine

/-! Fields (R329) -/

def sumOp (x : EngCmd) : Nat := x.fld 215 214
def sumIfmt (x : EngCmd) : Nat := x.fld 213 209
def sumOfmt (x : EngCmd) : Nat := x.fld 208 204
def sumNsrc (x : EngCmd) : Nat := x.fld 203 197
def sumInit (x : EngCmd) : Bool := x.fld 196 196 == 1
def sumRound (x : EngCmd) : Nat := x.fld 195 194

/-- Is the format of an accumulator array accepted: the pair or INT32 (R330)? -/
def accFmt (f : Nat) : Bool := f == 0xA || f == 9

/-- n accumulator elements in memory order, as operands (R330, R371). -/
def accsOf (fmt n : Nat) (bs : List (BitVec 8)) : List Elem :=
  (List.range n).map fun k =>
    let hi := BitVec.ofNat 32 (leAt bs (8 * k) 4)
    let lo := BitVec.ofNat 32 (leAt bs (8 * k + 4) 4)
    if fmt = 9 then (hi, 0) else normPair (hi, lo)

/-- The bytes of accumulator elements. -/
def accBytes (es : List Elem) : List (BitVec 8) :=
  (es.map fun e => leBytes 4 e.1.toNat ++ leBytes 4 e.2.toNat).flatten

/-- The reserved bits of R316 and R329, and formats that name no FMT code. -/
def sumRes (x : EngCmd) : Nat := x.fld 218 216 ||| x.fld 193 96

/-- FOLD (R330, R331). -/
def foldChecks (q : EngX) (_ : Io) : List (Bool × Nat) :=
  let x := q.cmd
  let n := epf (sumIfmt x)
  [(sumRes x ||| sumOfmt x ||| sumRound x ≠ 0 || decide (0xA < sumIfmt x), 0x21),
   (!(opAccepts (sumOp x) (sumIfmt x)), 0x23),
   (sumNsrc x = 0 || decide (64 < sumNsrc x), 0x24),
   q.addr 0 x.opa (256 * sumNsrc x) false,
   q.addr 0 (x.opc + x.opb * 8 * n) (8 * n) true]

/-- One source flit combined into the accumulator elements, with the flags of each (R331). -/
def foldInto (op fmt : Nat) (acc : List Elem) (p : Payload) : List (Elem × Nat) :=
  (acc.zip (expandFlit fmt p)).map fun ae =>
    let (r, fl) := combine op (fmt == 9) ae.1 ae.2.1
    (r, ae.2.2 ||| fl)

def foldWork (q : EngX) (io : Io) : Io :=
  let x := q.cmd
  let fmt := sumIfmt x
  let n := epf fmt
  let dst := x.opc + x.opb * 8 * n
  let (io, old) := if sumInit x then (io, []) else io.rdTile q dst (8 * n) 0 8
  let (io, acc) := (List.range (sumNsrc x)).foldl (fun (a : Io × List Elem) k =>
    let (io, bs) := a.1.rdTile q (x.opa + 256 * k) 256 k
    let p := payloadOf bs
    let rs := if sumInit x && k = 0 then expandFlit fmt p else foldInto (sumOp x) fmt a.2 p
    (io.each rs.zipIdx fun io e => io.flags q k e.2 e.1.2, rs.map (·.1))) (io, accsOf fmt n old)
  (io.selfCheck q 0).wrTile q dst (accBytes acc)

/-- FOLDP (R330, R331). -/
def foldpChecks (q : EngX) (_ : Io) : List (Bool × Nat) :=
  let x := q.cmd
  [(sumRes x ||| sumOfmt x ||| sumRound x ||| sumNsrc x ||| x.fld 196 196 ≠ 0 || decide (0xA < sumIfmt x), 0x21),
   (!(accFmt (sumIfmt x) && opAccepts (sumOp x) (sumIfmt x)), 0x23),
   (x.opb = 0 || decide (65536 < x.opb), 0x24),
   q.addr 0 x.opa (8 * x.opb) false,
   q.addr 0 x.opc (8 * x.opb) true]

def foldpWork (q : EngX) (io : Io) : Io :=
  let x := q.cmd
  let fmt := sumIfmt x
  io.each (List.range x.opb) fun io k =>
    let (io, s) := io.rdTile q (x.opa + 8 * k) 8 k
    let (io, t) := io.rdTile q (x.opc + 8 * k) 8 k
    let (r, fl) := combine (sumOp x) (fmt == 9) ((accsOf fmt 1 t).getD 0 (0, 0)) ((accsOf fmt 1 s).getD 0 (0, 0))
    ((io.selfCheck q k).flags q 0 k fl).wrTile q (x.opc + 8 * k) (accBytes [r])

/-- CONV (R330, R332, R378). -/
def convChecks (q : EngX) (_ : Io) : List (Bool × Nat) :=
  let x := q.cmd
  [(sumRes x ||| sumOp x ||| sumNsrc x ||| x.fld 196 196 ≠ 0 || decide (0xA < sumIfmt x) || decide (0xA < sumOfmt x) ||
      decide (1 < sumRound x), 0x21),
   (!(accFmt (sumIfmt x) && outColumn (sumIfmt x) (sumOfmt x)), 0x23),
   (x.opb = 0 || decide (65536 < x.opb) || (isMx (sumOfmt x) && x.opb % 32 ≠ 0), 0x24),
   q.addr 0 x.opa (8 * x.opb) false,
   q.addr 0 x.opc (256 * ceilDiv x.opb (epf (sumOfmt x))) true]

def convWork (q : EngX) (io : Io) : Io :=
  let x := q.cmd
  let fmt := sumOfmt x
  let n := epf fmt
  io.each (List.range (ceilDiv x.opb n)) fun io u =>
    let len := min n (x.opb - u * n)
    let (io, bs) := io.rdTile q (x.opa + 8 * u * n) (8 * len) u
    let y := io.d.ctx q.c
    let rs := fun j => if sumRound x = 1 then some (srBits y.desc.seed (y.e * m32 + y.srCnt + j)) else none
    let (p, fl) := convFlit fmt (accsOf (sumIfmt x) len bs) rs
    let io := io.selfCheck q u
    let io := if sumRound x = 1 then io.dev fun d => d.updCtx q.c fun y => { y with srCnt := y.srCnt + n } else io
    (io.each fl.zipIdx fun io f => io.flags q 0xFFFFFFFF (u * n + f.2) f.1).wrTile q (x.opc + 256 * u) (payloadBytes p)

/-- SUM_FOLD, SUM_FOLDP, SUM_CONV, SUM_RESERVED_CODE. -/
def sumFold (i : Nat) (err : ReadErr) : Mem → Dev → Mem × Dev := engRow i 0 (byCode [1]) err foldChecks foldWork
def sumFoldp (i : Nat) (err : ReadErr) : Mem → Dev → Mem × Dev := engRow i 0 (byCode [2]) err foldpChecks foldpWork
def sumConv (i : Nat) (err : ReadErr) : Mem → Dev → Mem × Dev := engRow i 0 (byCode [3]) err convChecks convWork
def sumReserved (i : Nat) (err : ReadErr) : Mem → Dev → Mem × Dev := engReserved i 0 0x20 3 err

end Sys2Proof.Machine
end

