-- ==== Sys2Proof/Machine/CmdEng.lean ====
section
/-! DEFINITION. The commands of the engines (08: R314-R363; 09: R388-R405; 10: R406-R423). -/

namespace Sys2Proof.Machine

/-- ENGINE_COMMAND_COMPLETE (R320): an engine command's writes are visible and its flits hold cells, and the next
queued command may start. -/
def execEngineCommandComplete (i : TileId) (e : Fin 4) (s : State) :
    Host.Outcome State Fault Refusal :=
  tileMem i.val (fun m d => engComplete i.val e.val m d) s

/-- SUM_FOLD (R331): FOLD combines NSRC flit payloads in ascending order into accumulator elements. -/
def execSumFold (i : TileId) (e : ReadErr) (s : State) :
    Host.Outcome State Fault Refusal :=
  tileMem i.val (fun m d => sumFold i.val e m d) s

/-- SUM_FOLDP (R331): FOLDP combines an accumulator array into another. -/
def execSumFoldp (i : TileId) (e : ReadErr) (s : State) :
    Host.Outcome State Fault Refusal :=
  tileMem i.val (fun m d => sumFoldp i.val e m d) s

/-- SUM_CONV (R332): CONV converts accumulator elements to the output format and writes flit payloads. -/
def execSumConv (i : TileId) (e : ReadErr) (s : State) :
    Host.Outcome State Fault Refusal :=
  tileMem i.val (fun m d => sumConv i.val e m d) s

/-- SUM_RESERVED_CODE (R362): a SUM command with a reserved CODE fails with reason 0x20. -/
def execSumReservedCode (i : TileId) (e : ReadErr) (s : State) :
    Host.Outcome State Fault Refusal :=
  tileMem i.val (fun m d => sumReserved i.val e m d) s

/-- MOVE_COPY (R338): COPY copies OPC bytes between tile memory and HBM. -/
def execMoveCopy (i : TileId) (e : ReadErr) (s : State) :
    Host.Outcome State Fault Refusal :=
  tileMem i.val (fun m d => moveCopy i.val e m d) s

/-- MOVE_GATHER (R339): GATHER copies indexed elements from BASE into a destination array. -/
def execMoveGather (i : TileId) (e : ReadErr) (s : State) :
    Host.Outcome State Fault Refusal :=
  tileMem i.val (fun m d => moveGather i.val e m d) s

/-- MOVE_SCATTER (R339): SCATTER copies source elements to indexed positions at BASE. -/
def execMoveScatter (i : TileId) (e : ReadErr) (s : State) :
    Host.Outcome State Fault Refusal :=
  tileMem i.val (fun m d => moveScatter i.val e m d) s

/-- MOVE_SEND (R340): SEND builds and sends OPC flits with the given header, progressively. -/
def execMoveSend (i : TileId) (e : ReadErr) (s : State) :
    Host.Outcome State Fault Refusal :=
  tileMem i.val (fun m d => moveSend i.val e m d) s

/-- MOVE_DISPATCH (R343): DISPATCH sends the rows named by sorted records to their experts' endpoints. -/
def execMoveDispatch (i : TileId) (e : ReadErr) (s : State) :
    Host.Outcome State Fault Refusal :=
  tileMem i.val (fun m d => moveDispatch i.val e m d) s

/-- MOVE_ENCODE (R400): ENCODE writes dense payloads as a stored stream of sparse-form records. -/
def execMoveEncode (i : TileId) (e : ReadErr) (s : State) :
    Host.Outcome State Fault Refusal :=
  tileMem i.val (fun m d => moveEncode i.val e m d) s

/-- MOVE_DECODE (R402): DECODE checks a stored stream and expands it into dense payloads. -/
def execMoveDecode (i : TileId) (e : ReadErr) (s : State) :
    Host.Outcome State Fault Refusal :=
  tileMem i.val (fun m d => moveDecode i.val e m d) s

/-- MOVE_RESERVED_CODE (R362): a MOVE command with a reserved CODE fails with reason 0x40. -/
def execMoveReservedCode (i : TileId) (e : ReadErr) (s : State) :
    Host.Outcome State Fault Refusal :=
  tileMem i.val (fun m d => moveReserved i.val e m d) s

/-- SORT_SORT (R347): SORT orders up to 65,536 records in tile memory by key, rank, sequence and position. -/
def execSortSort (i : TileId) (e : ReadErr) (s : State) :
    Host.Outcome State Fault Refusal :=
  tileMem i.val (fun m d => sortSort i.val e m d) s

/-- SORT_MERGE (R349): MERGE merges sorted runs into one run in HBM, checking run order. -/
def execSortMerge (i : TileId) (e : ReadErr) (s : State) :
    Host.Outcome State Fault Refusal :=
  tileMem i.val (fun m d => sortMerge i.val e m d) s

/-- SORT_RESERVED_CODE (R362): a SORT command with a reserved CODE fails with reason 0x60. -/
def execSortReservedCode (i : TileId) (e : ReadErr) (s : State) :
    Host.Outcome State Fault Refusal :=
  tileMem i.val (fun m d => sortReserved i.val e m d) s

/-- SIFT_SCORE (R353): SCORE computes MX dot products of weight rows and vectors into scores. -/
def execSiftScore (i : TileId) (e : ReadErr) (s : State) :
    Host.Outcome State Fault Refusal :=
  tileMem i.val (fun m d => siftScore i.val e m d) s

/-- SIFT_TOPK (R354): TOPK writes the KSEL best-scoring records of each row. -/
def execSiftTopk (i : TileId) (e : ReadErr) (s : State) :
    Host.Outcome State Fault Refusal :=
  tileMem i.val (fun m d => siftTopk i.val e m d) s

/-- SIFT_THRESH (R355): THRESH writes the count and indices of scores at or above THR. -/
def execSiftThresh (i : TileId) (e : ReadErr) (s : State) :
    Host.Outcome State Fault Refusal :=
  tileMem i.val (fun m d => siftThresh i.val e m d) s

/-- SIFT_NZMAP (R356): NZMAP writes a non-zero mask for each flit. -/
def execSiftNzmap (i : TileId) (e : ReadErr) (s : State) :
    Host.Outcome State Fault Refusal :=
  tileMem i.val (fun m d => siftNzmap i.val e m d) s

/-- LENS_PREDICT (R415): LENS in predict mode scores neurons by low rank and writes slice records and a mask record.
-/
def execLensPredict (i : TileId) (e : ReadErr) (s : State) :
    Host.Outcome State Fault Refusal :=
  tileMem i.val (fun m d => lensPredict i.val e m d) s

/-- LENS_CHECK (R419): LENS in check mode counts truly active neurons and those in unselected slices. -/
def execLensCheck (i : TileId) (e : ReadErr) (s : State) :
    Host.Outcome State Fault Refusal :=
  tileMem i.val (fun m d => lensCheck i.val e m d) s

/-- SIFT_RESERVED_CODE (R362): a SIFT command with a reserved CODE fails with reason 0x80. -/
def execSiftReservedCode (i : TileId) (e : ReadErr) (s : State) :
    Host.Outcome State Fault Refusal :=
  tileMem i.val (fun m d => siftReserved i.val e m d) s

end Sys2Proof.Machine
end

