-- ==== Sys2Proof/Machine/CmdFault.lean ====
section
/-! DEFINITION. The commands of the fault manager, snapshots, self-check, maintenance and Loupe (17: R581-R618). -/

namespace Sys2Proof.Machine

/-- HEARTBEAT (R583): every 10 ms the device sends a HEARTBEAT to the fault manager. -/
def execHeartbeat (s : State) :
    Host.Outcome State Fault Refusal :=
  coreDone (fun d => d.heartbeatDue) s

/-- FM_COMMAND_RX (R586): a COMMAND frame is accepted, answered with a copied ACK, or discarded and counted. -/
def execFmCommandRx (s : State) :
    Host.Outcome State Fault Refusal :=
  coreDone (fun d => d.fmRx) s

/-- FM_FENCE (R590): FENCE sets a port's fence level, flushing its queues and failing barriers. -/
def execFmFence (s : State) :
    Host.Outcome State Fault Refusal :=
  coreDone (fun d => d.fmFence) s

/-- FM_UNFENCE (R592): UNFENCE lifts a port's fence. -/
def execFmUnfence (s : State) :
    Host.Outcome State Fault Refusal :=
  coreDone (fun d => d.fmUnfence) s

/-- FM_ABORT_PART (R588): ABORT_PART faults every ARMED or OPEN context of a partition with 0xC9. -/
def execFmAbortPart (s : State) :
    Host.Outcome State Fault Refusal :=
  coreDone (fun d => d.fmAbort) s

/-- FM_RESET (R588): the fault manager's RESET sends the ACK and then starts a full warm reset. -/
def execFmReset (s : State) :
    Host.Outcome State Fault Refusal :=
  coreDone (fun d => d.fmResetCmd) s

/-- FM_QUERY (R588): QUERY sends one HEARTBEAT at once. -/
def execFmQuery (s : State) :
    Host.Outcome State Fault Refusal :=
  coreDone (fun d => d.fmQuery) s

/-- FM_XFER_START (R594): XFER_START arms STATE_XFER on the partner for a snapshot at the named barrier release. -/
def execFmXferStart (s : State) :
    Host.Outcome State Fault Refusal :=
  coreMem (fun m d => fmXferStart m d) s

/-- FM_RESERVED_OP (R588): a COMMAND with another OP or field out of range is refused with 0xFC. -/
def execFmReservedOp (s : State) :
    Host.Outcome State Fault Refusal :=
  coreDone (fun d => d.fmReserved) s

/-- FM_ACK_SEND (R587): once the command's journal record is durable, firmware sends its ACK. -/
def execFmAckSend (s : State) :
    Host.Outcome State Fault Refusal :=
  coreDone (fun d => d.fmAckSend) s

/-- STATE_CHUNK_SEND (R596): the partner sends the next STATE_CHUNK, at most four per µs. -/
def execStateChunkSend (s : State) :
    Host.Outcome State Fault Refusal :=
  coreDone (fun d => d.xferSend) s

/-- STATE_REQ_RX (R596): a STATE_REQ makes the partner resend from the named chunk. -/
def execStateReqRx (s : State) :
    Host.Outcome State Fault Refusal :=
  coreDone (fun d => d.xferReq) s

/-- STATE_CHUNK_RX (R596): a STATE_CHUNK is stored or discarded on mismatch of SRC, XFER_ID or ARM. -/
def execStateChunkRx (s : State) :
    Host.Outcome State Fault Refusal :=
  coreMem (fun m d => xferRx m d) s

/-- STATE_REQ_TIMEOUT (R596): 1 ms after a chunk with chunks missing, the new switch sends STATE_REQ. -/
def execStateReqTimeout (s : State) :
    Host.Outcome State Fault Refusal :=
  coreDone (fun d => d.xferAsk) s

/-- CANARY_TIMER (R601): every CANARY_MS each ON tile runs known-answer FOLD and SCORE, faulting its contexts on
mismatch. -/
def execCanaryTimer (fails : List CanaryFail) (s : State) :
    Host.Outcome State Fault Refusal :=
  coreDone (fun d => d.canary fails) s

/-- MAINT_SCRUB (R606): MAINT starts a SCRUB reading every granule of a die. -/
def execMaintScrub (fn : Fn) (r : RingNo) (s : State) :
    Host.Outcome State Fault Refusal :=
  hostDone (fun d => d.withNew fn.val r.val 0xF fun d x => if x.arg 28 1 = 0 && x.arg 29 1 = 1 then d.maintByDesc x else d) s

/-- MAINT_MARGIN (R607): MAINT starts a MARGIN scan of an engine's receive lanes. -/
def execMaintMargin (fn : Fn) (r : RingNo) (s : State) :
    Host.Outcome State Fault Refusal :=
  hostDone (fun d => d.withNew fn.val r.val 0xF fun d x => if x.arg 28 1 = 0 && x.arg 29 1 = 2 then d.maintByDesc x else d) s

/-- MAINT_SPARE_TEST (R606): MAINT starts the march test of an unused spare tile. -/
def execMaintSpareTest (fn : Fn) (r : RingNo) (s : State) :
    Host.Outcome State Fault Refusal :=
  hostDone (fun d => d.withNew fn.val r.val 0xF fun d x => if x.arg 28 1 = 0 && x.arg 29 1 = 3 then d.maintByDesc x else d) s

/-- MAINT_BCAST (R606): MAINT starts a broadcast of the image in force. -/
def execMaintBcast (fn : Fn) (r : RingNo) (s : State) :
    Host.Outcome State Fault Refusal :=
  hostDone (fun d => d.withNew fn.val r.val 0xF fun d x => if x.arg 28 1 = 0 && x.arg 29 1 = 4 then d.maintBcast x else d) s

/-- MAINT_CANCEL (R609): MAINT cancel stops an activity within 1 ms. -/
def execMaintCancel (fn : Fn) (r : RingNo) (s : State) :
    Host.Outcome State Fault Refusal :=
  hostDone (fun d => d.withNew fn.val r.val 0xF fun d x => if x.arg 28 1 = 1 then d.maintCancel x else d) s

/-- MARGIN_STEP (R607): after 100 µs at a margin step the corrected symbols are counted and the scan moves on. -/
def execMarginStep (n : MaintSlot) (corr : Nat) (bad : Bool) (s : State) :
    Host.Outcome State Fault Refusal :=
  hostDone (fun d => d.marginStep n.val corr bad) s

/-- MAINT_ACTIVITY_END (R605): a maintenance activity ends, frees its slot and posts a maintenance event. -/
def execMaintActivityEnd (n : MaintSlot) (ok : Bool) (e : ReadErr) (s : State) :
    Host.Outcome State Fault Refusal :=
  hostDone (fun d => d.maintDone n.val ok e) s

/-- MAINT_RETRY (R608): firmware retries its refused activity after 1 s. -/
def execMaintRetry (s : State) :
    Host.Outcome State Fault Refusal :=
  hostDone (fun d => d.maintRetry) s

/-- LOUPE_RECORD_WRITE (R612): loupe writes one queued trace record per cc to its ring, or drops it. -/
def execLoupeRecordWrite (s : State) :
    Host.Outcome State Fault Refusal :=
  coreMem (fun m d => loupeWrite m d) s

end Sys2Proof.Machine
end

