-- ==== Sys2Proof/Machine/CmdHost.lean ====
section
/-! DEFINITION. The commands of the host interface (13: R475-R516): kicks, passes, descriptors, completions, links,
ownership and scopes. -/

namespace Sys2Proof.Machine

/-- HOST_KICK (R488): a write to HOST_KICK sets the pending flag and starts a doorbell pass when none runs. -/
def execHostKick (fn : Fn) (_v : BitVec 32) (s : State) :
    Host.Outcome State Fault Refusal :=
  hostDone (fun d => d.hostKick fn.val) s

/-- DOORBELL_PASS (R488): a pass swaps SUMMARY, reads changed lines, checks indices and accepts descriptors. -/
def execDoorbellPass (fn : Fn) (summary : BitVec 64) (lines : List (BitVec 512)) (descs : List DescRead) (s : State) :
    Host.Outcome State Fault Refusal :=
  hostDone (fun d => d.doorbell fn.val summary lines descs) s

/-- POLL_TIMER (R491): while polling is on, the interval expires and a pass runs, the interval doubling when empty.
-/
def execPollTimer (fn : Fn) (summary : BitVec 64) (lines : List (BitVec 512)) (descs : List DescRead) (s : State) :
    Host.Outcome State Fault Refusal :=
  hostDone (fun d => d.pollTimer fn.val summary lines descs) s

/-- DESCRIPTOR_START (R484): an accepted descriptor starts after its predecessor or fence and is checked in the
order of R483. -/
def execDescriptorStart (fn : Fn) (r : RingNo) (buf : Option (List (BitVec 8))) (s : State) :
    Host.Outcome State Fault Refusal :=
  hostDone (fun d => d.descStart fn.val r.val buf) s

/-- NOP (R481): the NOP descriptor completes OK with no effect. -/
def execNop (fn : Fn) (r : RingNo) (s : State) :
    Host.Outcome State Fault Refusal :=
  hostDone (fun d => d.withNew fn.val r.val 0 fun d x => d.completeOk x 0) s

/-- TABLE_UPDATE (R173): the descriptor checks 1–64 table records whole and commits them or refuses with 0xF4 or
0xF5. -/
def execTableUpdate (fn : Fn) (r : RingNo) (s : State) :
    Host.Outcome State Fault Refusal :=
  hostDone (fun d => d.tableUpdate fn.val r.val) s

/-- RESERVED_OPCODE (R483): a descriptor with a reserved opcode completes REFUSED with 0xFC. -/
def execReservedOpcode (fn : Fn) (r : RingNo) (s : State) :
    Host.Outcome State Fault Refusal :=
  hostDone (fun d => d.reserved fn.val r.val) s

/-- QUIESCE (R508): the descriptor moves a scope to QUIESCING and starts its 10 ms timer. -/
def execQuiesce (fn : Fn) (r : RingNo) (s : State) :
    Host.Outcome State Fault Refusal :=
  hostDone (fun d => d.withNew fn.val r.val 0xA Dev.quiesce) s

/-- QUIESCE_DONE (R508): a QUIESCING scope finishes its work in hand and becomes QUIESCED. -/
def execQuiesceDone (n : Fin 16) (s : State) :
    Host.Outcome State Fault Refusal :=
  hostDone (fun d => d.quiesceDone n.val) s

/-- QUIESCE_TIMEOUT (R508): a scope not quiesced within 10 ms returns to ACTIVE with 0xFD. -/
def execQuiesceTimeout (n : Fin 16) (s : State) :
    Host.Outcome State Fault Refusal :=
  hostDone (fun d => d.quiesceTimeout n.val) s

/-- RESUME (R508): the descriptor applies or discards a quiesced scope's staged values and makes it ACTIVE. -/
def execResume (fn : Fn) (r : RingNo) (s : State) :
    Host.Outcome State Fault Refusal :=
  hostMem (fun m d => resumeScope fn.val r.val m d) s

/-- PROFILE_SET (R510): the descriptor selects a basic-level profile for one scope index. -/
def execProfileSet (fn : Fn) (r : RingNo) (s : State) :
    Host.Outcome State Fault Refusal :=
  hostDone (fun d => d.withNew fn.val r.val 0xC Dev.profileSet) s

/-- COMPLETION_WRITE (R493): a completion is written with its phase when the completion ring has room, else it
waits. -/
def execCompletionWrite (fn : Fn) (r : RingNo) (s : State) :
    Host.Outcome State Fault Refusal :=
  hostDone (fun d => d.complWrite fn.val r.val) s

/-- IRQ_COALESCE_TIMER (R494): COAL_T µs after the first pending completion the ring's MSI-X vector is signalled. -/
def execIrqCoalesceTimer (fn : Fn) (evt : Bool) (n : RingNo) (s : State) :
    Host.Outcome State Fault Refusal :=
  hostDone (fun d => d.irqTimer fn.val evt n.val) s

/-- STATUS_HEARTBEAT (R498): every 1 ms the ring engine increments HEARTBEAT in the status block. -/
def execStatusHeartbeat (s : State) :
    Host.Outcome State Fault Refusal :=
  hostDone (fun d => d.statusBeat) s

/-- PCIE_FLR (R500): an FLR of a function stops its rings and discards writes to its memory. -/
def execPcieFlr (fn : Fn) (on : Bool) (s : State) :
    Host.Outcome State Fault Refusal :=
  hostDone (fun d => d.flr fn.val on) s

/-- PCIE_LINK_DOWN (R500): a PCIe port's link goes down, with the effects of an FLR on its function. -/
def execPcieLinkDown (fn : Fn) (s : State) :
    Host.Outcome State Fault Refusal :=
  hostDone (fun d => d.linkDown fn.val) s

/-- PCIE_PERST (R646): PCIEh_PERST_N asserted takes port h's link down; its release starts training. -/
def execPciePerst (fn : Fn) (low : Bool) (s : State) :
    Host.Outcome State Fault Refusal :=
  done (fun d => d.perst fn.val low) s

/-- PCIE_LINK_UP (R647): PCIe port h finishes training and its configuration space answers, so function h is present
again. -/
def execPcieLinkUp (fn : Fn) (s : State) :
    Host.Outcome State Fault Refusal :=
  hostDone (fun d => d.linkUp fn.val) s

/-- CR_STOP_COMPLETE (R503): every accepted descriptor of a STOPPING ring completes and it becomes STOPPED or
DISABLED. -/
def execCrStopComplete (fn : Fn) (r : RingNo) (s : State) :
    Host.Outcome State Fault Refusal :=
  hostDone (fun d => d.ringSettle fn.val r.val) s

/-- OWN_OFFER_TIMEOUT (R505): an offer not accepted within 100 ms lapses and the offerer stays primary. -/
def execOwnOfferTimeout (s : State) :
    Host.Outcome State Fault Refusal :=
  hostDone (fun d => d.ownOfferEnd) s

/-- OWN_ORPHAN_TIMEOUT (R505): the primary's link stays down or in FLR for 1 s and the device becomes ORPHAN. -/
def execOwnOrphanTimeout (s : State) :
    Host.Outcome State Fault Refusal :=
  hostDone (fun d => d.ownOrphan) s

end Sys2Proof.Machine
end

