-- ==== Sys2Proof/Machine/CmdLink.lean ====
section
/-! DEFINITION. The commands of the link layer (03: R83-R126). -/

namespace Sys2Proof.Machine

/-- RX_SLOT (R101): a flit slot is received, decoded, checked for CRC, stomp and sequence, and its flit delivered or
discarded. -/
def execRxSlot (p : Port) (sig : Signal) (s : State) :
    Host.Outcome State Fault Refusal :=
  coreDone (fun d => d.rxSlot p.val sig) s

/-- TX_SLOT (R100): at each transmit boundary the port sends a flit or idle flit with the next LSEQ, LACK and
returned credits. -/
def execTxSlot (p : Port) (s : State) :
    Host.Outcome State Fault Refusal :=
  coreDone (fun d => d.txBoundary p.val) s

/-- ALIGNMENT_MARKER_RECEIVE (R90): a marker block is accepted or missed on a lane, declaring or losing alignment.
-/
def execAlignmentMarkerReceive (p : Port) (lane : Lane) (m : Nat × Block) (s : State) :
    Host.Outcome State Fault Refusal :=
  coreDone (fun d => d.markerRx p.val lane.val m.1 m.2) s

/-- NAK_RESEND_TIMEOUT (R102): a NAK outstanding for 2,048 slots is sent again. -/
def execNakResendTimeout (p : Port) (s : State) :
    Host.Outcome State Fault Refusal :=
  coreDone (fun d => d.nakResend p.val) s

/-- NAK_RX (R104): a NAK is received and the transmitter replays from the named sequence. -/
def execNakRx (p : Port) (seq : BitVec 12) (s : State) :
    Host.Outcome State Fault Refusal :=
  coreDone (fun d => d.nakRx p.val seq.toNat) s

/-- REPLAY_WINDOW_FULL (R105): with 2,048 flits unacknowledged, the transmitter replays from the oldest. -/
def execReplayWindowFull (p : Port) (s : State) :
    Host.Outcome State Fault Refusal :=
  coreDone (fun d => d.windowFull p.val) s

/-- REPLAY_NO_PROGRESS_LIMIT (R107): the sixteenth replay without progress acts as RETRAIN and posts reason 0xEF. -/
def execReplayNoProgressLimit (p : Port) (s : State) :
    Host.Outcome State Fault Refusal :=
  coreDone (fun d => d.replayLimit p.val) s

/-- STEER_REQ_RX (R115): a STEER_REQ from the receiver makes the transmitting end announce a lane move. -/
def execSteerReqRx (p : Port) (lane : Lane) (wave : Wave) (s : State) :
    Host.Outcome State Fault Refusal :=
  coreDone (fun d => d.steerReqRx p.val lane.val wave.val) s

/-- STEER_ANN_RX (R117): a STEER_ANN is received and acknowledged with its countdown to the switch boundary; in
LC or in spare idle blocks, it is the same (R116). -/
def execSteerAnnRx (p : Port) (_spare : Bool) (lane : Lane) (wave : Wave) (count : Nat) (s : State) :
    Host.Outcome State Fault Refusal :=
  coreDone (fun d => d.steerAnnRx p.val lane.val wave.val count) s

/-- STEER_ACK_RX (R115): a STEER_ACK confirms the announced steer. -/
def execSteerAckRx (p : Port) (lane : Lane) (wave : Wave) (s : State) :
    Host.Outcome State Fault Refusal :=
  coreDone (fun d => d.steerAckRx p.val lane.val wave.val) s

/-- STEER_SWITCH (R117): the countdown reaches the boundary and both ends switch the lane to the new wavelength. -/
def execSteerSwitch (p : Port) (rx : Bool) (s : State) :
    Host.Outcome State Fault Refusal :=
  coreDone (fun d => d.steerSwitch p.val rx) s

/-- RESTRIPE_RX (R118): a RESTRIPE operation makes the end enter RESTRIPE. -/
def execRestripeRx (p : Port) (s : State) :
    Host.Outcome State Fault Refusal :=
  coreDone (fun d => d.restripeRx p.val) s

/-- RESTRIPE_MARKER_RX (R118): a restripe marker is accepted, lowering the proposed width or counting toward
completion. -/
def execRestripeMarkerRx (p : Port) (wave : Wave) (blk : Block) (s : State) :
    Host.Outcome State Fault Refusal :=
  coreDone (fun d => d.restripeMarker p.val wave.val blk) s

/-- RESTRIPE_COMPLETE (R118): after 16 matching markers the end sends 16 more and resumes flits by replay; the port
enters DEGRADED. -/
def execRestripeComplete (p : Port) (s : State) :
    Host.Outcome State Fault Refusal :=
  coreDone (fun d => d.restripeComplete p.val) s

/-- RESTRIPE_TIMEOUT (R119): a restripe not complete within 200 µs acts as RETRAIN with reason 0xEF. -/
def execRestripeTimeout (p : Port) (s : State) :
    Host.Outcome State Fault Refusal :=
  coreDone (fun d => d.restripeTimeout p.val) s

/-- CUT_NOTICE_RX (R69): a cut notice is received, so a following LOS within 5 ms leads to PEER_CUT. -/
def execCutNoticeRx (p : Port) (s : State) :
    Host.Outcome State Fault Refusal :=
  coreDone (fun d => d.cutNoticeRx p.val) s

/-- RETRAIN_RX (R115): a RETRAIN operation from the peer starts a full training. -/
def execRetrainRx (p : Port) (s : State) :
    Host.Outcome State Fault Refusal :=
  coreDone (fun d => d.retrainRx p.val) s

/-- DOZE_REQ_RX (R125): a DOZE_REQ is answered with DOZE_ACK and the link enters DOZE. -/
def execDozeReqRx (p : Port) (s : State) :
    Host.Outcome State Fault Refusal :=
  coreDone (fun d => d.dozeReqRx p.val) s

/-- DOZE_ACK_RX (R125): a DOZE_ACK completes the exchange and the transmitter enters DOZE. -/
def execDozeAckRx (p : Port) (s : State) :
    Host.Outcome State Fault Refusal :=
  coreDone (fun d => d.dozeAckRx p.val) s

/-- DOZE_REQ_TIMEOUT (R115): a DOZE_REQ unacknowledged for 1 µs stops; after three tries an A3 entry aborts. -/
def execDozeReqTimeout (p : Port) (s : State) :
    Host.Outcome State Fault Refusal :=
  coreDone (fun d => d.dozeTimeout p.val) s

/-- LC_RESERVED_RX (R115): a slot with a reserved LC operation is counted and ignored. -/
def execLcReservedRx (p : Port) (s : State) :
    Host.Outcome State Fault Refusal :=
  coreDone (fun d => d.lcReserved p.val) s

/-- INIT_TIMEOUT (R124): a link that stays in INIT for 1 ms acts as RETRAIN with reason 0xEF. -/
def execInitTimeout (p : Port) (s : State) :
    Host.Outcome State Fault Refusal :=
  coreDone (fun d => d.initTimeout p.val) s

/-- WAKE_PATTERN_DETECT (R526): the wake pattern is detected on a dozing port, which wakes its engine and relocks.
-/
def execWakePatternDetect (p : Port) (s : State) :
    Host.Outcome State Fault Refusal :=
  hostDone (fun d => d.wakeDetect p.val) s

/-- DOZE_RELOCK_TIMEOUT (R124): relock after doze is not reached within 5 µs, and the port acts as RETRAIN. -/
def execDozeRelockTimeout (p : Port) (s : State) :
    Host.Outcome State Fault Refusal :=
  coreDone (fun d => d.dozeRelock p.val) s

/-- EXPRESS_B_DECODE (R112): codeword B and HCRC of a cut-through express flit settle it, stomping at egress and
NAKing if bad. -/
def execExpressBDecode (p : Port) (sig idle : Signal) (s : State) :
    Host.Outcome State Fault Refusal :=
  coreDone (fun d => d.expressB p.val sig idle) s

end Sys2Proof.Machine
end

