-- ==== Sys2Proof/Machine/CmdMem.lean ====
section
/-! DEFINITION. The commands of memory requests (08: R384; 12: R446-R462), pools (12: R463-R466), granules and the
window (13: R478, R481), and refresh (12: R457). -/

namespace Sys2Proof.Machine

/-- MEM_READ (R241): a READ memory request is checked and answered with the granule's 256 bytes. -/
def execMemRead (k : Die) (e : ReadErr) (s : State) :
    Host.Outcome State Fault Refusal :=
  coreMem (fun m d => memRow k.val [0] e m d) s

/-- MEM_WRITE (R241): a WRITE memory request is checked and writes the granule. -/
def execMemWrite (k : Die) (e : ReadErr) (s : State) :
    Host.Outcome State Fault Refusal :=
  coreMem (fun m d => memRow k.val [1] e m d) s

/-- MEM_ATOMIC_ADD (R384): an ATOMIC_ADD request adds its operands to the granule and returns the old contents. -/
def execMemAtomicAdd (k : Die) (e : ReadErr) (s : State) :
    Host.Outcome State Fault Refusal :=
  coreMem (fun m d => memRow k.val [2] e m d) s

/-- MEM_REDUCE (R384): a REDUCE request adds expanded operands into stored compensated pairs over its span. -/
def execMemReduce (k : Die) (e : ReadErr) (s : State) :
    Host.Outcome State Fault Refusal :=
  coreMem (fun m d => memRow k.val [3] e m d) s

/-- MEM_MCAST_READ (R241): an MCAST_READ request reads the granule once and sends it to endpoint G. -/
def execMemMcastRead (k : Die) (e : ReadErr) (s : State) :
    Host.Outcome State Fault Refusal :=
  coreMem (fun m d => memRow k.val [4] e m d) s

/-- MEM_RESERVED_OP (R452): a memory request with a reserved OP gets an error response with reason 0xCE. -/
def execMemReservedOp (k : Die) (e : ReadErr) (s : State) :
    Host.Outcome State Fault Refusal :=
  coreMem (fun m d => memRow k.val [5, 6, 7, 8, 9, 10, 11, 12, 13, 14, 15] e m d) s

/-- POOL_THREAD_COMPLETE (R463): threading of a pool finishes and it becomes READY. -/
def execPoolThreadComplete (k : Die) (p : Fin 5) (s : State) :
    Host.Outcome State Fault Refusal :=
  coreDone (fun d => d.poolThread k.val p.val) s

/-- POOL_ALLOC (R464): the descriptor takes the head buffer of the smallest fitting pool, zeroing it as needed. -/
def execPoolAlloc (fn : Fn) (r : RingNo) (e : ReadErr) (s : State) :
    Host.Outcome State Fault Refusal :=
  hostMem (fun m d => poolAllocDesc fn.val r.val e m d) s

/-- POOL_FREE (R465): the descriptor checks a buffer and links it back at the head of its pool. -/
def execPoolFree (fn : Fn) (r : RingNo) (s : State) :
    Host.Outcome State Fault Refusal :=
  hostMem (fun m d => poolFreeDesc fn.val r.val m d) s

/-- HBM_WRITE (R481): the descriptor writes a host buffer into HBM granules with WR rights. -/
def execHbmWrite (fn : Fn) (r : RingNo) (s : State) :
    Host.Outcome State Fault Refusal :=
  hostMem (fun m d => hbmWriteDesc fn.val r.val m d) s

/-- HBM_READ (R483): the descriptor reads HBM granules into a host buffer with RD rights. -/
def execHbmRead (fn : Fn) (r : RingNo) (e : ReadErr) (s : State) :
    Host.Outcome State Fault Refusal :=
  hostMem (fun m d => hbmReadDesc fn.val r.val e m d) s

/-- HBM_WINDOW_ACCESS (R478): a BAR4 access reaches HBM through the window or is refused. -/
def execHbmWindowAccess (fn : Fn) (x : Nat) (n : Nat) (wr : Option (List (BitVec 8))) (e : ReadErr) (s : State) :
    Host.Outcome State Fault Refusal :=
  hostMem (fun m d => windowAccess fn.val x n wr e m d) s

/-- HBM_REFRESH (R457): an HBM bank refresh starts or ends, holding and then releasing accesses that meet it. -/
def execHbmRefresh (k : Die) (bank : Nat) (start : Bool) (met : Nat) (s : State) :
    Host.Outcome State Fault Refusal :=
  hostDone (fun d => d.hbmRefresh k.val bank start met) s

end Sys2Proof.Machine
end

