-- ==== Sys2Proof/Machine/CmdOptics.lean ====
section
/-! DEFINITION. The commands of die-to-die links, optics and training (01: R17, R18; 02: R43-R78). -/

namespace Sys2Proof.Machine

/-- D2D_TRANSFER_RECEIVE (R17): a die-to-die link transfer arrives; a CRC failure makes the sender replay it. -/
def execD2dTransferReceive (n : D2dDir) (crcOk : Bool) (s : State) :
    Host.Outcome State Fault Refusal :=
  coreDone (fun d => d.d2dReceive n.link.val n.up crcOk) s

/-- D2D_ACK_TIMEOUT (R17): no acknowledgement arrives within 64 cc, and the sender replays the transfer. -/
def execD2dAckTimeout (n : D2dDir) (s : State) :
    Host.Outcome State Fault Refusal :=
  coreDone (fun d => d.d2dTimeout n.link.val n.up) s

/-- D2D_LINK_FAIL (R18): after 16 consecutive replays or 1 ms out of lock, the link enters the failed state. -/
def execD2dLinkFail (n : D2dNo) (unlocked : Bool) (s : State) :
    Host.Outcome State Fault Refusal :=
  coreDone (fun d => d.d2dFail n.val unlocked) s

/-- PHOTODIODE_SAMPLE (R43): every 10 µs the engine samples each monitor photodiode and marks a wavelength failed
after 50 µs below power. -/
def execPhotodiodeSample (e : Engine) (low : BitVec 20) (s : State) :
    Host.Outcome State Fault Refusal :=
  coreDone (fun d => d.photodiode e.val low.toNat) s

/-- ELS_POLL (R48): every 20 ms the device polls each laser module's CMIS flags and reacts to faults and cleared
faults. -/
def execElsPoll (k : Engine) (r : ElsFlags) (s : State) :
    Host.Outcome State Fault Refusal :=
  coreDone (fun d => d.elsPoll k.val r) s

/-- ELS_INTERRUPT (R48): a module asserts its interrupt line, and the device polls its CMIS flags at once. -/
def execElsInterrupt (k : Engine) (r : ElsFlags) (s : State) :
    Host.Outcome State Fault Refusal :=
  coreDone (fun d => d.elsPoll k.val r) s

/-- WAVELENGTH_FAIL (R52): a carried wavelength fails by photodiode, 1 µs loss of lock or excess pre-FEC errors, and
is steered or restriped. -/
def execWavelengthFail (p : Port) (rx : Bool) (i : Wave) (errs : Option Nat) (s : State) :
    Host.Outcome State Fault Refusal :=
  coreDone (fun d => d.waveLost p.val rx i.val errs) s

/-- STEER_ANN_TIMEOUT (R54): an unacknowledged steer announcement is repeated after 20 µs, and after three repeats
the port restripes. -/
def execSteerAnnTimeout (p : Port) (s : State) :
    Host.Outcome State Fault Refusal :=
  coreDone (fun d => d.steerAnnTimeout p.val) s

/-- LOS (R65): received power stays below −14 dBm for 100 µs, and the port goes to PEER_CUT or DARK with a laser
cut. -/
def execLos (p : Port) (s : State) :
    Host.Outcome State Fault Refusal :=
  coreDone (fun d => d.losEvent p.val) s

/-- LASER_CUT_COMPLETE (R67): the CMIS disable write completes and the cut bit of the laser fibre is set. -/
def execLaserCutComplete (m : Fibre) (s : State) :
    Host.Outcome State Fault Refusal :=
  coreDone (fun d => d.cutComplete m.val) s

/-- CUT_NOTICE_SEND_END (R69): a sibling stops sending the cut notice after 200 µs. -/
def execCutNoticeSendEnd (p : Port) (s : State) :
    Host.Outcome State Fault Refusal :=
  coreDone (fun d => d.noticeEnd p.val) s

/-- PROBE_WINDOW_START (R71): every 4 s after a cut, the device restores the laser fibre for a 20 ms probe window.
-/
def execProbeWindowStart (m : Fibre) (s : State) :
    Host.Outcome State Fault Refusal :=
  coreDone (fun d => d.probeStart m.val) s

/-- PROBE_WINDOW_END (R71): at the end of the probe window, the fibre stays on with its ports training, or is cut
again. -/
def execProbeWindowEnd (m : Fibre) (s : State) :
    Host.Outcome State Fault Refusal :=
  coreDone (fun d => d.probeEnd m.val) s

/-- LIGHT_DETECTED (R72): a DARK or PEER_CUT port receives 1 ms of light and enters TRAINING, restoring a cut fibre.
-/
def execLightDetected (p : Port) (s : State) :
    Host.Outcome State Fault Refusal :=
  coreDone (fun d => d.lightDetected p.val) s

/-- LASER_FIBRE_RESTORED (R72): the CMIS write that restores a cut laser fibre completes, and the fibre's LASER_CUT
ports enter TRAINING. -/
def execLaserFibreRestored (m : Fibre) (s : State) :
    Host.Outcome State Fault Refusal :=
  coreDone (fun d => d.fibreRestored m.val) s

/-- DOWN_RETRY_TIMER (R74): a DOWN port with light retries training after 1 s. -/
def execDownRetryTimer (p : Port) (s : State) :
    Host.Outcome State Fault Refusal :=
  coreDone (fun d => d.downRetry p.val) s

/-- TRAINING_STEP_COMPLETE (R62): a step of a port's full training finishes and the next one starts. -/
def execTrainingStepComplete (p : Port) (errs : List (BitVec 32)) (s : State) :
    Host.Outcome State Fault Refusal :=
  coreDone (fun d => d.trainStep p.val errs) s

/-- TRAINING_ADAPT_TIMEOUT (R62): clock recovery and equalisation do not finish within 20 ms, and the port goes DOWN
with 0xE9. -/
def execTrainingAdaptTimeout (p : Port) (s : State) :
    Host.Outcome State Fault Refusal :=
  coreDone (fun d => d.adaptTimeout p.val) s

/-- TRAINING_WORD_CAP (R122): a CAP training word is accepted and the peer's widths, spare and measurement length
are taken. -/
def execTrainingWordCap (p : Port) (blk : Block) (s : State) :
    Host.Outcome State Fault Refusal :=
  coreDone (fun d => d.wordCap p.val blk) s

/-- TRAINING_WORD_RESULT (R122): a RESULT training word gives the peer's error count for one transmit wavelength; the
words of the five wavelengths are the same (R120). -/
def execTrainingWordResult (p : Port) (_via : Wave) (blk : Block) (s : State) :
    Host.Outcome State Fault Refusal :=
  coreDone (fun d => d.wordResult p.val blk) s

/-- TRAINING_WORD_MAP (R121): a MAP training word gives the peer's transmit lane map and width. -/
def execTrainingWordMap (p : Port) (blk : Block) (s : State) :
    Host.Outcome State Fault Refusal :=
  coreDone (fun d => d.wordMap p.val blk) s

/-- TRAINING_WORD_ABORT (R122): an ABORT training word makes the port go DOWN with the peer's reason. -/
def execTrainingWordAbort (p : Port) (blk : Block) (s : State) :
    Host.Outcome State Fault Refusal :=
  coreDone (fun d => d.wordAbort p.val blk) s

end Sys2Proof.Machine
end

