-- ==== Sys2Proof/Machine/CmdPower.lean ====
section
/-! DEFINITION. The commands of power (14: R517-R535), bring-up and reset (15: R536-R554; 19: R643, R646),
temperatures, board management and the test port (19: R648-R653). -/

namespace Sys2Proof.Machine

/-- DOMAIN_DEMAND (R519): an access needs an OFF domain, which wakes on a wave slot or is held. -/
def execDomainDemand (n : DomNo) (s : State) :
    Host.Outcome State Fault Refusal :=
  hostDone (fun d => d.atHome n.val d.demand) s

/-- GOVERNOR_WAVE_GRANT (R529): the governor grants the next wave of held domain wakes within its rising slope. -/
def execGovernorWaveGrant (s : State) :
    Host.Outcome State Fault Refusal :=
  hostDone (fun d => d.waveGrant) s

/-- DOMAIN_WAKE_DONE (R519): power-good and PLL lock are reported and the domain becomes ON, its waiting accesses
proceeding. -/
def execDomainWakeDone (n : DomNo) (s : State) :
    Host.Outcome State Fault Refusal :=
  hostMem (memAtHome n.val domUp) s

/-- DOMAIN_WAKE_TIMEOUT (R519): power-good or PLL lock misses its limit and the domain enters FAILED with 0xE0. -/
def execDomainWakeTimeout (n : DomNo) (pll : Bool) (s : State) :
    Host.Outcome State Fault Refusal :=
  hostMem (memAtHome n.val fun k => domLost k pll) s

/-- DOMAIN_IDLE_GATE (R519): a gated domain idle for GATE_IDLE µs without ballast starts entering OFF. -/
def execDomainIdleGate (n : DomNo) (s : State) :
    Host.Outcome State Fault Refusal :=
  hostDone (fun d => d.atHome n.val d.idleGate) s

/-- DOMAIN_ENTRY_COMPLETE (R519): a domain finishes entering OFF, and wakes at once if a demand arrived. -/
def execDomainEntryComplete (n : DomNo) (s : State) :
    Host.Outcome State Fault Refusal :=
  hostMem (memAtHome n.val domEntered) s

/-- POWER_REQ (R527): the descriptor requests a device state; it completes, starts, or is held pending. -/
def execPowerReq (fn : Fn) (r : RingNo) (s : State) :
    Host.Outcome State Fault Refusal :=
  hostDone (fun d => d.withNew fn.val r.val 0xE Dev.powerReq) s

/-- POWER_ENTRY_STEP_COMPLETE (R524): a step of an A2 or A3 entry finishes and the next starts, reaching the target
at the end. -/
def execPowerEntryStepComplete (s : State) :
    Host.Outcome State Fault Refusal :=
  hostDone (fun d => d.entryStep) s

/-- POWER_ENTRY_TIMEOUT (R525): an entry not finished within ENTRY_TO ms is aborted and its domains woken again. -/
def execPowerEntryTimeout (s : State) :
    Host.Outcome State Fault Refusal :=
  hostDone (fun d => d.entryTimeout) s

/-- GOVERNOR_INTERVAL (R528): every 1 µs the governor forms its estimate and assigns or withdraws ballast. -/
def execGovernorInterval (act : List (Nat × Nat)) (s : State) :
    Host.Outcome State Fault Refusal :=
  hostDone (fun d => d.governor act) s

/-- PORT_DOZE_IDLE (R526): a port carrying only idle flits for DOZE_IDLE µs where doze is allowed enters DOZE. -/
def execPortDozeIdle (p : Port) (s : State) :
    Host.Outcome State Fault Refusal :=
  coreDone (fun d => d.dozeIdle p.val) s

/-- COLD_RESET (R548): power-on or COLD_RST_N starts a cold reset and bring-up from step 0x1. -/
def execColdReset (low : Bool) (s : State) :
    Host.Outcome State Fault Refusal :=
  doneMem (fun m d => coldReset low m d) s

/-- WARM_RESET_PIN (R646): WARM_RST_N asserted for 10 µs with COLD_RST_N high starts a full warm reset. -/
def execWarmResetPin (s : State) :
    Host.Outcome State Fault Refusal :=
  doneMem (fun m d => fullWarm m d) s

/-- BRINGUP_STEP_COMPLETE (R536): a bring-up step finishes and the next starts. -/
def execBringupStepComplete (found : StepFound) (s : State) :
    Host.Outcome State Fault Refusal :=
  hostDone (fun d => d.bootComplete found.els found.dead) s

/-- BRINGUP_STEP_FAIL (R543): a bring-up step fails or exceeds its limit and stops bring-up or marks a unit. -/
def execBringupStepFail (detail : Nat) (unit : Nat) (lane : Option Nat) (s : State) :
    Host.Outcome State Fault Refusal :=
  hostDone (fun d => d.bootFailed detail unit lane) s

/-- LINK_WAIT_EXPIRY (R538): LINK_WAIT passes after step 0x9 and step 0xA ends once training ports finish. -/
def execLinkWaitExpiry (s : State) :
    Host.Outcome State Fault Refusal :=
  hostDone (fun d => d.linkWaitOver) s

/-- RESET_FULL_WARM (R549): a RESET descriptor of CLASS 0x01 starts a full warm reset with no completion. -/
def execResetFullWarm (src : Option (Fn × RingNo)) (s : State) :
    Host.Outcome State Fault Refusal :=
  doneMem (fun m d => resetFull (src.map fun x => (x.1.val, x.2.val)) m d) s

/-- RESET_COMPUTE (R551): a RESET descriptor of CLASS 0x02 abandons runs, zeroes tiles, frees contexts and rethreads
pools. -/
def execResetCompute (fn : Fn) (r : RingNo) (s : State) :
    Host.Outcome State Fault Refusal :=
  hostMem (fun m d => resetCompute fn.val r.val m d) s

/-- RESET_PARTITION (R552): a RESET descriptor of CLASS 0x03 discards a partition's flits and resets its tiles,
contexts, barriers and buffers. -/
def execResetPartition (fn : Fn) (r : RingNo) (s : State) :
    Host.Outcome State Fault Refusal :=
  hostMem (fun m d => resetPartition fn.val r.val m d) s

/-- RESET_PORT (R553): a RESET descriptor of CLASS 0x04 flushes a port and fully retrains it. -/
def execResetPort (fn : Fn) (r : RingNo) (s : State) :
    Host.Outcome State Fault Refusal :=
  hostDone (fun d => d.resetPort fn.val r.val) s

/-- RESET_FINISH (R549): a compute, partition or port reset finishes and its descriptors complete OK. -/
def execResetFinish (cls : Fin 256) (arg : Fin 256) (s : State) :
    Host.Outcome State Fault Refusal :=
  hostDone (fun d => d.resetFinish cls.val arg.val) s

/-- RAIL_FAULT (R643): a rail out of tolerance for 10 µs acts as COLD_RST_N asserted. -/
def execRailFault (s : State) :
    Host.Outcome State Fault Refusal :=
  doneMem (fun m d => railFault m d) s

/-- RAIL_RECOVERY (R643): after a rail fault, every rail has been back within tolerance for 1 ms and bring-up
restarts at step 0x1. -/
def execRailRecovery (s : State) :
    Host.Outcome State Fault Refusal :=
  done (fun d => d.railBack) s

/-- THERMAL_SAMPLE (R651): every 1 ms the sensors are sampled, raising or clearing warnings and tripping at the
limit. -/
def execThermalSample (temps : List Int) (s : State) :
    Host.Outcome State Fault Refusal :=
  done (fun d => d.thermal temps) s

/-- BMC_TEMP (R648): the BMC TEMP command returns six temperatures. -/
def execBmcTemp (s : State) :
    Host.Outcome State Fault Refusal :=
  done (fun d => d.bmcTemp) s

/-- BMC_POWER (R648): the BMC POWER command returns package power. -/
def execBmcPower (w : BitVec 16) (s : State) :
    Host.Outcome State Fault Refusal :=
  done (fun d => d.bmcPower w.toNat) s

/-- BMC_STATUS (R648): the BMC STATUS command returns BOOT_STAT. -/
def execBmcStatus (s : State) :
    Host.Outcome State Fault Refusal :=
  done (fun d => d.bmcStatus) s

/-- BMC_THERM (R648): the BMC THERM command returns thermal status and clears BMC_ALERT_N. -/
def execBmcTherm (s : State) :
    Host.Outcome State Fault Refusal :=
  done (fun d => d.bmcTherm) s

/-- BMC_HBSEQ (R648): the BMC HBSEQ command returns the last heartbeat sequence. -/
def execBmcHbseq (s : State) :
    Host.Outcome State Fault Refusal :=
  done (fun d => d.bmcHbseq) s

/-- JTAG_BYPASS (R650): the BYPASS instruction selects the bypass register. -/
def execJtagBypass (s : State) :
    Host.Outcome State Fault Refusal :=
  done (fun d => d.jtagBypass) s

/-- JTAG_IDCODE (R650): the IDCODE instruction returns 0x1D70_055B. -/
def execJtagIdcode (s : State) :
    Host.Outcome State Fault Refusal :=
  done (fun d => d.jtagIdcode) s

/-- JTAG_SAMPLE_PRELOAD (R650): SAMPLE/PRELOAD captures and loads the boundary-scan register. -/
def execJtagSamplePreload (seen : List Bool) (load : List Bool) (s : State) :
    Host.Outcome State Fault Refusal :=
  done (fun d => d.jtagSample seen load) s

/-- JTAG_EXTEST (R650): EXTEST drives the boundary while COLD_RST_N is low, else acts as BYPASS. -/
def execJtagExtest (seen : List Bool) (s : State) :
    Host.Outcome State Fault Refusal :=
  done (fun d => d.jtagOuter .extest seen) s

/-- JTAG_HIGHZ (R650): HIGHZ floats the outputs while COLD_RST_N is low, else acts as BYPASS. -/
def execJtagHighz (s : State) :
    Host.Outcome State Fault Refusal :=
  done (fun d => d.jtagOuter .highz [false]) s

/-- JTAG_CLAMP (R650): CLAMP holds the boundary while COLD_RST_N is low, else acts as BYPASS. -/
def execJtagClamp (s : State) :
    Host.Outcome State Fault Refusal :=
  done (fun d => d.jtagOuter .clamp [false]) s

/-- JTAG_TAP_RESET (R650): TRST_N driven low, or left at its internal pull-down, holds the JTAG TAP in reset. -/
def execJtagTapReset (high : Bool) (s : State) :
    Host.Outcome State Fault Refusal :=
  done (fun d => d.tapReset high) s

end Sys2Proof.Machine
end

