-- ==== Sys2Proof/Machine/CmdSeq.lean ====
section
/-! DEFINITION. The commands of the sequencer (07: R263-R310): one row for each form of each slot of a program word.
-/

namespace Sys2Proof.Machine

/-- SEQ_RUN_START (R294): the sequencer starts a selected context's instance in its initial state, first word 4 cc
later. -/
def execSeqRunStart (i : TileId) (s : State) :
    Host.Outcome State Fault Refusal :=
  tileDone i.val (fun d => d.seqRun i.val false) s

/-- SEQ_RUN_RESUME (R295): a context left at YIELD resumes from its captured state 16 cc after selection or restore.
-/
def execSeqRunResume (i : TileId) (s : State) :
    Host.Outcome State Fault Refusal :=
  tileDone i.val (fun d => d.seqRun i.val true) s

/-- FLOW_NEXT (R272): a word with FLOW NEXT continues at the next address. -/
def execFlowNext (i : TileId) (f : Fetch) (s : State) :
    Host.Outcome State Fault Refusal :=
  tileMem i.val (fun m d => flowRow i.val f (fun n => n == 0) m d) s

/-- FLOW_JUMP (R272): a JUMP continues at TARGET after two delay slots. -/
def execFlowJump (i : TileId) (f : Fetch) (s : State) :
    Host.Outcome State Fault Refusal :=
  tileMem i.val (fun m d => flowRow i.val f (fun n => n == 1) m d) s

/-- FLOW_BRT (R272): a BRT jumps when C[CSEL] is 1, with two delay slots. -/
def execFlowBrt (i : TileId) (f : Fetch) (s : State) :
    Host.Outcome State Fault Refusal :=
  tileMem i.val (fun m d => flowRow i.val f (fun n => n == 2) m d) s

/-- FLOW_BRF (R272): a BRF jumps when C[CSEL] is 0, with two delay slots. -/
def execFlowBrf (i : TileId) (f : Fetch) (s : State) :
    Host.Outcome State Fault Refusal :=
  tileMem i.val (fun m d => flowRow i.val f (fun n => n == 3) m d) s

/-- FLOW_WAIT (R279): a WAIT stalls the sequencer until its WSEL condition holds. -/
def execFlowWait (i : TileId) (f : Fetch) (s : State) :
    Host.Outcome State Fault Refusal :=
  tileMem i.val (fun m d => flowWait i.val f m d) s

/-- WAIT_CONDITION_MET (R283): a stalled WAIT finds its condition true and the word's other slots act once. -/
def execWaitConditionMet (i : TileId) (s : State) :
    Host.Outcome State Fault Refusal :=
  tileMem i.val (fun m d => waitMet i.val m d) s

/-- WAIT_WATCHDOG (R283): a WAIT stalled for WDOG × 1,024 cc halts the program with 0x0A. -/
def execWaitWatchdog (i : TileId) (s : State) :
    Host.Outcome State Fault Refusal :=
  tileDone i.val (fun d => d.waitWatchdog i.val) s

/-- FLOW_YIELD (R295): a YIELD captures the run's state and lets another OPEN context run. -/
def execFlowYield (i : TileId) (f : Fetch) (s : State) :
    Host.Outcome State Fault Refusal :=
  tileMem i.val (fun m d => flowYield i.val f m d) s

/-- FLOW_END (R297): an END closes the instance once every pushed command has completed. -/
def execFlowEnd (i : TileId) (f : Fetch) (s : State) :
    Host.Outcome State Fault Refusal :=
  tileMem i.val (fun m d => flowEnd i.val f m d) s

/-- END_COMMANDS_COMPLETE (R297): the last command of an ended run completes; the context returns to ARMED or faults
with 0x0E. -/
def execEndCommandsComplete (i : TileId) (s : State) :
    Host.Outcome State Fault Refusal :=
  tileDone i.val (fun d => d.endDone i.val) s

/-- FLOW_HALT (R272): a HALT word halts the program with reason 0x1F. -/
def execFlowHalt (i : TileId) (f : Fetch) (s : State) :
    Host.Outcome State Fault Refusal :=
  tileMem i.val (fun m d => flowRow i.val f (fun n => n == 7) m d) s

/-- FLOW_RESERVED (R277): a reserved FLOW halts the program with reason 0x01. -/
def execFlowReserved (i : TileId) (f : Fetch) (s : State) :
    Host.Outcome State Fault Refusal :=
  tileMem i.val (fun m d => flowRow i.val f (fun n => decide (8 ≤ n)) m d) s

/-- KOP_LDI (R273): LDI loads sign-extended IMM into a counter. -/
def execKopLdi (i : TileId) (f : Fetch) (s : State) :
    Host.Outcome State Fault Refusal :=
  tileDone i.val (fun d => d.slotRow i.val f 1 fun w => wKop w == 1) s

/-- KOP_ADDI (R273): ADDI adds sign-extended IMM to a counter. -/
def execKopAddi (i : TileId) (f : Fetch) (s : State) :
    Host.Outcome State Fault Refusal :=
  tileDone i.val (fun d => d.slotRow i.val f 1 fun w => wKop w == 2) s

/-- KOP_ADD (R273): ADD adds counter KSRC to counter KDST. -/
def execKopAdd (i : TileId) (f : Fetch) (s : State) :
    Host.Outcome State Fault Refusal :=
  tileDone i.val (fun d => d.slotRow i.val f 1 fun w => wKop w == 3) s

/-- KOP_SUB (R273): SUB subtracts counter KSRC from counter KDST. -/
def execKopSub (i : TileId) (f : Fetch) (s : State) :
    Host.Outcome State Fault Refusal :=
  tileDone i.val (fun d => d.slotRow i.val f 1 fun w => wKop w == 4) s

/-- KOP_MOV (R273): MOV copies counter KSRC into counter KDST. -/
def execKopMov (i : TileId) (f : Fetch) (s : State) :
    Host.Outcome State Fault Refusal :=
  tileDone i.val (fun d => d.slotRow i.val f 1 fun w => wKop w == 5) s

/-- KOP_LDH (R273): LDH loads IMM into the high half of a counter. -/
def execKopLdh (i : TileId) (f : Fetch) (s : State) :
    Host.Outcome State Fault Refusal :=
  tileDone i.val (fun d => d.slotRow i.val f 1 fun w => wKop w == 6) s

/-- KOP_RESERVED (R273): the reserved KOP halts the program with reason 0x02. -/
def execKopReserved (i : TileId) (f : Fetch) (s : State) :
    Host.Outcome State Fault Refusal :=
  tileDone i.val (fun d => d.slotRow i.val f 1 fun w => wKop w == 7) s

/-- COP_EQ (R274): EQ writes K[CA] = y into a comparator result. -/
def execCopEq (i : TileId) (f : Fetch) (s : State) :
    Host.Outcome State Fault Refusal :=
  tileDone i.val (fun d => d.slotRow i.val f 2 fun w => wCop w == 1) s

/-- COP_NE (R274): NE writes K[CA] ≠ y into a comparator result. -/
def execCopNe (i : TileId) (f : Fetch) (s : State) :
    Host.Outcome State Fault Refusal :=
  tileDone i.val (fun d => d.slotRow i.val f 2 fun w => wCop w == 2) s

/-- COP_LTU (R274): LTU writes the unsigned K[CA] < y into a comparator result. -/
def execCopLtu (i : TileId) (f : Fetch) (s : State) :
    Host.Outcome State Fault Refusal :=
  tileDone i.val (fun d => d.slotRow i.val f 2 fun w => wCop w == 3) s

/-- COP_GEU (R274): GEU writes the unsigned K[CA] ≥ y into a comparator result. -/
def execCopGeu (i : TileId) (f : Fetch) (s : State) :
    Host.Outcome State Fault Refusal :=
  tileDone i.val (fun d => d.slotRow i.val f 2 fun w => wCop w == 4) s

/-- COP_LTS (R274): LTS writes the signed K[CA] < y into a comparator result. -/
def execCopLts (i : TileId) (f : Fetch) (s : State) :
    Host.Outcome State Fault Refusal :=
  tileDone i.val (fun d => d.slotRow i.val f 2 fun w => wCop w == 5) s

/-- COP_GES (R274): GES writes the signed K[CA] ≥ y into a comparator result. -/
def execCopGes (i : TileId) (f : Fetch) (s : State) :
    Host.Outcome State Fault Refusal :=
  tileDone i.val (fun d => d.slotRow i.val f 2 fun w => wCop w == 6) s

/-- COP_DONE (R274): DONE writes a generator's WRAP flag into a comparator result. -/
def execCopDone (i : TileId) (f : Fetch) (s : State) :
    Host.Outcome State Fault Refusal :=
  tileDone i.val (fun d => d.slotRow i.val f 2 fun w => wCop w == 7) s

/-- AGOP_STEP (R286): STEP advances an address generator's indices. -/
def execAgopStep (i : TileId) (f : Fetch) (s : State) :
    Host.Outcome State Fault Refusal :=
  tileDone i.val (fun d => d.slotRow i.val f 3 fun w => wAgsel w != 0 && wAgop w == 0) s

/-- AGOP_RESTART (R286): RESTART clears a generator's indices and WRAP. -/
def execAgopRestart (i : TileId) (f : Fetch) (s : State) :
    Host.Outcome State Fault Refusal :=
  tileDone i.val (fun d => d.slotRow i.val f 3 fun w => wAgsel w != 0 && wAgop w == 1) s

/-- AGOP_LOAD (R286): LOAD copies a parameter set into a generator and restarts it. -/
def execAgopLoad (i : TileId) (f : Fetch) (s : State) :
    Host.Outcome State Fault Refusal :=
  tileDone i.val (fun d => d.slotRow i.val f 3 fun w => wAgsel w != 0 && wAgop w == 2) s

/-- AGOP_RESERVED (R275): the reserved AGOP halts the program with reason 0x02. -/
def execAgopReserved (i : TileId) (f : Fetch) (s : State) :
    Host.Outcome State Fault Refusal :=
  tileDone i.val (fun d => d.slotRow i.val f 3 fun w => wAgsel w != 0 && wAgop w == 3) s

/-- PUSH_SUM (R288): a push builds a SUM command from a template and reserves a queue entry. -/
def execPushSum (i : TileId) (f : Fetch) (s : State) :
    Host.Outcome State Fault Refusal :=
  tileDone i.val (fun d => d.slotRow i.val f 4 fun w => wPush w == 1) s

/-- PUSH_MOVE (R288): a push builds a MOVE command from a template and reserves a queue entry. -/
def execPushMove (i : TileId) (f : Fetch) (s : State) :
    Host.Outcome State Fault Refusal :=
  tileDone i.val (fun d => d.slotRow i.val f 4 fun w => wPush w == 2) s

/-- PUSH_SORT (R288): a push builds a SORT command from a template and reserves a queue entry. -/
def execPushSort (i : TileId) (f : Fetch) (s : State) :
    Host.Outcome State Fault Refusal :=
  tileDone i.val (fun d => d.slotRow i.val f 4 fun w => wPush w == 3) s

/-- PUSH_SIFT (R288): a push builds a SIFT command from a template and reserves a queue entry. -/
def execPushSift (i : TileId) (f : Fetch) (s : State) :
    Host.Outcome State Fault Refusal :=
  tileDone i.val (fun d => d.slotRow i.val f 4 fun w => wPush w == 4) s

/-- PUSH_RESERVED (R277): a reserved PUSH value halts the program with reason 0x02. -/
def execPushReserved (i : TileId) (f : Fetch) (s : State) :
    Host.Outcome State Fault Refusal :=
  tileDone i.val (fun d => d.slotRow i.val f 4 fun w => decide (5 ≤ wPush w)) s

/-- BARR (R293): BARR arrives at a barrier as its local child and records the epoch. -/
def execBarr (i : TileId) (f : Fetch) (s : State) :
    Host.Outcome State Fault Refusal :=
  tileDone i.val (fun d => d.slotRow i.val f 5 fun w => wBarr w) s

/-- OFSNEXT (R292): OFSNEXT releases the current contribution group and advances base. -/
def execOfsnext (i : TileId) (f : Fetch) (s : State) :
    Host.Outcome State Fault Refusal :=
  tileDone i.val (fun d => d.slotRow i.val f 6 fun w => wOfs w) s

/-- BUILTIN_PUSH (R289): the built-in collective logic pushes an engine command, waiting for a free entry. -/
def execBuiltinPush (i : TileId) (e : Fin 4) (cmd : BitVec 256) (s : State) :
    Host.Outcome State Fault Refusal :=
  tileDone i.val (fun d => d.builtinPush i.val e.val cmd) s

/-- PROG_LOAD (R304): the descriptor checks a Swipeco image for a logical tile and waits for a switch point. -/
def execProgLoad (fn : Fn) (r : RingNo) (s : State) :
    Host.Outcome State Fault Refusal :=
  hostDone (fun d => d.withNew fn.val r.val 5 Dev.progLoad) s

/-- PROG_LOAD_WRITE (R305): at a switch point the tile writes every image section and completes the load. -/
def execProgLoadWrite (i : TileId) (s : State) :
    Host.Outcome State Fault Refusal :=
  tileDone i.val (fun d => d.loadWrite i.val) s

/-- PROG_LOAD_TIMEOUT (R305): a load finding no switch point within 10 ms completes with 0x10 and writes nothing. -/
def execProgLoadTimeout (i : TileId) (s : State) :
    Host.Outcome State Fault Refusal :=
  tileDone i.val (fun d => d.loadTimeout i.val) s

end Sys2Proof.Machine
end

