-- ==== Sys2Proof/Machine/CmdTrust.lean ====
section
/-! DEFINITION. The commands of images, attestation, licences and the journal (15: R545-R547; 16: R555-R580). -/

namespace Sys2Proof.Machine

/-- The versions of R568, 1.2 and 1.3; its capabilities CERT, CHAL and MEAS with signature; its algorithms, Ed25519 with
SHA-512: what a response carries, before the standard's encoding (log entry 7). -/
def spdmVersions : List (BitVec 8) := [0x12, 0x13]
def spdmCaps : List (BitVec 8) := [0x16]
def spdmAlgs : List (BitVec 8) := [1, 1, 1]

/-- IMG_HAVE_RX (R546): an IMG_HAVE frame is answered with IMG_REQ by a device lacking the image. -/
def execImgHaveRx (s : State) :
    Host.Outcome State Fault Refusal :=
  hostDone (fun d => d.imgHave) s

/-- IMG_REQ_RX (R546): an IMG_REQ makes the sender send chunks in order from the requested one. -/
def execImgReqRx (s : State) :
    Host.Outcome State Fault Refusal :=
  hostDone (fun d => d.imgReq) s

/-- IMG_CHUNK_SEND (R546): the broadcaster sends the next chunk on a requesting port, at most one per µs. -/
def execImgChunkSend (p : Port) (s : State) :
    Host.Outcome State Fault Refusal :=
  hostDone (fun d => d.imgSend p.val) s

/-- IMG_CHUNK_RX (R547): a broadcast chunk is stored, or discarded as duplicate or foreign. -/
def execImgChunkRx (s : State) :
    Host.Outcome State Fault Refusal :=
  hostDone (fun d => d.imgChunk) s

/-- IMG_REQ_TIMEOUT (R547): 10 ms after a chunk with chunks missing, the receiver requests its lowest missing chunk.
-/
def execImgReqTimeout (s : State) :
    Host.Outcome State Fault Refusal :=
  hostDone (fun d => d.imgAsk) s

/-- IMAGE_STAGE_IMAGE (R563): an IMAGE_STAGE chunk of TYPE image is received in order, LAST starting verification.
-/
def execImageStageImage (fn : Fn) (r : RingNo) (s : State) :
    Host.Outcome State Fault Refusal :=
  hostDone (fun d => d.stageImage fn.val r.val) s

/-- IMAGE_STAGE_LICENCE (R572): an IMAGE_STAGE of TYPE licence is checked and written to the free licence sector. -/
def execImageStageLicence (fn : Fn) (r : RingNo) (flashOk : Bool) (s : State) :
    Host.Outcome State Fault Refusal :=
  hostDone (fun d => d.stageLicence fn.val r.val flashOk) s

/-- IMAGE_INSTALL_COMPLETE (R562): the staged image is read back, verified and tagged, and the install completes or
is refused. -/
def execImageInstallComplete (flashOk : Bool) (s : State) :
    Host.Outcome State Fault Refusal :=
  hostDone (fun d => d.installEnd flashOk) s

/-- RECOVERY_RESTART (R564): 10 ms after a recovered image verifies, bring-up restarts at step 0x2. -/
def execRecoveryRestart (s : State) :
    Host.Outcome State Fault Refusal :=
  hostMem (fun m d => recoveryRestart m d) s

/-- SPDM_REQUEST_FRAGMENT (R569): a management-lane SPDM fragment is collected into its request message. -/
def execSpdmRequestFragment (s : State) :
    Host.Outcome State Fault Refusal :=
  hostDone (fun d => d.spdmFragment) s

/-- SPDM_GET_VERSION (R568): the device answers GET_VERSION. -/
def execSpdmGetVersion (o : Option (Fn × List (BitVec 8))) (s : State) :
    Host.Outcome State Fault Refusal :=
  hostDone (fun d => d.spdmAnswer (o.map fun x => (x.1.val, x.2)) 0x84 0x04 fun _ _ => spdmVersions) s

/-- SPDM_GET_CAPABILITIES (R568): the device answers GET_CAPABILITIES. -/
def execSpdmGetCapabilities (o : Option (Fn × List (BitVec 8))) (s : State) :
    Host.Outcome State Fault Refusal :=
  hostDone (fun d => d.spdmAnswer (o.map fun x => (x.1.val, x.2)) 0xE1 0x61 fun _ _ => spdmCaps) s

/-- SPDM_NEGOTIATE_ALGORITHMS (R568): the device answers NEGOTIATE_ALGORITHMS with Ed25519 and SHA-512. -/
def execSpdmNegotiateAlgorithms (o : Option (Fn × List (BitVec 8))) (s : State) :
    Host.Outcome State Fault Refusal :=
  hostDone (fun d => d.spdmAnswer (o.map fun x => (x.1.val, x.2)) 0xE3 0x63 fun _ _ => spdmAlgs) s

/-- SPDM_GET_DIGESTS (R568): the device answers GET_DIGESTS for slot 0. -/
def execSpdmGetDigests (o : Option (Fn × List (BitVec 8))) (s : State) :
    Host.Outcome State Fault Refusal :=
  hostDone (fun d => d.spdmAnswer (o.map fun x => (x.1.val, x.2)) 0x81 0x01 fun _ _ => digest Config.certChain) s

/-- SPDM_GET_CERTIFICATE (R568): the device returns its identity certificate chain. -/
def execSpdmGetCertificate (o : Option (Fn × List (BitVec 8))) (s : State) :
    Host.Outcome State Fault Refusal :=
  hostDone (fun d => d.spdmAnswer (o.map fun x => (x.1.val, x.2)) 0x82 0x02 fun _ _ => Config.certChain) s

/-- SPDM_CHALLENGE (R568): the device signs a CHALLENGE with its identity key. -/
def execSpdmChallenge (o : Option (Fn × List (BitVec 8))) (s : State) :
    Host.Outcome State Fault Refusal :=
  hostDone (fun d => d.spdmAnswer (o.map fun x => (x.1.val, x.2)) 0x83 0x03 fun _ t => signed t (digest Config.certChain)) s

/-- SPDM_GET_MEASUREMENTS (R570): the device returns measurement blocks taken in one management-clock cycle. -/
def execSpdmGetMeasurements (o : Option (Fn × List (BitVec 8))) (s : State) :
    Host.Outcome State Fault Refusal :=
  hostDone (fun d => d.spdmAnswer (o.map fun x => (x.1.val, x.2)) 0xE0 0x60 fun d t => signed t d.measurements) s

/-- SPDM_UNSUPPORTED_REQUEST (R568): a request outside the supported set is answered with an SPDM ERROR and counted.
-/
def execSpdmUnsupportedRequest (o : Option (Fn × List (BitVec 8))) (s : State) :
    Host.Outcome State Fault Refusal :=
  hostDone (fun d => d.spdmError (o.map fun x => (x.1.val, x.2))) s

/-- JOURNAL_PUT (R575): the descriptor appends a group of journal records, applies them, and sets HOST_JSEQ when
durable. -/
def execJournalPut (fn : Fn) (r : RingNo) (s : State) :
    Host.Outcome State Fault Refusal :=
  hostDone (fun d => d.journalPut fn.val r.val) s

/-- JOURNAL_COMMIT_DURABLE (R575): a group's COMMIT becomes durable, HOST_JSEQ is set and the values are applied. -/
def execJournalCommitDurable (s : State) :
    Host.Outcome State Fault Refusal :=
  hostDone (fun d => d.commitDurable) s

/-- JOURNAL_COMPACTION (R576): at 75 % full, firmware copies live records to the other bank as one group. -/
def execJournalCompaction (s : State) :
    Host.Outcome State Fault Refusal :=
  hostDone (fun d => d.compactStart) s

/-- JOURNAL_COMPACTION_COMPLETE (R576): compaction's final COMMIT is durable, waiting JOURNAL_PUTs proceed and the
old bank is erased. -/
def execJournalCompactionComplete (s : State) :
    Host.Outcome State Fault Refusal :=
  hostDone (fun d => d.compactEnd) s

end Sys2Proof.Machine
end

