-- ==== Sys2Proof/Machine/Dispatch.lean ====
section
/-! DEFINITION. One arm per command: its meaning. -/

namespace Sys2Proof.Machine

/-- The effect of a command on everything but the queue. -/
def exec (i : Instr) (s : State) : Host.Outcome State Fault Refusal :=
  match i with
  | .registerWrite fn off size v => Sys2Proof.Machine.execRegisterWrite fn off size v s
  | .registerRcRead fn off size => Sys2Proof.Machine.execRegisterRcRead fn off size s
  | .registerLowHalfRead fn off => Sys2Proof.Machine.execRegisterLowHalfRead fn off s
  | .d2dTransferReceive n crcOk => Sys2Proof.Machine.execD2dTransferReceive n crcOk s
  | .d2dAckTimeout n => Sys2Proof.Machine.execD2dAckTimeout n s
  | .d2dLinkFail n unlocked => Sys2Proof.Machine.execD2dLinkFail n unlocked s
  | .photodiodeSample e low => Sys2Proof.Machine.execPhotodiodeSample e low s
  | .elsPoll k r => Sys2Proof.Machine.execElsPoll k r s
  | .elsInterrupt k r => Sys2Proof.Machine.execElsInterrupt k r s
  | .wavelengthFail p rx k errs => Sys2Proof.Machine.execWavelengthFail p rx k errs s
  | .steerAnnTimeout p => Sys2Proof.Machine.execSteerAnnTimeout p s
  | .los p => Sys2Proof.Machine.execLos p s
  | .laserCutComplete m => Sys2Proof.Machine.execLaserCutComplete m s
  | .cutNoticeSendEnd p => Sys2Proof.Machine.execCutNoticeSendEnd p s
  | .probeWindowStart m => Sys2Proof.Machine.execProbeWindowStart m s
  | .probeWindowEnd m => Sys2Proof.Machine.execProbeWindowEnd m s
  | .lightDetected p => Sys2Proof.Machine.execLightDetected p s
  | .downRetryTimer p => Sys2Proof.Machine.execDownRetryTimer p s
  | .portEnableWrite fn p v => Sys2Proof.Machine.execPortEnableWrite fn p v s
  | .portRetrain fn p v => Sys2Proof.Machine.execPortRetrain fn p v s
  | .trainingStepComplete p errs => Sys2Proof.Machine.execTrainingStepComplete p errs s
  | .trainingAdaptTimeout p => Sys2Proof.Machine.execTrainingAdaptTimeout p s
  | .trainingWordCap p blk => Sys2Proof.Machine.execTrainingWordCap p blk s
  | .trainingWordResult p via blk => Sys2Proof.Machine.execTrainingWordResult p via blk s
  | .trainingWordMap p blk => Sys2Proof.Machine.execTrainingWordMap p blk s
  | .trainingWordAbort p blk => Sys2Proof.Machine.execTrainingWordAbort p blk s
  | .rxSlot p sig => Sys2Proof.Machine.execRxSlot p sig s
  | .txSlot p => Sys2Proof.Machine.execTxSlot p s
  | .alignmentMarkerReceive p lane m => Sys2Proof.Machine.execAlignmentMarkerReceive p lane m s
  | .nakResendTimeout p => Sys2Proof.Machine.execNakResendTimeout p s
  | .nakRx p seq => Sys2Proof.Machine.execNakRx p seq s
  | .replayWindowFull p => Sys2Proof.Machine.execReplayWindowFull p s
  | .replayNoProgressLimit p => Sys2Proof.Machine.execReplayNoProgressLimit p s
  | .steerReqRx p lane wave => Sys2Proof.Machine.execSteerReqRx p lane wave s
  | .steerAnnRx p spare lane wave count => Sys2Proof.Machine.execSteerAnnRx p spare lane wave count s
  | .steerAckRx p lane wave => Sys2Proof.Machine.execSteerAckRx p lane wave s
  | .steerSwitch p rx => Sys2Proof.Machine.execSteerSwitch p rx s
  | .restripeRx p => Sys2Proof.Machine.execRestripeRx p s
  | .restripeMarkerRx p wave blk => Sys2Proof.Machine.execRestripeMarkerRx p wave blk s
  | .restripeComplete p => Sys2Proof.Machine.execRestripeComplete p s
  | .restripeTimeout p => Sys2Proof.Machine.execRestripeTimeout p s
  | .cutNoticeRx p => Sys2Proof.Machine.execCutNoticeRx p s
  | .retrainRx p => Sys2Proof.Machine.execRetrainRx p s
  | .dozeReqRx p => Sys2Proof.Machine.execDozeReqRx p s
  | .dozeAckRx p => Sys2Proof.Machine.execDozeAckRx p s
  | .dozeReqTimeout p => Sys2Proof.Machine.execDozeReqTimeout p s
  | .lcReservedRx p => Sys2Proof.Machine.execLcReservedRx p s
  | .initTimeout p => Sys2Proof.Machine.execInitTimeout p s
  | .wakePatternDetect p => Sys2Proof.Machine.execWakePatternDetect p s
  | .dozeRelockTimeout p => Sys2Proof.Machine.execDozeRelockTimeout p s
  | .expressBDecode p sig idle => Sys2Proof.Machine.execExpressBDecode p sig idle s
  | .ingressBind src => Sys2Proof.Machine.execIngressBind src s
  | .slotCounterTick => Sys2Proof.Machine.execSlotCounterTick s
  | .stageOneCrossing g => Sys2Proof.Machine.execStageOneCrossing g s
  | .stageTwoCrossing g => Sys2Proof.Machine.execStageTwoCrossing g s
  | .s2Crossing g p => Sys2Proof.Machine.execS2Crossing g p s
  | .schedulerVisit c => Sys2Proof.Machine.execSchedulerVisit c s
  | .reseqArrive g => Sys2Proof.Machine.execReseqArrive g s
  | .reseqHole g => Sys2Proof.Machine.execReseqHole g s
  | .reseqTimeout g => Sys2Proof.Machine.execReseqTimeout g s
  | .tableUpdateCommit => Sys2Proof.Machine.execTableUpdateCommit s
  | .tableUpdateDrainComplete => Sys2Proof.Machine.execTableUpdateDrainComplete s
  | .tableUpdateDrainTimeout => Sys2Proof.Machine.execTableUpdateDrainTimeout s
  | .creditArbitration => Sys2Proof.Machine.execCreditArbitration s
  | .shaperTick => Sys2Proof.Machine.execShaperTick s
  | .telemetrySample => Sys2Proof.Machine.execTelemetrySample s
  | .mirrorCapture => Sys2Proof.Machine.execMirrorCapture s
  | .mirrorRecordWrite => Sys2Proof.Machine.execMirrorRecordWrite s
  | .portQueuesHeld p => Sys2Proof.Machine.execPortQueuesHeld p s
  | .holdTimerExpiry p => Sys2Proof.Machine.execHoldTimerExpiry p s
  | .qosPdnFlush fn p v => Sys2Proof.Machine.execQosPdnFlush fn p v s
  | .flushComplete p => Sys2Proof.Machine.execFlushComplete p s
  | .ctxSetup fn r => Sys2Proof.Machine.execCtxSetup fn r s
  | .ctxFree fn r => Sys2Proof.Machine.execCtxFree fn r s
  | .ctxAbort fn r => Sys2Proof.Machine.execCtxAbort fn r s
  | .contributionArrive k => Sys2Proof.Machine.execContributionArrive k s
  | .contributionRetry => Sys2Proof.Machine.execContributionRetry s
  | .ctxTmoExpiry c => Sys2Proof.Machine.execCtxTmoExpiry c s
  | .memRead k e => Sys2Proof.Machine.execMemRead k e s
  | .memWrite k e => Sys2Proof.Machine.execMemWrite k e s
  | .memAtomicAdd k e => Sys2Proof.Machine.execMemAtomicAdd k e s
  | .memReduce k e => Sys2Proof.Machine.execMemReduce k e s
  | .memMcastRead k e => Sys2Proof.Machine.execMemMcastRead k e s
  | .memReservedOp k e => Sys2Proof.Machine.execMemReservedOp k e s
  | .fabricTimeTick => Sys2Proof.Machine.execFabricTimeTick s
  | .timeExchangeTimer => Sys2Proof.Machine.execTimeExchangeTimer s
  | .syncRx => Sys2Proof.Machine.execSyncRx s
  | .syncReplyRx => Sys2Proof.Machine.execSyncReplyRx s
  | .announceRx => Sys2Proof.Machine.execAnnounceRx s
  | .barrierArriveRx => Sys2Proof.Machine.execBarrierArriveRx s
  | .barrierReleaseRx => Sys2Proof.Machine.execBarrierReleaseRx s
  | .coreBarArrive fn v => Sys2Proof.Machine.execCoreBarArrive fn v s
  | .barrierReleaseTime b => Sys2Proof.Machine.execBarrierReleaseTime b s
  | .barrierTimeout b => Sys2Proof.Machine.execBarrierTimeout b s
  | .barrierArm fn b v => Sys2Proof.Machine.execBarrierArm fn b v s
  | .spillComplete c => Sys2Proof.Machine.execSpillComplete c s
  | .restoreComplete c e => Sys2Proof.Machine.execRestoreComplete c e s
  | .seqRunStart k => Sys2Proof.Machine.execSeqRunStart k s
  | .seqRunResume k => Sys2Proof.Machine.execSeqRunResume k s
  | .flowNext k f => Sys2Proof.Machine.execFlowNext k f s
  | .flowJump k f => Sys2Proof.Machine.execFlowJump k f s
  | .flowBrt k f => Sys2Proof.Machine.execFlowBrt k f s
  | .flowBrf k f => Sys2Proof.Machine.execFlowBrf k f s
  | .flowWait k f => Sys2Proof.Machine.execFlowWait k f s
  | .waitConditionMet k => Sys2Proof.Machine.execWaitConditionMet k s
  | .waitWatchdog k => Sys2Proof.Machine.execWaitWatchdog k s
  | .flowYield k f => Sys2Proof.Machine.execFlowYield k f s
  | .flowEnd k f => Sys2Proof.Machine.execFlowEnd k f s
  | .endCommandsComplete k => Sys2Proof.Machine.execEndCommandsComplete k s
  | .flowHalt k f => Sys2Proof.Machine.execFlowHalt k f s
  | .flowReserved k f => Sys2Proof.Machine.execFlowReserved k f s
  | .kopLdi k f => Sys2Proof.Machine.execKopLdi k f s
  | .kopAddi k f => Sys2Proof.Machine.execKopAddi k f s
  | .kopAdd k f => Sys2Proof.Machine.execKopAdd k f s
  | .kopSub k f => Sys2Proof.Machine.execKopSub k f s
  | .kopMov k f => Sys2Proof.Machine.execKopMov k f s
  | .kopLdh k f => Sys2Proof.Machine.execKopLdh k f s
  | .kopReserved k f => Sys2Proof.Machine.execKopReserved k f s
  | .copEq k f => Sys2Proof.Machine.execCopEq k f s
  | .copNe k f => Sys2Proof.Machine.execCopNe k f s
  | .copLtu k f => Sys2Proof.Machine.execCopLtu k f s
  | .copGeu k f => Sys2Proof.Machine.execCopGeu k f s
  | .copLts k f => Sys2Proof.Machine.execCopLts k f s
  | .copGes k f => Sys2Proof.Machine.execCopGes k f s
  | .copDone k f => Sys2Proof.Machine.execCopDone k f s
  | .agopStep k f => Sys2Proof.Machine.execAgopStep k f s
  | .agopRestart k f => Sys2Proof.Machine.execAgopRestart k f s
  | .agopLoad k f => Sys2Proof.Machine.execAgopLoad k f s
  | .agopReserved k f => Sys2Proof.Machine.execAgopReserved k f s
  | .pushSum k f => Sys2Proof.Machine.execPushSum k f s
  | .pushMove k f => Sys2Proof.Machine.execPushMove k f s
  | .pushSort k f => Sys2Proof.Machine.execPushSort k f s
  | .pushSift k f => Sys2Proof.Machine.execPushSift k f s
  | .pushReserved k f => Sys2Proof.Machine.execPushReserved k f s
  | .barr k f => Sys2Proof.Machine.execBarr k f s
  | .ofsnext k f => Sys2Proof.Machine.execOfsnext k f s
  | .builtinPush k e cmd => Sys2Proof.Machine.execBuiltinPush k e cmd s
  | .progLoad fn r => Sys2Proof.Machine.execProgLoad fn r s
  | .progLoadWrite k => Sys2Proof.Machine.execProgLoadWrite k s
  | .progLoadTimeout k => Sys2Proof.Machine.execProgLoadTimeout k s
  | .engineCommandComplete k e => Sys2Proof.Machine.execEngineCommandComplete k e s
  | .sumFold k e => Sys2Proof.Machine.execSumFold k e s
  | .sumFoldp k e => Sys2Proof.Machine.execSumFoldp k e s
  | .sumConv k e => Sys2Proof.Machine.execSumConv k e s
  | .sumReservedCode k e => Sys2Proof.Machine.execSumReservedCode k e s
  | .moveCopy k e => Sys2Proof.Machine.execMoveCopy k e s
  | .moveGather k e => Sys2Proof.Machine.execMoveGather k e s
  | .moveScatter k e => Sys2Proof.Machine.execMoveScatter k e s
  | .moveSend k e => Sys2Proof.Machine.execMoveSend k e s
  | .moveDispatch k e => Sys2Proof.Machine.execMoveDispatch k e s
  | .moveEncode k e => Sys2Proof.Machine.execMoveEncode k e s
  | .moveDecode k e => Sys2Proof.Machine.execMoveDecode k e s
  | .moveReservedCode k e => Sys2Proof.Machine.execMoveReservedCode k e s
  | .sortSort k e => Sys2Proof.Machine.execSortSort k e s
  | .sortMerge k e => Sys2Proof.Machine.execSortMerge k e s
  | .sortReservedCode k e => Sys2Proof.Machine.execSortReservedCode k e s
  | .siftScore k e => Sys2Proof.Machine.execSiftScore k e s
  | .siftTopk k e => Sys2Proof.Machine.execSiftTopk k e s
  | .siftThresh k e => Sys2Proof.Machine.execSiftThresh k e s
  | .siftNzmap k e => Sys2Proof.Machine.execSiftNzmap k e s
  | .lensPredict k e => Sys2Proof.Machine.execLensPredict k e s
  | .lensCheck k e => Sys2Proof.Machine.execLensCheck k e s
  | .siftReservedCode k e => Sys2Proof.Machine.execSiftReservedCode k e s
  | .poolEnable fn k v => Sys2Proof.Machine.execPoolEnable fn k v s
  | .poolThreadComplete k p => Sys2Proof.Machine.execPoolThreadComplete k p s
  | .poolAlloc fn r e => Sys2Proof.Machine.execPoolAlloc fn r e s
  | .poolFree fn r => Sys2Proof.Machine.execPoolFree fn r s
  | .hostKick fn v => Sys2Proof.Machine.execHostKick fn v s
  | .doorbellPass fn summary lines descs => Sys2Proof.Machine.execDoorbellPass fn summary lines descs s
  | .pollTimer fn summary lines descs => Sys2Proof.Machine.execPollTimer fn summary lines descs s
  | .descriptorStart fn r buf => Sys2Proof.Machine.execDescriptorStart fn r buf s
  | .nop fn r => Sys2Proof.Machine.execNop fn r s
  | .tableUpdate fn r => Sys2Proof.Machine.execTableUpdate fn r s
  | .hbmWrite fn r => Sys2Proof.Machine.execHbmWrite fn r s
  | .hbmRead fn r e => Sys2Proof.Machine.execHbmRead fn r e s
  | .quiesce fn r => Sys2Proof.Machine.execQuiesce fn r s
  | .quiesceDone n => Sys2Proof.Machine.execQuiesceDone n s
  | .quiesceTimeout n => Sys2Proof.Machine.execQuiesceTimeout n s
  | .resume fn r => Sys2Proof.Machine.execResume fn r s
  | .profileSet fn r => Sys2Proof.Machine.execProfileSet fn r s
  | .reservedOpcode fn r => Sys2Proof.Machine.execReservedOpcode fn r s
  | .completionWrite fn r => Sys2Proof.Machine.execCompletionWrite fn r s
  | .irqCoalesceTimer fn evt n => Sys2Proof.Machine.execIrqCoalesceTimer fn evt n s
  | .statusHeartbeat => Sys2Proof.Machine.execStatusHeartbeat s
  | .pcieFlr fn on => Sys2Proof.Machine.execPcieFlr fn on s
  | .pcieLinkDown fn => Sys2Proof.Machine.execPcieLinkDown fn s
  | .pciePerst fn low => Sys2Proof.Machine.execPciePerst fn low s
  | .crEnable fn r v => Sys2Proof.Machine.execCrEnable fn r v s
  | .crDisable fn r v => Sys2Proof.Machine.execCrDisable fn r v s
  | .crStop fn r v => Sys2Proof.Machine.execCrStop fn r v s
  | .crResume fn r v => Sys2Proof.Machine.execCrResume fn r v s
  | .crStopComplete fn r => Sys2Proof.Machine.execCrStopComplete fn r s
  | .eqEnable fn e v => Sys2Proof.Machine.execEqEnable fn e v s
  | .ownOffer fn v => Sys2Proof.Machine.execOwnOffer fn v s
  | .ownWithdraw fn v => Sys2Proof.Machine.execOwnWithdraw fn v s
  | .ownAccept fn v => Sys2Proof.Machine.execOwnAccept fn v s
  | .ownClaim fn v => Sys2Proof.Machine.execOwnClaim fn v s
  | .ownOfferTimeout => Sys2Proof.Machine.execOwnOfferTimeout s
  | .ownOrphanTimeout => Sys2Proof.Machine.execOwnOrphanTimeout s
  | .partOwnWrite fn v => Sys2Proof.Machine.execPartOwnWrite fn v s
  | .hostLevelWrite fn v => Sys2Proof.Machine.execHostLevelWrite fn v s
  | .hbmWindowAccess fn x n wr e => Sys2Proof.Machine.execHbmWindowAccess fn x n wr e s
  | .domainDemand n => Sys2Proof.Machine.execDomainDemand n s
  | .governorWaveGrant => Sys2Proof.Machine.execGovernorWaveGrant s
  | .domainWakeDone n => Sys2Proof.Machine.execDomainWakeDone n s
  | .domainWakeTimeout n pll => Sys2Proof.Machine.execDomainWakeTimeout n pll s
  | .domainIdleGate n => Sys2Proof.Machine.execDomainIdleGate n s
  | .domainEntryComplete n => Sys2Proof.Machine.execDomainEntryComplete n s
  | .domainReset fn n v => Sys2Proof.Machine.execDomainReset fn n v s
  | .powerReq fn r => Sys2Proof.Machine.execPowerReq fn r s
  | .powerEntryStepComplete => Sys2Proof.Machine.execPowerEntryStepComplete s
  | .powerEntryTimeout => Sys2Proof.Machine.execPowerEntryTimeout s
  | .governorInterval act => Sys2Proof.Machine.execGovernorInterval act s
  | .portDozeIdle p => Sys2Proof.Machine.execPortDozeIdle p s
  | .coldReset low => Sys2Proof.Machine.execColdReset low s
  | .warmResetPin => Sys2Proof.Machine.execWarmResetPin s
  | .bringupStepComplete found => Sys2Proof.Machine.execBringupStepComplete found s
  | .bringupStepFail detail unit lane => Sys2Proof.Machine.execBringupStepFail detail unit lane s
  | .linkWaitExpiry => Sys2Proof.Machine.execLinkWaitExpiry s
  | .resetFullWarm src => Sys2Proof.Machine.execResetFullWarm src s
  | .resetCompute fn r => Sys2Proof.Machine.execResetCompute fn r s
  | .resetPartition fn r => Sys2Proof.Machine.execResetPartition fn r s
  | .resetPort fn r => Sys2Proof.Machine.execResetPort fn r s
  | .resetFinish cls arg => Sys2Proof.Machine.execResetFinish cls arg s
  | .imgHaveRx => Sys2Proof.Machine.execImgHaveRx s
  | .imgReqRx => Sys2Proof.Machine.execImgReqRx s
  | .imgChunkSend p => Sys2Proof.Machine.execImgChunkSend p s
  | .imgChunkRx => Sys2Proof.Machine.execImgChunkRx s
  | .imgReqTimeout => Sys2Proof.Machine.execImgReqTimeout s
  | .imageStageImage fn r => Sys2Proof.Machine.execImageStageImage fn r s
  | .imageStageLicence fn r flashOk => Sys2Proof.Machine.execImageStageLicence fn r flashOk s
  | .imageInstallComplete flashOk => Sys2Proof.Machine.execImageInstallComplete flashOk s
  | .recoveryRestart => Sys2Proof.Machine.execRecoveryRestart s
  | .spdmRequestFragment => Sys2Proof.Machine.execSpdmRequestFragment s
  | .spdmGetVersion o => Sys2Proof.Machine.execSpdmGetVersion o s
  | .spdmGetCapabilities o => Sys2Proof.Machine.execSpdmGetCapabilities o s
  | .spdmNegotiateAlgorithms o => Sys2Proof.Machine.execSpdmNegotiateAlgorithms o s
  | .spdmGetDigests o => Sys2Proof.Machine.execSpdmGetDigests o s
  | .spdmGetCertificate o => Sys2Proof.Machine.execSpdmGetCertificate o s
  | .spdmChallenge o => Sys2Proof.Machine.execSpdmChallenge o s
  | .spdmGetMeasurements o => Sys2Proof.Machine.execSpdmGetMeasurements o s
  | .spdmUnsupportedRequest o => Sys2Proof.Machine.execSpdmUnsupportedRequest o s
  | .journalPut fn r => Sys2Proof.Machine.execJournalPut fn r s
  | .journalCommitDurable => Sys2Proof.Machine.execJournalCommitDurable s
  | .journalCompaction => Sys2Proof.Machine.execJournalCompaction s
  | .journalCompactionComplete => Sys2Proof.Machine.execJournalCompactionComplete s
  | .heartbeat => Sys2Proof.Machine.execHeartbeat s
  | .fmCommandRx => Sys2Proof.Machine.execFmCommandRx s
  | .fmFence => Sys2Proof.Machine.execFmFence s
  | .fmUnfence => Sys2Proof.Machine.execFmUnfence s
  | .fmAbortPart => Sys2Proof.Machine.execFmAbortPart s
  | .fmReset => Sys2Proof.Machine.execFmReset s
  | .fmQuery => Sys2Proof.Machine.execFmQuery s
  | .fmXferStart => Sys2Proof.Machine.execFmXferStart s
  | .fmReservedOp => Sys2Proof.Machine.execFmReservedOp s
  | .fmAckSend => Sys2Proof.Machine.execFmAckSend s
  | .fltFenceWrite fn p v => Sys2Proof.Machine.execFltFenceWrite fn p v s
  | .stateChunkSend => Sys2Proof.Machine.execStateChunkSend s
  | .stateChunkRx => Sys2Proof.Machine.execStateChunkRx s
  | .stateReqRx => Sys2Proof.Machine.execStateReqRx s
  | .stateReqTimeout => Sys2Proof.Machine.execStateReqTimeout s
  | .canaryTimer fails => Sys2Proof.Machine.execCanaryTimer fails s
  | .maintScrub fn r => Sys2Proof.Machine.execMaintScrub fn r s
  | .maintMargin fn r => Sys2Proof.Machine.execMaintMargin fn r s
  | .maintSpareTest fn r => Sys2Proof.Machine.execMaintSpareTest fn r s
  | .maintBcast fn r => Sys2Proof.Machine.execMaintBcast fn r s
  | .maintCancel fn r => Sys2Proof.Machine.execMaintCancel fn r s
  | .marginStep n corr bad => Sys2Proof.Machine.execMarginStep n corr bad s
  | .maintActivityEnd n ok e => Sys2Proof.Machine.execMaintActivityEnd n ok e s
  | .maintRetry => Sys2Proof.Machine.execMaintRetry s
  | .loupeRecordWrite => Sys2Proof.Machine.execLoupeRecordWrite s
  | .railFault => Sys2Proof.Machine.execRailFault s
  | .thermalSample temps => Sys2Proof.Machine.execThermalSample temps s
  | .bmcTemp => Sys2Proof.Machine.execBmcTemp s
  | .bmcPower w => Sys2Proof.Machine.execBmcPower w s
  | .bmcStatus => Sys2Proof.Machine.execBmcStatus s
  | .bmcTherm => Sys2Proof.Machine.execBmcTherm s
  | .bmcHbseq => Sys2Proof.Machine.execBmcHbseq s
  | .jtagBypass => Sys2Proof.Machine.execJtagBypass s
  | .jtagIdcode => Sys2Proof.Machine.execJtagIdcode s
  | .jtagSamplePreload seen load => Sys2Proof.Machine.execJtagSamplePreload seen load s
  | .jtagExtest seen => Sys2Proof.Machine.execJtagExtest seen s
  | .jtagHighz => Sys2Proof.Machine.execJtagHighz s
  | .jtagClamp => Sys2Proof.Machine.execJtagClamp s
  | .pcieLinkUp fn => Sys2Proof.Machine.execPcieLinkUp fn s
  | .railRecovery => Sys2Proof.Machine.execRailRecovery s
  | .laserFibreRestored m => Sys2Proof.Machine.execLaserFibreRestored m s
  | .telemetryRecordWrite => Sys2Proof.Machine.execTelemetryRecordWrite s
  | .hbmRefresh k bank start met => Sys2Proof.Machine.execHbmRefresh k bank start met s
  | .jtagTapReset high => Sys2Proof.Machine.execJtagTapReset high s

end Sys2Proof.Machine
end

