-- ==== Sys2Proof/WellFormed.lean ====
section
/-! DEFINITION. Which commands can arrive: the operands whose range the spec bounds and whose type does not say so. A
command outside these bounds is none the outside can send; its meaning is total all the same. -/

namespace Sys2Proof

/-- A BAR0 access reaches 1 to 64 bytes at a 64-bit offset; R620 judges its size and alignment. -/
def accessWf (off size : Nat) : Bool := decide (1 ≤ size) && decide (size ≤ 64) && decide (off < 2 ^ 64)

/-- Wavelength indices 0-4 come one by one (R39, R61); a block has 325 levels (R86). -/
def perWaveWf {α : Type} (l : List α) : Bool := l.length == 5

/-- The checks of a SUM command name one of 264 lanes, spares included (R335). -/
def SelfCheck.wf (c : SelfCheck) : Bool := decide (c.lane < 264)

/-- Memory reads find errors in granules of HBM that exist (R445, R446) and in the 4 MiB of tile memory (R226). -/
def ReadErr.wf (e : ReadErr) : Bool :=
  e.hbmBad.all (fun g => decide (g < 0x60000000)) && e.hbmCorr.all (fun g => decide (g < 0x60000000)) &&
    e.tileBad.all (fun a => decide (a < 2 ^ 22)) && e.sc.all SelfCheck.wf

/-- A pass sees the nine doorbell lines that follow the summary line (R486). -/
def linesWf (l : List (BitVec 512)) : Bool := l.length == 9

/-- A window access reaches at most 256 bytes; a write brings as many as it names (R477, R478). -/
def windowWf (n : Nat) (wr : Option (List (BitVec 8))) : Bool :=
  decide (1 ≤ n) && decide (n ≤ 256) && wr.all fun b => b.length == n

/-- A request that a host leaves in its buffer is one whole SPDM message (R568): at least a header of four bytes. -/
def spdmWf (o : Option (Fn × List (BitVec 8))) : Bool := o.all fun e => decide (4 ≤ e.2.length)

/-- The operands of a command are in the ranges the spec gives them. -/
def Instr.wf : Instr → Bool
  | .registerWrite _ off size _ => accessWf off size
  | .registerRcRead _ off size => accessWf off size
  | .registerLowHalfRead _ off => accessWf off 4
  | .trainingStepComplete _ errs => errs.isEmpty || perWaveWf errs
  | .rxSlot _ sig => perWaveWf sig
  | .expressBDecode _ sig idle => perWaveWf sig && perWaveWf idle
  | .alignmentMarkerReceive _ _ m => m.2.length == 325
  | .restripeMarkerRx _ _ blk => blk.length == 325
  | .trainingWordCap _ blk | .trainingWordResult _ _ blk | .trainingWordMap _ blk | .trainingWordAbort _ blk => blk.length == 325
  | .steerAnnRx _ _ _ _ count => decide (1 ≤ count) && decide (count ≤ 64)
  | .memRead _ e | .memWrite _ e | .memAtomicAdd _ e | .memReduce _ e | .memMcastRead _ e | .memReservedOp _ e => e.wf
  | .restoreComplete _ e | .poolAlloc _ _ e | .hbmRead _ _ e | .maintActivityEnd _ _ e => e.wf
  | .sumFold _ e | .sumFoldp _ e | .sumConv _ e | .sumReservedCode _ e => e.wf
  | .moveCopy _ e | .moveGather _ e | .moveScatter _ e | .moveSend _ e | .moveDispatch _ e | .moveEncode _ e
  | .moveDecode _ e | .moveReservedCode _ e => e.wf
  | .sortSort _ e | .sortMerge _ e | .sortReservedCode _ e => e.wf
  | .siftScore _ e | .siftTopk _ e | .siftThresh _ e | .siftNzmap _ e | .lensPredict _ e | .lensCheck _ e
  | .siftReservedCode _ e => e.wf
  | .doorbellPass _ _ lines _ | .pollTimer _ _ lines _ => linesWf lines
  | .hbmWindowAccess _ x n wr e => decide (x < 2 ^ 32) && windowWf n wr && e.wf
  | .governorInterval act => act.all fun a => decide (a.1 < 87)
  | .bringupStepComplete f => f.els.isEmpty || f.els.length == 16
  | .bringupStepFail detail unit lane => decide (detail < 256) && decide (unit < 32) && lane.all fun l => decide (l < 264)
  | .spdmGetVersion o | .spdmGetCapabilities o | .spdmNegotiateAlgorithms o | .spdmGetDigests o | .spdmGetCertificate o
  | .spdmChallenge o | .spdmGetMeasurements o | .spdmUnsupportedRequest o => spdmWf o
  | .thermalSample temps => temps.length == 8
  | .jtagSamplePreload seen load => seen.length == load.length
  | .hbmRefresh _ bank _ _ => decide (bank < 65536)
  | _ => true

end Sys2Proof
end

