-- ==== Sys2Proof/Safety.lean ====
section
/-! DEFINITION. What the statements say about a state: the canonical form of the memories, the parts of the device that a
command leaves as they were, and when a register write reaches its register. -/

namespace Sys2Proof.Machine

/-- The invariant of every step: the memories are in canonical form. -/
def State.Inv (s : State) : Prop := s.mem.wf = true

/-- A counter one higher, saturating (R11). -/
def up1 (n : Nat) : Nat := min (n + 1) 0xFFFFFFFF

/-! Frames: parts of two devices that are equal -/

/-- Ports, links, fibres, laser modules and die-to-die links are the same. -/
def sameOptics (a b : Dev) : Prop :=
  a.ports = b.ports ∧ a.links = b.links ∧ a.fibres = b.fibres ∧ a.els = b.els ∧ a.d2d = b.d2d

/-- The switch core, the egress queues and the capture units are the same. -/
def sameFabric (a b : Dev) : Prop := a.core = b.core ∧ a.queues = b.queues ∧ a.capt = b.capt

/-- Contexts, tiles and what HBM's controllers hold are the same. -/
def sameCompute (a b : Dev) : Prop := a.ctxs = b.ctxs ∧ a.tiles = b.tiles ∧ a.hbm = b.hbm

/-- Fabric time and barriers are the same. -/
def sameTime (a b : Dev) : Prop := a.time = b.time ∧ a.bars = b.bars

/-- The host interface is the same: functions, rings, acceptance order, quiesced scopes. -/
def sameHost (a b : Dev) : Prop := a.fns = b.fns ∧ a.accOrder = b.accOrder ∧ a.qmr = b.qmr

/-- Resets, power, trust, maintenance, the fault agent and the package are the same. -/
def sameSystem (a b : Dev) : Prop := a.sys = b.sys ∧ a.flt = b.flt

/-- Every register keeps its value but those of the names listed. -/
def sameRegsBut (l : List RegName) (a b : Dev) : Prop :=
  ∀ r fn i j, r ∉ l → b.rawF r fn i j = a.rawF r fn i j

/-- The links of every port but p are the same. -/
def sameLinksBut (p : Nat) (a b : Dev) : Prop := ∀ q, q ≠ p → b.link q = a.link q

/-- The optical sides of every port but p are the same. -/
def samePortsBut (p : Nat) (a b : Dev) : Prop := ∀ q, q ≠ p → b.port q = a.port q

/-! Ports -/

/-- Port p, of optical side x with its failed wavelengths noted, has entered RESTRIPE with a proposed width and with what
it announces, or is DOWN with 0xEB below MIN_WIDTH; other ports and links are as before. -/
def narrowed (p : Nat) (x : PortSt) (announce : List (BitVec 16)) (a b : Dev) : Prop :=
  (∀ w, w = min (min (dirWidth x.txFail x.spareEn) (dirWidth x.rxFail x.spareEn)) x.maxW →
    (x.minW ≤ w → 0 < w →
      (b.port p).state = .restripe ∧
      (b.port p).restripe = some { width := w, hits := [0, 0, 0, 0], rmap := 0xFFF, announce := announce } ∧
      b.rawF .PORT_RESTRIPE_CNT 0 p 0 = up1 (a.rawF .PORT_RESTRIPE_CNT 0 p 0)) ∧
    (w < x.minW ∨ w = 0 → (b.port p).state = .down ∧ (b.port p).reason = 0xEB)) ∧
  samePortsBut p a b ∧ sameLinksBut p a b ∧ sameCompute a b ∧ a.queues = b.queues ∧ sameHost a b

/-- Port p has begun a full training, its link DOWN with its replay list kept; other ports and links, memories' users
and the queues are as before. -/
def retrained (p : Nat) (a b : Dev) : Prop :=
  (b.port p).state = .training ∧ (b.port p).step = 1 ∧ (b.link p).lstate = .down ∧
    ((a.link p).keep = true → (b.link p).replayList = (a.link p).replayList) ∧ samePortsBut p a b ∧ sameLinksBut p a b ∧
    sameCompute a b ∧ b.queues = a.queues

/-! Registers -/

/-- Does a 4-byte write of v to instance i of a register pass every row of R622 before its last, for function fn? -/
def Dev.admits (d : Dev) (fn : Nat) (r : RegName) (i v : Nat) : Bool :=
  let e := d.dropSnap fn
  let p : Place := { reg := r, i := i, j := 0, byte := 0 }
  !d.inReset && regAt (offOf r i 0) == some p && (e.accessGate fn (offOf r i 0) 4 (some v)).isNone &&
    e.mayWrite fn p v && !(e.atBasic p) && !(isTable r) && ((scopeOf r i).bind fun s => e.qmrSlot s.1 s.2).isNone

/-! Memory and the engines -/

/-- Byte k of what lies at an address: tile memory of physical tile pt (space 0), or HBM by granule (space 1). -/
def spByte (m : Mem) (pt sp a k : Nat) : BitVec 8 := if sp = 0 then m.tileByte pt (a + k) else m.hbmByte (256 * a + k)

/-- HBM, and every byte of tile memory, are as before but n bytes from a on in physical tile pt. -/
def tileSameBut (m m' : Mem) (pt a n : Nat) : Prop :=
  m'.hbm = m.hbm ∧ ∀ t b, t ≠ pt ∨ b < a ∨ a + n ≤ b → m'.tileByte t b = m.tileByte t b

/-- Tile memory, and every byte of HBM, are as before but n bytes from a on. -/
def hbmSameBut (m m' : Mem) (a n : Nat) : Prop :=
  m'.tile = m.tile ∧ ∀ b, b < a ∨ a + n ≤ b → m'.hbmByte b = m.hbmByte b

/-- Memory is as before but n bytes from an address on. -/
def spSameBut (m m' : Mem) (pt sp a n : Nat) : Prop :=
  if sp = 0 then tileSameBut m m' pt a n else hbmSameBut m m' (256 * a) n

/-- May the context of a command reach n granules from g on, each readable without an error? -/
def Dev.granOk (d : Dev) (q : EngX) (g n : Nat) (rd wr : Bool) : Prop :=
  ∀ k, k < n → d.mayReach (g + k) q.part rd wr = true ∧ d.fd F.CORE_D2D_STAT_STATE (gDie (g + k)) ≠ 3 ∧
    d.hbmFails (g + k) = false

/-- The die's memory service takes its first request c: it acts, the link to the die works, the domain is ON. -/
def Dev.memTakes (d : Dev) (k : Nat) (c : QCell) (rest : List QCell) : Prop :=
  d.coreUp = true ∧ tblGet [] d.core.memRx k = c :: rest ∧ d.scopeHeld 4 k = false ∧ d.domOn (dieDom k) = true ∧
    d.fd F.CORE_D2D_STAT_STATE k ≠ 3

/-- May the request's partition reach its n granules, without an error in those it reads? -/
def Dev.memGran (d : Dev) (f : Flit) (n : Nat) (rd wr : Bool) : Prop :=
  f.ofs.toNat % n = 0 ∧ ∀ i, i < n →
    gDie (f.ofs.toNat + i) = gDie f.ofs.toNat ∧ d.mayReach (f.ofs.toNat + i) f.part.toNat rd wr = true ∧
      (rd = true → d.hbmFails (f.ofs.toNat + i) = false)

/-- The response of R242 to request f: to endpoint dst, with its OFS and TAG. -/
def Dev.memAnswer (d : Dev) (f : Flit) (dst : BitVec 16) (pay : List (BitVec 8)) : Flit :=
  { Flit.idle with
    type := 5, vl := 6, dst := dst, src := BitVec.ofNat 16 d.selfId, part := f.part, ofs := f.ofs, fmt := f.fmt
    form := f.form, tag := f.tag, payload := payloadOf pay }

/-- The error response of R242, with its reason. -/
def Dev.memRefusal (d : Dev) (f : Flit) (reason : Nat) : Flit :=
  { Flit.idle with
    type := 5, vl := 6, dst := f.src, src := BitVec.ofNat 16 d.selfId, part := f.part, ofs := f.ofs, fmt := 0, form := 3
    tag := BitVec.ofNat 16 (0xF000 + f.tag.toNat % 4096)
    payload := payloadOf [BitVec.ofNat 8 reason, BitVec.ofNat 8 (memOp f)] }

/-- What a request taken by die k leaves: it has left the die's queue, one response r, numbered, waits to be sent,
and contexts, tiles, ports, egress queues and the host interface are as before. -/
def memAnswered (k : Nat) (rest : List QCell) (r : Flit) (a b : Dev) : Prop :=
  tblGet [] b.core.memRx k = rest ∧
  (∃ x : SrcFlit, tblGet [] b.core.srcQ (288 + k) = tblGet [] a.core.srcQ (288 + k) ++ [x] ∧
    x.flit = { r with mseq := x.flit.mseq }) ∧
  b.rawF .MEM_SVC_REQ_CNT 0 k 0 = up1 (a.rawF .MEM_SVC_REQ_CNT 0 k 0) ∧
  b.core.ingressQ = a.core.ingressQ ∧ b.core.tileRx = a.core.tileRx

/-- The word w at the address of run r of tile i is there to issue: readable, with every field legal and none of its
slots acted yet. -/
def Dev.wordAt (d : Dev) (i : Nat) (r : RunSt) (w : BitVec 128) : Prop :=
  d.tileUp i = true ∧ (d.tile (d.phys i)).run = some r ∧ r.ending = false ∧ r.pc ≤ 0xFFF ∧ r.acted = none ∧
    tblGet false (d.tile (d.phys i)).pbad r.pc = false ∧ (d.tile (d.phys i)).word r.pc = w

/-- The word w issues: no check halts, no hazard counts, and a WAIT finds its condition true. -/
def Dev.wordIssues (d : Dev) (i : Nat) (r : RunSt) (w : BitVec 128) : Prop :=
  d.wordAt i r w ∧ wordBad w = none ∧ walkChecks r.haz (wHok w) (d.issueChecks i r w) = (0, none) ∧
    (wFlow w = 4 → r.branch = none → d.waitCond i r w = .inr true)

/-- Tile i has become t; all else is as before, but the hazard counter written with the hazards of the word (none). -/
def tileTo (i : Nat) (t : TileSt) (a b : Dev) : Prop :=
  b.tile (a.phys i) = t ∧ (∀ k, k ≠ a.phys i → b.tile k = a.tile k) ∧ sameRegsBut [.SEQ_HAZ_CNT] a b ∧
    b = { a with tiles := b.tiles, regs := b.regs, hot := b.hot }

/-- Tile i's run has become r, in the same cc; the rest of the tile and all else are as before. -/
def ranTo (i : Nat) (r : RunSt) (a b : Dev) : Prop := tileTo i { a.tile (a.phys i) with run := some r } a b

/-- A tile after n cc in which no arrival reaches the barrier unit: engines see pushes, WAITs completions (R278). -/
def TileSt.after (t : TileSt) (n : Nat) : TileSt :=
  { t with
    q := tblMap [] (fun _ l => l.map fun m => { m with unseen := m.unseen - n }) t.q, fresh := []
    arr := t.arr.map fun a => (a.1, a.2.1, a.2.2 - n) }

/-- Tile i's run has become r, n cc later. -/
def passedTo (i n : Nat) (r : RunSt) (a b : Dev) : Prop :=
  tileTo i { (a.tile (a.phys i)).after n with run := some r } a b

/-- The context of tile i's run has halted with a reason: it is FAULTED, its run is over, the halt is counted, and
other contexts are as before. -/
def haltedTo (i : Nat) (r : RunSt) (reason : Nat) (a b : Dev) : Prop :=
  (b.ctx r.ctx).state = .faulted ∧ (b.ctx r.ctx).reason = reason ∧ (b.tile (a.phys i)).run = none ∧
    b.rawF .SEQ_HALT_CNT 0 i 0 = up1 (a.rawF .SEQ_HALT_CNT 0 i 0) ∧
    (a.bit F.SEQ_HALT_VALID i = false → r.lastTag < 65536 → r.ctx < 4096 → r.pc ≤ 0xFFF →
      b.fd F.SEQ_HALT_REASON i = reason ∧ b.fd F.SEQ_HALT_PC i = r.pc) ∧
    (∀ c, c ≠ r.ctx → b.ctx c = a.ctx c) ∧ (∀ t, t ≠ a.phys i → b.tile t = a.tile t) ∧ sameOptics a b ∧
    b.queues = a.queues ∧ sameTime a b

/-- May port p take a management flit into its queue at once: it is ACTIVE, no HARD fence holds it, and a cell is free for
it with no flit waiting for one (R186). -/
def Dev.takesMgmt (d : Dev) (p : Nat) : Prop :=
  (d.queue p).pdn = .active ∧ d.fd F.FLT_FENCE_LEVEL p < 3 ∧ d.intCellFree = true ∧ d.core.ownTx = []

/-- One management flit with these bytes, to the port's peer, has entered S0 of port p, in a cell of its own; the
other queues are as before. -/
def framedTo (p : Nat) (bytes : List (BitVec 8)) (a b : Dev) : Prop :=
  (∃ c : QCell, (b.queue p).cells 0 = (a.queue p).cells 0 ++ [c] ∧
    c.flit = mgmtFlit a.selfId (a.fd F.CORE_PEER_ID p) bytes) ∧
  (∀ q, q ≠ 0 → (b.queue p).cells q = (a.queue p).cells q) ∧ (∀ r, r ≠ p → b.queue r = a.queue r)

/-- The descriptor x has completed with a status, reason and result, last of its ring. -/
def completedTo (x : Desc) (status reason result : Nat) (a b : Dev) : Prop :=
  (b.ring x.fn x.ring).done = (a.ring x.fn x.ring).done ++
    [{ desc := x, status := status, reason := reason, result := result, time := a.fabricTime }]

/-- The command x at the head of engine e's queue on tile i may start: the tile acts and the engine's domain is ON. -/
def Dev.engStarts (d : Dev) (i e : Nat) (x : EngCmd) : Prop :=
  d.tileUp i = true ∧ d.headCmd i e = some x ∧ d.domOn (engDom i e) = true

/-- What a command that runs leaves: it executes on its engine and has left the queue; other tiles and contexts,
ports, links, queues, captures, fabric time and barriers are as before. -/
def engRan (i e : Nat) (x : EngCmd) (a b : Dev) : Prop :=
  tblGet none (b.tile (a.phys i)).busy e = some x ∧
  ((a.tile (a.phys i)).built = [] → tblGet [] (b.tile (a.phys i)).q e = (tblGet [] (a.tile (a.phys i)).q e).drop 1) ∧
  (∀ t, t ≠ a.phys i → b.tile t = a.tile t) ∧ (∀ c, c ≠ x.ctx → b.ctx c = a.ctx c) ∧ sameOptics a b ∧
  a.queues = b.queues ∧ a.capt = b.capt ∧ sameTime a b ∧ a.flt = b.flt

/-- What a command that fails leaves: its context is FAULTED with the reason; memory and other contexts are as
before. -/
def engFailed (x : EngCmd) (reason : Nat) (a b : Dev) : Prop :=
  (b.ctx x.ctx).state = .faulted ∧ (b.ctx x.ctx).reason = reason ∧ (∀ c, c ≠ x.ctx → b.ctx c = a.ctx c) ∧
  sameOptics a b ∧ a.queues = b.queues ∧ a.capt = b.capt ∧ sameTime a b

end Sys2Proof.Machine
end

