-- ==== Sys2Proof/Certificates/Slice0/Obligations.lean ====
section
/-! DEFINITION. The statements for the provers. A command completes where exec answers the next state; what a statement
says of it is its own effect by the rules, and what it leaves. -/

open Sys2Proof Sys2Proof.Machine

/-- The step of the block, and its idling (DESIGN CHOICE, log entry 1). -/
def Obligations.StepRunsTheFrontCommand : Prop :=
  (∀ (c : Instr) (s : State), step { s with pending := c :: s.pending } = Machine.exec c s) ∧
    ∀ s : State, s.pending = [] → step s = .next s

/-- Every command completes on every state (log entry 4). -/
def Obligations.EveryCommandAnswers : Prop :=
  ∀ (c : Instr) (s : State), ∃ t, Machine.exec c s = .next t ∧ t.pending = s.pending

/-- The queue drains in bounded steps (log entries 1, 4). -/
def Obligations.TheQueueDrains : Prop :=
  ∀ s : State, ∃ t : State, t.pending = [] ∧
    ∀ n, s.pending.length ≤ n → Sys2Proof.core.run n s = Host.Outcome.next t

/-- The memories keep their canonical form (the form itself is the model's, log entry 3). -/
def Obligations.MemoryStaysCanonical : Prop :=
  ∀ s t : State, s.Inv → step s = .next t → t.Inv

/-- State.reset (R548, R550; log entries 3, 8). -/
def Obligations.ResetIsCanonicalAndIdle : Prop :=
  State.reset.Inv ∧ State.reset.pending = [] ∧ (∀ a, State.reset.mem.hbmByte a = 0) ∧
    (∀ t a, State.reset.mem.tileByte t a = 0) ∧ (∀ n, n < 87 → State.reset.dev.domState n = if n = 32 ∨ n = 33 ∨ n = 66 ∨ n = 67 then 0 else 2) ∧
    (∀ p, (State.reset.dev.port p).state = .disabled) ∧ (∀ c, (State.reset.dev.ctx c).state = .free) ∧
    State.reset.dev.fd F.BOOT_STAT_READY = 0

/-- The field maps of CORE_MCG (R169) and CORE_PORT_PART (R171). -/
def Obligations.GroupAndPartitionRegisters : Prop :=
  ((∀ m w, m < 4096 → w < 4 →
      regAt (offOf .CORE_MCG m w) = some { reg := .CORE_MCG, i := m, j := w, byte := 0 } ∧ regReset .CORE_MCG m w = 0) ∧
    (regInfo .CORE_MCG).wide = true ∧ rwMask .CORE_MCG = 2 ^ 64 - 1 ∧ readMask .CORE_MCG = 2 ^ 64 - 1 ∧
    ∀ (d : Dev) (m w b : Nat), w < 4 → b < 64 →
      (64 * w + b ∈ d.mcgPorts m ↔ (d.rawF .CORE_MCG 0 m w).testBit b = true)) ∧
  (∀ p, p < 256 → regAt (offOf .CORE_PORT_PART p 0) = some { reg := .CORE_PORT_PART, i := p, j := 0, byte := 0 } ∧
      regReset .CORE_PORT_PART p 0 = 1) ∧
  rwMask .CORE_PORT_PART = 0xFFFF ∧ readMask .CORE_PORT_PART = 0xFFFF ∧
  ∀ (d : Dev) (f : Flit) (p : Port), f.type.toNat < 6 →
    ((d.rawF .CORE_PORT_PART 0 p.val 0).testBit f.part.toNat = false →
      (d.bind (.port p) f).1 = .drop 0xF3 none ∧ (d.copyDrop f p.val).isSome = true) ∧
    ((d.rawF .CORE_PORT_PART 0 p.val 0).testBit f.part.toNat = true → d.portLicensed p.val = true →
      (d.bind (.port p) f).1 ≠ .drop 0xF3 none ∧ d.copyDrop f p.val = none)

/-- Replays without progress (R107) and the end of a restripe (R119). -/
def Obligations.NoProgressRetrainsThePort : Prop :=
  ∀ (s : State) (p : Port) (l : LinkSt), s.dev.coreUp = true → s.dev.link p.val = l →
    (∀ (c : Instr) (seq : BitVec 12),
      (c = .nakRx p seq ∧ l.accepted (0x1000 + seq.toNat) = true ∧ l.lstate = .active ∧
          steerBusy (s.dev.port p.val).txSteer = false ∧
          subMod 4096 seq.toNat (subMod 4096 l.txNext l.replayList.length) < l.replayList.length) ∨
        (c = .replayWindowFull p ∧ 2048 ≤ l.replayList.length ∧ l.cursor = none ∧ l.lstate = .active) →
      l.consec < 16 →
      ∃ d : Dev, Machine.exec c s = .next { s with dev := d } ∧
        (d.link p.val).consec = (if l.lackMoved then 0 else l.consec + 1) ∧ (d.link p.val).lackMoved = false) ∧
    ((16 ≤ l.consec ∧ ((s.dev.port p.val).state = .up ∨ (s.dev.port p.val).state = .degraded) →
      ∃ (d : Dev) (e : Evt), Machine.exec (.replayNoProgressLimit p) s = .next { s with dev := d.post e } ∧
        e.cls = 1 ∧ e.reason = 0xEF ∧ (d.port p.val).state = .training ∧ (d.port p.val).step = 1 ∧
        samePortsBut p.val s.dev d ∧ sameLinksBut p.val s.dev d ∧ d.queues = s.dev.queues ∧ sameCompute s.dev d) ∧
    ((s.dev.port p.val).state = .restripe →
      ∃ (d : Dev) (e : Evt), Machine.exec (.restripeTimeout p) s = .next { s with dev := d.post e } ∧
        e.cls = 1 ∧ e.reason = 0xEF ∧ (d.port p.val).state = .training ∧ (d.port p.val).step = 1 ∧
        samePortsBut p.val s.dev d ∧ sameLinksBut p.val s.dev d ∧ d.queues = s.dev.queues ∧ sameCompute s.dev d))

/-- Delay slots (R282). -/
def Obligations.DelaySlotsIssue : Prop :=
  ∀ (s : State) (i : TileId) (r : RunSt) (w : BitVec 128),
    (∀ c : Instr, s.dev.wordIssues i.val r w → r.branch = none →
      (c = .flowJump i .ok ∧ wFlow w = 1) ∨ (c = .flowBrt i .ok ∧ wFlow w = 2) ∨ (c = .flowBrf i .ok ∧ wFlow w = 3) →
      ∃ (m : Mem) (d : Dev) (r' : RunSt) (a : Nat), Machine.exec c s = .next (State.mk s.pending m d) ∧
        (d.tile (s.dev.phys i.val)).run = some r' ∧ r'.ctx = r.ctx ∧ r'.pc = r.pc + 1 ∧ r'.branch = some (a, 2) ∧
        (a = wTarget w ∨ (wFlow w ≠ 1 ∧ a = r.pc + 3))) ∧
    (∀ a n, s.dev.wordIssues i.val r w → wFlow w = 0 → r.branch = some (a, n) → n = 1 ∨ n = 2 →
      ∃ (m : Mem) (d : Dev) (r' : RunSt), Machine.exec (.flowNext i .ok) s = .next (State.mk s.pending m d) ∧
        (d.tile (s.dev.phys i.val)).run = some r' ∧ r'.ctx = r.ctx ∧
        (n = 2 → r'.pc = r.pc + 1 ∧ r'.branch = some (a, 1)) ∧ (n = 1 → r'.pc = a ∧ r'.branch = none)) ∧
    (∀ (c : Instr) (b : Nat × Nat), s.dev.wordAt i.val r w → wordBad w = none → r.branch = some b →
      (c = .flowJump i .ok ∧ wFlow w = 1) ∨ (c = .flowBrt i .ok ∧ wFlow w = 2) ∨ (c = .flowBrf i .ok ∧ wFlow w = 3) ∨
        (c = .flowWait i .ok ∧ wFlow w = 4 ∧ r.stall = none) ∨ (c = .flowYield i .ok ∧ wFlow w = 5) ∨
        (c = .flowEnd i .ok ∧ wFlow w = 6) ∨ (c = .flowHalt i .ok ∧ wFlow w = 7) →
      (s.dev.ctx r.ctx).state = .open_ → (s.dev.ctx r.ctx).tile = i.val → (s.dev.ctx r.ctx).spilling = false →
      (s.dev.ctx r.ctx).restoring = false →
      ∃ d : Dev, Machine.exec c s = .next { s with dev := d } ∧ haltedTo i.val r 0x04 s.dev d)

/-- special_add (R370), over words by their sign, exponent and fraction fields. -/
def Obligations.SpecialAddFollowsIeee : Prop :=
  ∀ a b : BitVec 32,
    (∀ x : BitVec 32, x = a ∨ x = b → x.extractLsb' 23 8 = 0xFF#8 → x.extractLsb' 0 23 ≠ 0#23 →
      specialAdd a b = (0x7FC00000#32, 0)) ∧
    (∀ s t : BitVec 1, a = s ++ 0xFF#8 ++ 0#23 → b = t ++ 0xFF#8 ++ 0#23 → s ≠ t →
      specialAdd a b = (0x7FC00000#32, flIV)) ∧
    (∀ s : BitVec 1, a = s ++ 0xFF#8 ++ 0#23 → b = a ∨ b.extractLsb' 23 8 ≠ 0xFF#8 → specialAdd a b = (a, 0)) ∧
    ∀ t : BitVec 1, b = t ++ 0xFF#8 ++ 0#23 → b = a ∨ a.extractLsb' 23 8 ≠ 0xFF#8 → specialAdd a b = (b, 0)

/-- D2D_TRANSFER_RECEIVE, D2D_ACK_TIMEOUT, D2D_LINK_FAIL (R17, R18). -/
def Obligations.D2dReplaysAndFails : Prop :=
  ∀ (s : State) (n : D2dNo), s.dev.coreUp = true → s.dev.d2dFailed n.val = false →
    (∀ up : Bool,
      (∃ d, Machine.exec (.d2dTransferReceive ⟨n, up⟩ false) s = .next { s with dev := d } ∧
        tblGet 0 d.d2d (d2dKey n.val up) = min 16 (tblGet 0 s.dev.d2d (d2dKey n.val up) + 1) ∧
        tblGet 0 d.d2d (d2dKey n.val !up) = tblGet 0 s.dev.d2d (d2dKey n.val !up) ∧
        d.rawF .CORE_D2D_CRC_CNT 0 n.val 0 = up1 (s.dev.rawF .CORE_D2D_CRC_CNT 0 n.val 0) ∧
        d.rawF .CORE_D2D_RETRY_CNT 0 n.val 0 = up1 (s.dev.rawF .CORE_D2D_RETRY_CNT 0 n.val 0) ∧
        d.bit F.CORE_D2D_STAT_RETRY_SEEN n.val = true ∧ d.out = s.dev.out ++ [.d2dReplay n.val] ∧
        sameRegsBut [.CORE_D2D_CRC_CNT, .CORE_D2D_RETRY_CNT, .CORE_D2D_STAT] s.dev d ∧
        sameFabric s.dev d ∧ sameCompute s.dev d ∧ sameHost s.dev d ∧ sameTime s.dev d ∧ sameSystem s.dev d) ∧
      Machine.exec (.d2dTransferReceive ⟨n, up⟩ true) s =
        .next { s with dev := { s.dev with d2d := tblPut 0 (d2dKey n.val up) 0 s.dev.d2d } } ∧
      ∃ d, Machine.exec (.d2dAckTimeout ⟨n, up⟩) s = .next { s with dev := d } ∧
        tblGet 0 d.d2d (d2dKey n.val up) = min 16 (tblGet 0 s.dev.d2d (d2dKey n.val up) + 1) ∧
        d.rawF .CORE_D2D_RETRY_CNT 0 n.val 0 = up1 (s.dev.rawF .CORE_D2D_RETRY_CNT 0 n.val 0) ∧
        d.out = s.dev.out ++ [.d2dReplay n.val] ∧ sameRegsBut [.CORE_D2D_RETRY_CNT, .CORE_D2D_STAT] s.dev d ∧
        sameFabric s.dev d ∧ sameCompute s.dev d ∧ sameHost s.dev d ∧ sameTime s.dev d ∧ sameSystem s.dev d) ∧
    ∀ unlocked, unlocked = true ∨ (∃ up, 16 ≤ tblGet 0 s.dev.d2d (d2dKey n.val up)) →
      ∃ d, Machine.exec (.d2dLinkFail n unlocked) s = .next { s with dev := d } ∧ d.d2dFailed n.val = true ∧
        d.fd F.CORE_D2D_STAT_FAIL_REASON n.val = (if n.val = 2 then 0xE5 else 0xE4) ∧
        d.ports = s.dev.ports ∧ d.links = s.dev.links ∧ d.d2d = s.dev.d2d ∧ d.time = s.dev.time

/-- PHOTODIODE_SAMPLE, ELS_POLL, ELS_INTERRUPT (R43, R45, R48, R52). -/
def Obligations.LaserModulesAreSampled : Prop :=
  ∀ (s : State) (k : Engine), s.dev.coreUp = true →
    (∀ low : BitVec 20, ∃ d, Machine.exec (.photodiodeSample k low) s = .next { s with dev := d } ∧
      (∀ f i, f < 4 → i < 5 → (s.dev.fibre (4 * k.val + f)).low.length = 5 →
        at_ 0 (d.fibre (4 * k.val + f)).low i =
          (if bitAt low.toNat (5 * f + i) then min 5 (at_ 0 (s.dev.fibre (4 * k.val + f)).low i + 1) else 0) ∧
        d.lineOk (4 * k.val + f) i = if bitAt low.toNat (5 * f + i) then
          decide (at_ 0 (s.dev.fibre (4 * k.val + f)).low i < 4) && s.dev.lineOk (4 * k.val + f) i else true) ∧
      (∀ q, q / 16 ≠ k.val → d.port q = s.dev.port q ∧ d.link q = s.dev.link q) ∧ d.els = s.dev.els ∧
      sameCompute s.dev d ∧ sameHost s.dev d ∧ d.queues = s.dev.queues ∧
      ((∀ f i, f < 4 → i < 5 → bitAt low.toNat (5 * f + i) = true →
          at_ 0 (s.dev.fibre (4 * k.val + f)).low i < 4 ∨ s.dev.lineOk (4 * k.val + f) i = false) →
        (∀ f, f < 4 → (s.dev.fibre (4 * k.val + f)).low.length = 5) →
        sameRegsBut [.OPT_ELS_STAT] s.dev d ∧ d = { s.dev with fibres := d.fibres, regs := d.regs })) ∧
    ∀ (r : ElsFlags) (c : Instr), c = .elsPoll k r ∨ c = .elsInterrupt k r →
      ∃ d, Machine.exec c s = .next { s with dev := d } ∧ d.bit F.OPT_ELS_STAT_PRESENT k.val = r.present ∧
        (d.elsOf k.val).busFails = (if r.present then
          (if r.busOk then 0 else min 3 ((s.dev.elsOf k.val).busFails + 1)) else (s.dev.elsOf k.val).busFails) ∧
        (d.elsOf k.val).dark = dimFibres r (s.dev.elsOf k.val).dark ∧
        (r.present = true → (r.busOk = true ∧ r.fault = true) ∨ (r.busOk = false ∧ 2 ≤ (s.dev.elsOf k.val).busFails) →
          d.bit F.OPT_ELS_STAT_FAULT k.val = true) ∧
        (∀ f j, f < 4 → j < 4 → ∀ q, q = 16 * k.val + 4 * f + j →
          ((dimFibres r (s.dev.elsOf k.val).dark).getLsbD f = true → (s.dev.elsOf k.val).dark.getLsbD f = false →
            (s.dev.port q).state ≠ .absent → (s.dev.port q).state ≠ .disabled →
            (d.port q).state = .down ∧ (d.port q).reason = 0xED) ∧
          ((dimFibres r (s.dev.elsOf k.val).dark).getLsbD f = false → (s.dev.elsOf k.val).dark.getLsbD f = true →
            (s.dev.port q).state = .down → (s.dev.port q).reason = 0xED →
            s.dev.bit F.OPT_ELS_STAT_SUPPORTED k.val = true →
            (d.port q).state = .dark ∧ (d.port q).reason = 0xED) ∧
          ((dimFibres r (s.dev.elsOf k.val).dark).getLsbD f = (s.dev.elsOf k.val).dark.getLsbD f →
            d.port q = s.dev.port q)) ∧
        (∀ q, q / 16 ≠ k.val → d.port q = s.dev.port q ∧ d.link q = s.dev.link q) ∧ d.fibres = s.dev.fibres ∧
        sameCompute s.dev d ∧ sameHost s.dev d ∧ d.queues = s.dev.queues ∧ s.dev.flt = d.flt

/-- WAVELENGTH_FAIL, STEER_ANN_TIMEOUT (R52-R56, R75). -/
def Obligations.FailedWavelengthMovesItsLane : Prop :=
  ∀ (s : State) (p : Port) (x : PortSt), s.dev.coreUp = true → s.dev.port p.val = x → portUp x.state = true →
    (∀ (i : Wave) (l : Nat) (errs : Option Nat), s.dev.lineOk (p.val / 4) i.val = false → x.txFail.getLsbD i.val = false →
      mapLane x.txMap i.val = some l →
      (steerBusy x.txSteer = true → Machine.exec (.wavelengthFail p false i errs) s = .next
        (s.onDev fun d => d.updPort p.val fun y => { y with pendFail := y.pendFail ++ [(false, i.val)] })) ∧
      (steerBusy x.txSteer = false →
        (spareFree x.txFail x.txMap x.spareEn = true →
          ∃ d, Machine.exec (.wavelengthFail p false i errs) s = .next { s with dev := d } ∧ d.port p.val = { x with
              txFail := x.txFail ||| BitVec.ofNat 5 (1 <<< i.val)
              txSteer := some { lane := l, fromWave := i.val, toWave := 4, countdown := 64, acked := false,
                                switched := false, repeats := 0 } } ∧
            samePortsBut p.val s.dev d ∧ d = { s.dev with ports := d.ports }) ∧
        (spareFree x.txFail x.txMap x.spareEn = false →
          ∃ d, Machine.exec (.wavelengthFail p false i errs) s = .next { s with dev := d } ∧
            narrowed p.val { x with txFail := x.txFail ||| BitVec.ofNat 5 (1 <<< i.val) } askRestripe s.dev d))) ∧
    (∀ (i : Wave) (l : Nat) (errs : Option Nat),
      errs = none ∨ (∃ n, errs = some n ∧ s.dev.rateFails n = true ∧ s.dev.underScan p.val i.val = false) →
      x.rxFail.getLsbD i.val = false → mapLane x.rxMap i.val = some l →
      (steerBusy x.rxSteer = true ∨ x.steerReq ≠ none → Machine.exec (.wavelengthFail p true i errs) s = .next
        (s.onDev fun d => d.updPort p.val fun y => { y with pendFail := y.pendFail ++ [(true, i.val)] })) ∧
      (steerBusy x.rxSteer = false → x.steerReq = none →
        (spareFree x.rxFail x.rxMap x.spareEn = true →
          ∃ d, Machine.exec (.wavelengthFail p true i errs) s = .next { s with dev := d } ∧ d.port p.val = { x with
              rxFail := x.rxFail ||| BitVec.ofNat 5 (1 <<< i.val), steerReq := some (l, i.val) } ∧
            samePortsBut p.val s.dev d ∧ d = { s.dev with ports := d.ports }) ∧
        (spareFree x.rxFail x.rxMap x.spareEn = false →
          ∃ d, Machine.exec (.wavelengthFail p true i errs) s = .next { s with dev := d } ∧
            narrowed p.val { x with rxFail := x.rxFail ||| BitVec.ofNat 5 (1 <<< i.val) }
              (askSteer l i.val ++ askRestripe) s.dev d))) ∧
    (∀ (i : Wave) (rx : Bool) (errs : Option Nat),
      (rx = false ∧ s.dev.lineOk (p.val / 4) i.val = true) ∨
        (rx = true ∧ ∃ n, errs = some n ∧ s.dev.rateFails n = false) →
      Machine.exec (.wavelengthFail p rx i errs) s = .next s) ∧
    (∀ t : Steer, x.txSteer = some t →
      (t.acked = false → t.repeats < 3 →
        Machine.exec (.steerAnnTimeout p) s = .next (s.onDev fun d => d.updPort p.val fun y => { y with
          txSteer := some { t with repeats := t.repeats + 1, countdown := 64 } })) ∧
      (t.acked = false → 3 ≤ t.repeats →
        ∃ d, Machine.exec (.steerAnnTimeout p) s = .next { s with dev := d } ∧ narrowed p.val x askRestripe s.dev d) ∧
      (t.acked = true → Machine.exec (.steerAnnTimeout p) s = .next s)) ∧
    (x.txSteer = none → Machine.exec (.steerAnnTimeout p) s = .next s)

/-- LOS, LASER_CUT_COMPLETE, CUT_NOTICE_SEND_END (R65-R69). -/
def Obligations.LossOfSignalCutsTheLaser : Prop :=
  ∀ (s : State), s.dev.coreUp = true →
    (∀ (p : Port) (x : PortSt), s.dev.port p.val = x → x.state ≠ .absent → x.los = false →
      ∃ d, Machine.exec (.los p) s = .next { s with dev := d } ∧ (d.port p.val).los = true ∧
        d.rawF .PORT_LOS_CNT 0 p.val 0 = up1 (s.dev.rawF .PORT_LOS_CNT 0 p.val 0) ∧ samePortsBut p.val s.dev d ∧
        sameCompute s.dev d ∧ sameHost s.dev d ∧ s.dev.flt = d.flt ∧ s.dev.queues = d.queues ∧
        (x.state = .disabled ∨ (x.state = .down ∧ x.reason = 0xED) →
          d.port p.val = { x with los := true } ∧ sameRegsBut [.PORT_LOS_CNT] s.dev d ∧
          d = { s.dev with ports := d.ports, regs := d.regs, hot := d.hot }) ∧
        (x.state ≠ .disabled → x.state ≠ .down ∨ x.reason ≠ 0xED →
          ((∀ t, x.noticeAt = some t → t + 9500000 < s.dev.cycle) →
            (d.port p.val).state = .dark ∧ (d.port p.val).reason = 0xE8 ∧ (d.port p.val).modOn = false ∧
            ((s.dev.fibre (p.val / 4)).cut = false → (s.dev.fibre (p.val / 4)).cutting = false →
              (d.fibre (p.val / 4)).cutting = true ∧ d.out = s.dev.out ++ [.cmis (p.val / 16) (p.val / 4 % 4) false] ∧
              d.rawF .OPT_CUT_CNT 0 (p.val / 4) 0 = up1 (s.dev.rawF .OPT_CUT_CNT 0 (p.val / 4) 0) ∧
              ∀ q, q / 4 = p.val / 4 → q ≠ p.val → portLinked (s.dev.port q).state = true →
                (d.link q).cutNotice = true)) ∧
          (∀ t, x.noticeAt = some t → s.dev.cycle ≤ t + 9500000 →
            (d.port p.val).state = .peerCut ∧ (d.port p.val).reason = 0xEC ∧ (d.port p.val).wake = true ∧
            d.out = s.dev.out ++ [.wakePattern p.val (List.replicate 5 wakePeriod)] ∧ d.fibres = s.dev.fibres))) ∧
    (∀ (m : Fibre), (s.dev.fibre m.val).cutting = true →
      ∃ d, Machine.exec (.laserCutComplete m) s = .next { s with dev := d } ∧ (d.fibre m.val).cut = true ∧
        (d.fibre m.val).cutting = false ∧ bitAt (d.fd F.OPT_ELS_STAT_CUT (m.val / 4)) (m.val % 4) = true ∧
        (∀ i, i < 4 → portLive (s.dev.port (4 * m.val + i)).state = true → (s.dev.port (4 * m.val + i)).los = false →
          (s.dev.port (4 * m.val + i)).state ≠ .dark → (d.port (4 * m.val + i)).state = .laserCut) ∧
        (∀ q, q / 4 ≠ m.val → d.port q = s.dev.port q ∧ d.link q = s.dev.link q ∧ d.fibre (q / 4) = s.dev.fibre (q / 4)) ∧
        sameCompute s.dev d ∧ sameHost s.dev d ∧ s.dev.flt = d.flt ∧ s.dev.queues = d.queues) ∧
    ∀ (p : Port), Machine.exec (.cutNoticeSendEnd p) s =
      .next { s with dev := s.dev.updLink p.val fun l => { l with cutNotice := false } }

/-- PROBE_WINDOW_START, PROBE_WINDOW_END, LIGHT_DETECTED, LASER_FIBRE_RESTORED, DOWN_RETRY_TIMER (R70-R74; that light
ends LOS, log entry 126). -/
def Obligations.LightBringsPortsToTraining : Prop :=
  ∀ (s : State), s.dev.coreUp = true →
    (∀ (m : Fibre), (s.dev.fibre m.val).cut = true → (s.dev.fibre m.val).probing = false →
      (s.dev.fibre m.val).cutting = false → s.dev.bit F.OPT_ELS_STAT_SUPPORTED (m.val / 4) = true →
      ∃ d, Machine.exec (.probeWindowStart m) s = .next { s with dev := d } ∧ (d.fibre m.val).probing = true ∧
        (d.fibre m.val).cut = true ∧ d.rawF .OPT_PROBE_CNT 0 m.val 0 = up1 (s.dev.rawF .OPT_PROBE_CNT 0 m.val 0) ∧
        .cmis (m.val / 4) (m.val % 4) true ∈ d.out ∧
        (∀ i, i < 4 → (s.dev.port (4 * m.val + i)).state = .dark → (d.port (4 * m.val + i)).modOn = true ∧
          (d.port (4 * m.val + i)).wake = true) ∧
        sameRegsBut [.OPT_PROBE_CNT] s.dev d ∧ d.links = s.dev.links ∧ sameFabric s.dev d ∧ sameCompute s.dev d ∧
        sameHost s.dev d ∧ sameTime s.dev d ∧ sameSystem s.dev d) ∧
    (∀ (m : Fibre), (s.dev.fibre m.val).probing = true →
      ((∀ i, i < 4 → (s.dev.port (4 * m.val + i)).state = .dark → (s.dev.port (4 * m.val + i)).los = false) →
        ∃ d, Machine.exec (.probeWindowEnd m) s = .next { s with dev := d } ∧ (d.fibre m.val).cut = false ∧
          (d.fibre m.val).probing = false ∧ bitAt (d.fd F.OPT_ELS_STAT_CUT (m.val / 4)) (m.val % 4) = false ∧
          ∀ i, i < 4 → (s.dev.port (4 * m.val + i)).state = .dark ∨ (s.dev.port (4 * m.val + i)).state = .laserCut →
            (d.port (4 * m.val + i)).state = .training) ∧
      (∀ i, i < 4 → (s.dev.port (4 * m.val + i)).state = .dark → (s.dev.port (4 * m.val + i)).los = true →
        (s.dev.fibre m.val).cutting = false →
        ∃ d, Machine.exec (.probeWindowEnd m) s = .next { s with dev := d } ∧ (d.fibre m.val).probing = false ∧
          (d.fibre m.val).cutting = true ∧ (d.fibre m.val).cut = (s.dev.fibre m.val).cut ∧
          (∀ q, (d.port q).state = (s.dev.port q).state) ∧ (d.port (4 * m.val + i)).modOn = false ∧
          sameCompute s.dev d ∧ sameHost s.dev d)) ∧
    (∀ (p : Port) (x : PortSt) (f : FibreSt), s.dev.port p.val = x → s.dev.fibre (p.val / 4) = f →
      (x.state = .peerCut ∨ (x.state = .dark ∧ f.cut = false ∧ f.cutting = false) →
        ∃ d, Machine.exec (.lightDetected p) s = .next { s with dev := d } ∧ (d.port p.val).state = .training ∧
          (d.port p.val).los = false ∧ (d.port p.val).step = 1 ∧ samePortsBut p.val s.dev d ∧ sameCompute s.dev d ∧
          sameHost s.dev d ∧ s.dev.flt = d.flt) ∧
      (x.state = .dark → f.cut = true → f.cutting = false → f.restoring = false → f.probing = false →
        s.dev.bit F.OPT_ELS_STAT_SUPPORTED (p.val / 4 / 4) = true →
        (∀ q, q / 4 = p.val / 4 → q ≠ p.val → (s.dev.port q).state = .dark → (s.dev.port q).los = false) →
        ∃ d, Machine.exec (.lightDetected p) s = .next { s with dev := d } ∧ d.port p.val = { x with los := false } ∧
          d.fibre (p.val / 4) = { f with restoring := true } ∧
          d.out = s.dev.out ++ [.cmis (p.val / 4 / 4) (p.val / 4 % 4) true] ∧ samePortsBut p.val s.dev d ∧
          d = { s.dev with ports := d.ports, fibres := d.fibres, out := d.out })) ∧
    (∀ (m : Fibre), (s.dev.fibre m.val).restoring = true →
      ∃ d, Machine.exec (.laserFibreRestored m) s = .next { s with dev := d } ∧ (d.fibre m.val).cut = false ∧
        (d.fibre m.val).restoring = false ∧ bitAt (d.fd F.OPT_ELS_STAT_CUT (m.val / 4)) (m.val % 4) = false ∧
        ∀ i, i < 4 → (s.dev.port (4 * m.val + i)).state = .laserCut → (d.port (4 * m.val + i)).state = .training) ∧
    ∀ (p : Port), (s.dev.port p.val).state = .down → (s.dev.port p.val).los = false → (s.dev.port p.val).reason ≠ 0xED →
      ∃ d, Machine.exec (.downRetryTimer p) s = .next { s with dev := d } ∧ (d.port p.val).state = .training ∧
        (d.port p.val).step = 1 ∧ samePortsBut p.val s.dev d ∧ sameCompute s.dev d ∧ sameHost s.dev d ∧
        s.dev.flt = d.flt

/-- TRAINING_STEP_COMPLETE, TRAINING_ADAPT_TIMEOUT, TRAINING_WORD_CAP, _RESULT, _MAP, _ABORT (R60-R63, R120-R122). -/
def Obligations.TrainingTakesItsSteps : Prop :=
  ∀ (s : State) (p : Port) (x : PortSt), s.dev.coreUp = true → s.dev.port p.val = x →
    (x.state = .training →
      (∀ errs, x.step = 1 → Machine.exec (.trainingStepComplete p errs) s =
        .next { s with dev := s.dev.updPort p.val fun y => { y with step := 2 } }) ∧
      (∀ errs, x.step = 2 → Machine.exec (.trainingStepComplete p errs) s =
        .next { s with dev := s.dev.updPort p.val fun y => { y with step := 3, retrainOp := none } }) ∧
      (x.step = 2 →
        ∃ d, Machine.exec (.trainingAdaptTimeout p) s = .next { s with dev := d } ∧ (d.port p.val).state = .down ∧
          (d.port p.val).reason = 0xE9 ∧
          d.rawF .PORT_TRAIN_FAIL_CNT 0 p.val 0 = up1 (s.dev.rawF .PORT_TRAIN_FAIL_CNT 0 p.val 0) ∧
          samePortsBut p.val s.dev d ∧ sameCompute s.dev d) ∧
      (x.step = 3 →
        (∀ (blk : Block) (t : TrainWord), trainOf 1 blk = some t → Machine.exec (.trainingWordCap p blk) s =
          .next { s with dev := s.dev.updPort p.val fun y => { y with peerCap := some t.body } }) ∧
        ∀ (errs : List (BitVec 32)) (b : BitVec 32), x.peerCap = some b →
          ∃ d, Machine.exec (.trainingStepComplete p errs) s = .next { s with dev := d } ∧
            (d.port p.val).state = .measuring ∧ (d.port p.val).step = 4 ∧ d.out = s.dev.out ++ [.prbs p.val] ∧
            ((d.port p.val).resumes = true → d.link p.val = s.dev.link p.val) ∧ samePortsBut p.val s.dev d ∧
            sameLinksBut p.val s.dev d ∧ sameCompute s.dev d)) ∧
    (x.state = .training ∨ x.state = .measuring →
      ∀ (blk : Block) (t : TrainWord), trainOf 4 blk = some t →
        ∃ d, Machine.exec (.trainingWordAbort p blk) s = .next { s with dev := d } ∧ (d.port p.val).state = .down ∧
          (d.port p.val).reason = t.body.toNat % 256 ∧
          d.rawF .PORT_TRAIN_FAIL_CNT 0 p.val 0 = up1 (s.dev.rawF .PORT_TRAIN_FAIL_CNT 0 p.val 0) ∧
          samePortsBut p.val s.dev d ∧ sameCompute s.dev d) ∧
    (x.state = .measuring →
      (∀ errs : List (BitVec 32), x.step = 4 → errs.length = 5 →
        ∃ d, Machine.exec (.trainingStepComplete p errs) s = .next { s with dev := d } ∧ (d.port p.val).step = 5 ∧
          (∀ i, i < 5 → d.rawF .PORT_BER_ERR 0 p.val i = (at_ 0 errs i).toNat) ∧ sameRegsBut [.PORT_BER_ERR] s.dev d ∧
          samePortsBut p.val s.dev d ∧ d = { s.dev with ports := d.ports, regs := d.regs }) ∧
      (x.step = 5 →
        (∀ (blk : Block) (t : TrainWord), trainOf 3 blk = some t → Machine.exec (.trainingWordMap p blk) s =
          .next { s with dev := s.dev.updPort p.val fun y => { y with peerMap := some t.body } }) ∧
        (∀ (via : Wave) (blk : Block) (t : TrainWord), trainOf 2 blk = some t → t.wave.toNat < 5 → x.peerErr.length = 5 →
          ∃ d, Machine.exec (.trainingWordResult p via blk) s = .next { s with dev := d } ∧
            at_ none (d.port p.val).peerErr t.wave.toNat = some t.body ∧ (d.port p.val).state = .measuring ∧
            samePortsBut p.val s.dev d ∧ d = { s.dev with ports := d.ports }) ∧
        ∀ errs : List (BitVec 32), (x.peerErr.all (·.isSome)) = true → x.peerMap.isSome = true →
          ∃ d, Machine.exec (.trainingStepComplete p errs) s = .next { s with dev := d } ∧ (d.port p.val).step = 6 ∧
            (d.port p.val).width = s.dev.agreedWidth p.val ∧
            (d.port p.val).txMap = laneMap x.txFail x.spareEn (s.dev.agreedWidth p.val) ∧
            samePortsBut p.val s.dev d ∧ sameLinksBut p.val s.dev d ∧
            d = { s.dev with ports := d.ports, links := d.links }) ∧
      ∀ errs : List (BitVec 32), x.step = 6 →
        (x.width = 0 ∨ x.width < x.minW →
          ∃ d, Machine.exec (.trainingStepComplete p errs) s = .next { s with dev := d } ∧ (d.port p.val).state = .down ∧
            (d.port p.val).reason = (if x.width = 0 then 0xEA else 0xEB) ∧
            d.rawF .PORT_TRAIN_FAIL_CNT 0 p.val 0 = up1 (s.dev.rawF .PORT_TRAIN_FAIL_CNT 0 p.val 0) ∧
            samePortsBut p.val s.dev d ∧ sameCompute s.dev d) ∧
        (x.width ≠ 0 → x.minW ≤ x.width → (s.dev.link p.val).aligned = true →
          ∃ d, Machine.exec (.trainingStepComplete p errs) s = .next { s with dev := d } ∧
            (d.port p.val).state = (if x.width = x.maxW then .up else .degraded) ∧ (d.port p.val).width = x.width ∧
            (d.link p.val).lstate = .init ∧ samePortsBut p.val s.dev d ∧ sameLinksBut p.val s.dev d ∧
            sameCompute s.dev d)) ∧
    ∀ blk : Block,
      (trainOf 1 blk = none → Machine.exec (.trainingWordCap p blk) s = .next s) ∧
      (∀ via : Wave, trainOf 2 blk = none → Machine.exec (.trainingWordResult p via blk) s = .next s) ∧
      (trainOf 3 blk = none → Machine.exec (.trainingWordMap p blk) s = .next s) ∧
      (trainOf 4 blk = none → Machine.exec (.trainingWordAbort p blk) s = .next s)

/-- REGISTER_WRITE, REGISTER_RC_READ, REGISTER_LOW_HALF_READ (R7, R10, R621, R622). -/
def Obligations.RegisterAccessesFollowFieldMaps : Prop :=
  ∀ (s : State) (fn : Fn),
    (∀ (r : RegName) (i : Nat) (v : BitVec 64), r ∈ [RegName.CORE_SELF, .CORE_TBL_CFG, .PORT_BER_CFG, .QOS_BUF_CFG] →
      v.toNat < 2 ^ 32 → s.dev.admits fn.val r i v.toNat = true →
      ∃ d, Machine.exec (.registerWrite fn (offOf r i 0) 4 v) s = .next { s with dev := d } ∧
        d.rawF r 0 i 0 &&& rwMask r = v.toNat &&& rwMask r ∧ sameRegsBut [r] s.dev d ∧ d.out = s.dev.out ∧
        sameOptics s.dev d ∧ sameFabric s.dev d ∧ sameCompute s.dev d ∧ sameTime s.dev d ∧ sameSystem s.dev d) ∧
    (∀ (p : Port) (h : Nat × Nat), s.dev.inReset = false →
      s.dev.hotAt (regKey .PORT_TRAIN_FAIL_CNT 0 p.val 0) = h →
      regAt (offOf .PORT_TRAIN_FAIL_CNT p.val 0) = some { reg := .PORT_TRAIN_FAIL_CNT, i := p.val, j := 0, byte := 0 } →
      (s.dev.dropSnap fn.val).accessGate fn.val (offOf .PORT_TRAIN_FAIL_CNT p.val 0) 4 none = none →
      s.dev.primary = some fn.val →
      ∃ d, Machine.exec (.registerRcRead fn (offOf .PORT_TRAIN_FAIL_CNT p.val 0) 4) s = .next { s with dev := d } ∧
        d.out = s.dev.out ++ [.readData fn.val (BitVec.ofNat 64
          ((if h.2 = 0 then s.dev.rawF .PORT_TRAIN_FAIL_CNT 0 p.val 0 else h.1) % 2 ^ 32))] ∧
        d.rawF .PORT_TRAIN_FAIL_CNT 0 p.val 0 % 2 ^ 32 = min h.2 0xFFFFFFFF ∧ sameRegsBut [.PORT_TRAIN_FAIL_CNT] s.dev d ∧
        sameOptics s.dev d ∧ sameFabric s.dev d ∧ sameCompute s.dev d ∧ sameTime s.dev d ∧ sameSystem s.dev d) ∧
    (s.dev.inReset = false →
      (s.dev.dropSnap fn.val).accessGate fn.val (offOf .CORE_TIME_NOW 0 0) 4 none = none →
      ∃ d, Machine.exec (.registerLowHalfRead fn (offOf .CORE_TIME_NOW 0 0)) s = .next { s with dev := d } ∧
        d.out = s.dev.out ++ [.readData fn.val (BitVec.ofNat 64 (s.dev.fabricTime % 2 ^ 32))] ∧
        (d.fn fn.val).snapshot = some (regKey .CORE_TIME_NOW fn.val 0 0, BitVec.ofNat 64 s.dev.fabricTime) ∧
        d.regs = s.dev.regs ∧ sameOptics s.dev d ∧ sameFabric s.dev d ∧ sameCompute s.dev d ∧ sameTime s.dev d ∧
        sameSystem s.dev d)

/-- PORT_ENABLE_WRITE, PORT_RETRAIN, QOS_PDN_FLUSH, DOMAIN_RESET, FLT_FENCE_WRITE (R76, R78, R216, R519, R592). -/
def Obligations.ControlWritesActAtOnce : Prop :=
  ∀ (s : State) (fn : Fn) (v : BitVec 32),
    (∀ (p : Port), s.dev.admits fn.val .PORT_MODE p.val v.toNat = true →
      ((s.dev.port p.val).state = .disabled → v.toNat % 2 = 1 → s.dev.hardFenced p.val = false →
        ∃ d, Machine.exec (.portEnableWrite fn p v) s = .next { s with dev := d } ∧ (d.port p.val).state = .dark ∧
          d.fd F.PORT_MODE_EN p.val = 1 ∧ samePortsBut p.val s.dev d ∧ sameCompute s.dev d ∧ sameSystem s.dev d) ∧
      ((s.dev.port p.val).state ≠ .absent → (s.dev.port p.val).state ≠ .disabled → v.toNat % 2 = 0 →
        ∃ d, Machine.exec (.portEnableWrite fn p v) s = .next { s with dev := d } ∧ (d.port p.val).state = .disabled ∧
          (d.port p.val).modOn = false ∧ d.fd F.PORT_MODE_EN p.val = 0 ∧ samePortsBut p.val s.dev d ∧
          sameCompute s.dev d ∧ s.dev.flt = d.flt)) ∧
    (∀ (p : Port), s.dev.admits fn.val .PORT_CTRL p.val v.toNat = true → v.toNat % 2 = 1 →
      portUp (s.dev.port p.val).state = true →
      ∃ d, Machine.exec (.portRetrain fn p v) s = .next { s with dev := d } ∧ retrained p.val s.dev d ∧
        sameSystem s.dev d) ∧
    (∀ (p : Port), s.dev.admits fn.val .QOS_PDN_CTRL p.val v.toNat = true → v.toNat % 2 = 1 →
      (s.dev.queue p.val).pdn = .held → (s.dev.queue p.val).noHold = false →
      ∃ d, Machine.exec (.qosPdnFlush fn p v) s = .next { s with dev := d } ∧ d.ports = s.dev.ports ∧
        (s.dev.canSend p.val = false → (d.queue p.val).pdn = .flushing ∧
          ∀ f, f ∈ (d.link p.val).replayList → f.cell = none) ∧
        (s.dev.canSend p.val = true → (d.queue p.val).pdn = .active ∧ d.links = s.dev.links)) ∧
    (∀ (n : DomNo) (k : Nat), s.dev.admits fn.val .PWR_DOM_CTRL n.val v.toNat = true → v.toNat % 2 = 1 →
      s.dev.domHome n.val = some k → s.dev.domState k = 4 →
      ∃ d, Machine.exec (.domainReset fn n v) s = .next { s with dev := d } ∧ d.domState k = 1 ∧
        d.rawF .PWR_WAKE_CNT 0 k 0 = up1 (s.dev.rawF .PWR_WAKE_CNT 0 k 0) ∧
        sameRegsBut [.PWR_DOM_STAT, .PWR_WAKE_CNT] s.dev d ∧ sameCompute s.dev d ∧ sameSystem s.dev d) ∧
    ∀ (p : Port), s.dev.admits fn.val .FLT_FENCE p.val v.toNat = true →
      ∃ d, Machine.exec (.fltFenceWrite fn p v) s = .next { s with dev := d } ∧
        d.fd F.FLT_FENCE_LEVEL p.val = v.toNat >>> 30 ∧ d.fd F.FLT_FENCE_BAR p.val = v.toNat >>> 16 % 256 ∧
        d.fd F.FLT_FENCE_EPOCH p.val = v.toNat % 65536

/-- CORE_BAR_ARRIVE, BARRIER_ARM, POOL_ENABLE (R251, R252, R463). -/
def Obligations.BarrierAndPoolWritesAct : Prop :=
  ∀ (s : State) (fn : Fn) (v : BitVec 32),
    (s.dev.admits fn.val .CORE_BAR_ARRIVE 0 v.toNat = true →
      (s.dev.bit F.CORE_BAR_VALID (v.toNat % 256) = false →
        ∃ d, Machine.exec (.coreBarArrive fn v) s = .next { s with dev := d } ∧ d.bars = s.dev.bars ∧
          d.rawF .CORE_BAR_PROTO_CNT 0 0 0 = up1 (s.dev.rawF .CORE_BAR_PROTO_CNT 0 0 0) ∧
          sameRegsBut [.CORE_BAR_PROTO_CNT] s.dev d ∧ sameCompute s.dev d ∧ sameSystem s.dev d) ∧
      (s.dev.bit F.CORE_BAR_VALID (v.toNat % 256) = true → s.dev.bit F.CORE_BAR_LOCAL (v.toNat % 256) = true →
        s.dev.bar (v.toNat % 256) = { BarSt.reset with epoch := (s.dev.bar (v.toNat % 256)).epoch } →
        ∃ d, Machine.exec (.coreBarArrive fn v) s = .next { s with dev := d } ∧
          (d.bar (v.toNat % 256)).arrived = [256] ∧ (d.bar (v.toNat % 256)).state ≠ .idle ∧
          (d.bar (v.toNat % 256)).failed = false ∧ sameCompute s.dev d ∧ sameSystem s.dev d)) ∧
    (∀ (b : BarId), s.dev.admits fn.val .CORE_BAR b.val v.toNat = true → 2 ^ 31 ≤ v.toNat →
      (s.dev.bar b.val).failed = true ∨ (s.dev.bar b.val).state = .idle →
      ∃ d, Machine.exec (.barrierArm fn b v) s = .next { s with dev := d } ∧ d.bar b.val = BarSt.reset ∧
        d.bit F.CORE_BAR_VALID b.val = true ∧ sameRegsBut [.CORE_BAR] s.dev d ∧ sameCompute s.dev d ∧
        sameSystem s.dev d) ∧
    ∀ (k : Die), s.dev.admits fn.val .POOL_CTRL k.val v.toNat = true → v.toNat % 2 = 1 →
      s.dev.bit F.POOL_CTRL_EN k.val = false →
      ∃ d, Machine.exec (.poolEnable fn k v) s = .next { s with dev := d } ∧ d.bit F.POOL_CTRL_EN k.val = true ∧
        (∀ p, p < 4 → (d.pool k.val p).state = 1) ∧ d.pool k.val 4 = s.dev.pool k.val 4 ∧
        sameRegsBut [.POOL_CTRL] s.dev d ∧ sameSystem s.dev d

/-- CR_ENABLE, CR_DISABLE, CR_STOP, CR_RESUME, EQ_ENABLE (R503, R496). -/
def Obligations.RingsFollowTheirControls : Prop :=
  ∀ (s : State) (fn : Fn) (r : RingNo) (v : BitVec 32),
    (s.dev.admits fn.val .HOST_CR_CFG r.val v.toNat = true → 2 ^ 31 ≤ v.toNat →
      (s.dev.ring fn.val r.val).state = .disabled → s.dev.fdF F.HOST_CR_CFG_EN fn.val r.val 0 = 0 →
      ∃ d, Machine.exec (.crEnable fn r v) s = .next { s with dev := d } ∧ (d.ring fn.val r.val).state = .running ∧
        (d.ring fn.val r.val).cons = s.dev.fdF F.HOST_CR_START_IDX fn.val r.val 0 ∧
        (d.ring fn.val r.val).prod = s.dev.fdF F.HOST_CR_START_IDX fn.val r.val 0 ∧
        (d.ring fn.val r.val).expSeq = s.dev.fdF F.HOST_CR_START_SEQ fn.val r.val 0 ∧
        (d.ring fn.val r.val).lastConsumed = (s.dev.fdF F.HOST_CR_START_SEQ fn.val r.val 0 + 2 ^ 32 - 1) % 2 ^ 32 ∧
        sameRegsBut [.HOST_CR_CFG] s.dev d ∧ sameOptics s.dev d ∧ sameFabric s.dev d ∧ sameCompute s.dev d ∧
        sameTime s.dev d ∧ sameSystem s.dev d) ∧
    (s.dev.admits fn.val .HOST_CR_CFG r.val v.toNat = true → v.toNat < 2 ^ 31 →
      (s.dev.ring fn.val r.val).state = .running → (s.dev.ring fn.val r.val).accepted = [] →
      (s.dev.ring fn.val r.val).active = [] → (s.dev.ring fn.val r.val).done = [] →
      ∃ d, Machine.exec (.crDisable fn r v) s = .next { s with dev := d } ∧ (d.ring fn.val r.val).state = .disabled ∧
        d.fdF F.HOST_CR_CFG_EN fn.val r.val 0 = 0 ∧ sameRegsBut [.HOST_CR_CFG] s.dev d ∧ sameOptics s.dev d ∧
        sameFabric s.dev d ∧ sameCompute s.dev d ∧ sameTime s.dev d ∧ sameSystem s.dev d) ∧
    (s.dev.admits fn.val .HOST_CR_CTRL r.val v.toNat = true →
      (v.toNat % 4 = 1 → (s.dev.ring fn.val r.val).state = .running →
        ∃ d, Machine.exec (.crStop fn r v) s = .next { s with dev := d } ∧
          ((s.dev.ring fn.val r.val).accepted ≠ [] ∨ (s.dev.ring fn.val r.val).active ≠ [] →
            (d.ring fn.val r.val).state = .stopping) ∧
          ((s.dev.ring fn.val r.val).accepted = [] → (s.dev.ring fn.val r.val).active = [] →
            (s.dev.ring fn.val r.val).done = [] → (d.ring fn.val r.val).state = .stopped) ∧
          d.regs = s.dev.regs ∧ sameOptics s.dev d ∧ sameFabric s.dev d ∧ sameCompute s.dev d ∧ sameTime s.dev d ∧
          sameSystem s.dev d) ∧
      (v.toNat % 4 = 2 → (s.dev.ring fn.val r.val).state = .stopped →
        ∃ d, Machine.exec (.crResume fn r v) s = .next { s with dev := d } ∧ (d.ring fn.val r.val).state = .running ∧
          (d.ring fn.val r.val).expSeq = (s.dev.ring fn.val r.val).expSeq ∧ d.regs = s.dev.regs ∧ sameOptics s.dev d ∧
          sameFabric s.dev d ∧ sameCompute s.dev d ∧ sameTime s.dev d ∧ sameSystem s.dev d)) ∧
    ∀ (e : RingNo), e.val < 4 → s.dev.admits fn.val .HOST_EQ_CFG e.val v.toNat = true → 2 ^ 31 ≤ v.toNat →
      s.dev.fdF F.HOST_EQ_CFG_EN fn.val e.val 0 = 0 → s.dev.sys.boot.holding = false →
      ∃ d, Machine.exec (.eqEnable fn e v) s = .next { s with dev := d } ∧ ((d.fn fn.val).eqOf e.val).prod = 0 ∧
        ((d.fn fn.val).eqOf e.val).cons = 0 ∧ ((d.fn fn.val).eqOf e.val).eseq = ((s.dev.fn fn.val).eqOf e.val).eseq ∧
        d.fdF F.HOST_EQ_CFG_EN fn.val e.val 0 = 1 ∧ sameRegsBut [.HOST_EQ_CFG] s.dev d ∧ d.out = s.dev.out ∧
        sameOptics s.dev d ∧ sameFabric s.dev d ∧ sameCompute s.dev d ∧ sameTime s.dev d ∧ sameSystem s.dev d

/-- OWN_OFFER, OWN_WITHDRAW, OWN_ACCEPT, OWN_CLAIM, OWN_OFFER_TIMEOUT, OWN_ORPHAN_TIMEOUT, PART_OWN_WRITE,
HOST_LEVEL_WRITE (R505, R506, R511). -/
def Obligations.OwnershipMovesByRule : Prop :=
  ∀ (s : State) (fn : Fn) (v : BitVec 32),
    (s.dev.admits fn.val .HOST_OWN_CTRL 0 v.toNat = true →
      (v.toNat % 8 = 1 → s.dev.fd F.HOST_OWN_STATE = 0 → s.dev.fd F.HOST_OWN_PRIMARY = fn.val →
        ∃ d, Machine.exec (.ownOffer fn v) s = .next { s with dev := d } ∧ d.fd F.HOST_OWN_STATE = 1 ∧
          d.fd F.HOST_OWN_PRIMARY = fn.val) ∧
      (v.toNat % 8 = 2 → s.dev.fd F.HOST_OWN_STATE = 1 → s.dev.fd F.HOST_OWN_PRIMARY = fn.val →
        ∃ d, Machine.exec (.ownWithdraw fn v) s = .next { s with dev := d } ∧ d.fd F.HOST_OWN_STATE = 0 ∧
          d.fd F.HOST_OWN_PRIMARY = fn.val) ∧
      (v.toNat % 8 = 3 → s.dev.fd F.HOST_OWN_STATE = 1 → s.dev.fd F.HOST_OWN_PRIMARY ≠ fn.val →
        ∃ d, Machine.exec (.ownAccept fn v) s = .next { s with dev := d } ∧ d.fd F.HOST_OWN_STATE = 0 ∧
          d.fd F.HOST_OWN_PRIMARY = fn.val) ∧
      (v.toNat % 8 = 4 → s.dev.fd F.HOST_OWN_STATE = 2 →
        ∃ d, Machine.exec (.ownClaim fn v) s = .next { s with dev := d } ∧ d.fd F.HOST_OWN_STATE = 0 ∧
          d.fd F.HOST_OWN_PRIMARY = fn.val) ∧
      (v.toNat % 8 = 2 → s.dev.fd F.HOST_OWN_STATE = 0 → (s.dev.hotAt ownKey).1 = fn.val + 1 →
        ∃ d, Machine.exec (.ownWithdraw fn v) s = .next { s with dev := d } ∧ d.fd F.HOST_OWN_STATE = 0 ∧
          d.fd F.HOST_OWN_PRIMARY = fn.val) ∧
      (∀ (c : Instr) (st pr : Nat), s.dev.fd F.HOST_OWN_STATE = st → s.dev.fd F.HOST_OWN_PRIMARY = pr →
        (c = .ownOffer fn v ∧ v.toNat % 8 = 1 ∧ (st ≠ 0 ∨ pr ≠ fn.val)) ∨
          (c = .ownWithdraw fn v ∧ v.toNat % 8 = 2 ∧ (st ≠ 1 ∨ pr ≠ fn.val) ∧
            (st ≠ 0 ∨ (s.dev.hotAt ownKey).1 ≠ fn.val + 1)) ∨
          (c = .ownAccept fn v ∧ v.toNat % 8 = 3 ∧ (st ≠ 1 ∨ pr = fn.val)) ∨
          (c = .ownClaim fn v ∧ v.toNat % 8 = 4 ∧ st ≠ 2) →
        ∃ d, Machine.exec c s = .next { s with dev := d } ∧
          d.rawF .HOST_OWN_REFUSE_CNT 0 0 0 = up1 (s.dev.rawF .HOST_OWN_REFUSE_CNT 0 0 0) ∧
          sameRegsBut [.HOST_OWN_REFUSE_CNT] s.dev d)) ∧
    (s.dev.inReset = false →
      (s.dev.fd F.HOST_OWN_STATE = 1 →
        ∃ d, Machine.exec .ownOfferTimeout s = .next { s with dev := d } ∧ d.fd F.HOST_OWN_STATE = 0 ∧
          d.fd F.HOST_OWN_PRIMARY = s.dev.fd F.HOST_OWN_PRIMARY) ∧
      (s.dev.fd F.HOST_OWN_STATE ≠ 2 → (s.dev.fn (s.dev.fd F.HOST_OWN_PRIMARY)).linkUp = false →
        ∃ d, Machine.exec .ownOrphanTimeout s = .next { s with dev := d } ∧ d.fd F.HOST_OWN_STATE = 2 ∧
          d.fd F.HOST_OWN_PRIMARY = s.dev.fd F.HOST_OWN_PRIMARY)) ∧
    (s.dev.admits fn.val .HOST_PART_OWN 0 v.toNat = true →
      ∃ d, Machine.exec (.partOwnWrite fn v) s = .next { s with dev := d } ∧
        (∀ k, k < 16 → s.dev.mayMove k = true →
          bitsOf (d.fd F.HOST_PART_OWN_OWNER) (2 * k + 1) (2 * k) = bitsOf v.toNat (2 * k + 1) (2 * k)) ∧
        (∀ k, k < 16 → s.dev.mayMove k = false → d.partOwner k = s.dev.partOwner k) ∧
        sameRegsBut [.HOST_PART_OWN, .HOST_OWN_REFUSE_CNT] s.dev d ∧ sameCompute s.dev d ∧ sameSystem s.dev d) ∧
    (s.dev.admits fn.val .HOST_LEVEL 0 v.toNat = true → s.dev.qmr = [] →
      ∃ d, Machine.exec (.hostLevelWrite fn v) s = .next { s with dev := d } ∧
        ∀ f, 1 ≤ f → f ≤ 6 → d.expert f = bitAt v.toNat f)

/-- INGRESS_BIND, SCHEDULER_VISIT (R141, R163, R194; the client whose turn a core cycle is: log entry 128). -/
def Obligations.FlitsAreBoundAndScheduled : Prop :=
  ∀ s : State, s.dev.coreUp = true →
    (∀ (p : Port) (r : RxFlit) (rest : List RxFlit), (s.dev.link p.val).rx = r :: rest → r.early = false → r.extra = [] →
      r.flit.type.toNat < 6 → s.dev.bindable (.port p) r.flit = true → s.dev.partReset r.flit.part.toNat = false →
      bitAt (s.dev.fd F.CORE_PORT_PART_MASK p.val) r.flit.part.toNat = true → r.flit.dst.toNat ≠ s.dev.selfId →
      (s.dev.bit F.CORE_FWD_VALID r.flit.dst.toNat = false →
        ∃ d, Machine.exec (.ingressBind (.port p)) s = .next { s with dev := d } ∧
          d.rawF .CORE_NOROUTE_CNT 0 p.val 0 = up1 (s.dev.rawF .CORE_NOROUTE_CNT 0 p.val 0) ∧
          (d.link p.val).rx = rest ∧ d.core.free = s.dev.core.free + 1 ∧ d.core.backed = s.dev.core.backed + 1 ∧
          d.core.ingressQ = s.dev.core.ingressQ ∧ sameRegsBut [.CORE_NOROUTE_CNT, .CORE_DROP_CAP] s.dev d ∧
          d = { s.dev with core := d.core, links := d.links, capt := d.capt, regs := d.regs, hot := d.hot }) ∧
      (∀ q : Port, s.dev.bit F.CORE_FWD_VALID r.flit.dst.toNat = true →
        bitAt (s.dev.fd F.CORE_FWD_PMASK r.flit.dst.toNat) r.flit.part.toNat = true →
        s.dev.fd F.CORE_FWD_MODE r.flit.dst.toNat = 0 → s.dev.fd F.CORE_FWD_TARGET r.flit.dst.toNat = q.val →
        s.dev.portLicensed q.val = true → bitAt (s.dev.fd F.CORE_PORT_PART_MASK q.val) r.flit.part.toNat = true →
        r.flit.type.toNat = 1 → r.flit.exp = false → r.flit.vl.toNat < 5 → s.dev.flowOf (.port p) r.flit = none →
        s.dev.bit F.QOS_CLASS_MET_EN (8 * r.flit.part.toNat + r.flit.vl.toNat) = false →
        ∃ d c, Machine.exec (.ingressBind (.port p)) s = .next { s with dev := d } ∧
          tblGet [] d.core.ingressQ (p.val / 8) = tblGet [] s.dev.core.ingressQ (p.val / 8) ++ [c] ∧
          c.flit = r.flit ∧ c.src = .port p ∧ c.eg = q.val / 8 ∧ c.ports = [q.val] ∧ c.dyn = false ∧
          c.queue = s.dev.classQueue r.flit none ∧ c.ranks = [s.dev.pushRank q.val c.queue] ∧
          c.group = flowHash r.flit.src.toNat r.flit.dst.toNat r.flit.part.toNat r.flit.vl.toNat r.flit.ctx.toNat
            (s.dev.fd F.CORE_LB_CFG_SEED) ∧
          (∃ w, d.core.waiting = s.dev.core.waiting ++ [w] ∧ w.port = p.val ∧ w.vl = r.flit.vl.toNat) ∧
          (d.link p.val).rx = rest ∧ d = { s.dev with core := d.core, links := d.links, capt := d.capt })) ∧
    (∀ c : Client, (s.dev.turnOf c).1 = false ∨ (s.dev.turnOf c).2 ∈ s.dev.core.visited →
      Machine.exec (.schedulerVisit c) s = .next s) ∧
    (∀ (p : Port) (q : Nat) (c : QCell) (rest : List QCell), s.dev.cycle % 10 = p.val % 8 →
      p.val / 8 ∉ s.dev.core.visited → (s.dev.queue p.val).pdn = .active → s.dev.scopeHeld 1 p.val = false →
      (s.dev.link p.val).txSel.length = 1 → q < 4 → q ≠ 2 → s.dev.eligible p.val q = true →
      (∀ k, k < q → k ≠ 2 → s.dev.eligible p.val k = false) → (s.dev.queue p.val).cells q = c :: rest →
      ∃ d, Machine.exec (.schedulerVisit (.port p)) s = .next { s with dev := d } ∧
        (d.link p.val).txSel = (s.dev.link p.val).txSel ++ [{ queue := q, cell := c, stomp := false }] ∧
        (d.queue p.val).cells q = rest ∧ (∀ k, k ≠ q → (d.queue p.val).cells k = (s.dev.queue p.val).cells k) ∧
        d = { s.dev with
          queues := d.queues, links := d.links
          core := { s.dev.core with visited := s.dev.core.visited ++ [p.val / 8] } }) ∧
    (∀ i : TileId, s.dev.cycle % 10 = 8 → i.val ∉ s.dev.core.visited →
      ∃ d, Machine.exec (.schedulerVisit (.tile i)) s = .next { s with dev := d } ∧
        tblGet [] d.core.tileRx i.val =
          tblGet [] s.dev.core.tileRx i.val ++ (tblGet [] s.dev.core.tileQ i.val).take 2 ∧
        tblGet [] d.core.tileQ i.val = (tblGet [] s.dev.core.tileQ i.val).drop 2 ∧
        d = { s.dev with core := { s.dev.core with
          visited := s.dev.core.visited ++ [i.val], tileQ := d.core.tileQ, tileRx := d.core.tileRx } }) ∧
    ∀ g : Group, s.dev.cycle % 10 = 9 → g.val ∉ s.dev.core.visited →
      Machine.exec (.schedulerVisit (.sink g)) s =
        .next (s.onDev fun d => d.updCore fun x => { x with visited := x.visited ++ [g.val] })

/-- SLOT_COUNTER_TICK, STAGE_ONE_CROSSING, STAGE_TWO_CROSSING, S2_CROSSING (R137, R139, R144, R156, R160, R162). -/
def Obligations.CrossingsFollowTheSlot : Prop :=
  ∀ s : State, s.dev.coreUp = true →
    ((∀ t, (s.dev.tile t).run = none ∧ (s.dev.tile t).arr = []) → s.dev.sys.pwr.accs = [] → s.dev.core.tmo = [] →
      s.dev.core.express = [] → s.dev.core.waiting = [] →
      ∃ d, Machine.exec .slotCounterTick s = .next { s with dev := d } ∧
        (s.dev.time.locked = false →
          d.core.slot = (s.dev.core.slot + 1) % 32 ∧ d.core.matched = 0 ∧ d.core.slotLocked = false ∧
            sameRegsBut [.CORE_SLOT_STAT] s.dev d) ∧
        (s.dev.time.locked = true → s.dev.fabricCycle % 32 = (s.dev.core.slot + 1) % 32 →
          d.core.slot = (s.dev.core.slot + 1) % 32 ∧ d.core.matched = min 32 (s.dev.core.matched + 1) ∧
            d.core.slotLocked = (s.dev.core.slotLocked || decide (31 ≤ s.dev.core.matched)) ∧ d.regs = s.dev.regs) ∧
        (s.dev.time.locked = true → s.dev.fabricCycle % 32 = s.dev.core.slot →
          d.core.slot = s.dev.core.slot ∧ d.core.matched = 0 ∧ d.core.slotLocked = s.dev.core.slotLocked ∧
            d.rawF .CORE_SLOT_ADJ_CNT 0 0 0 = up1 (s.dev.rawF .CORE_SLOT_ADJ_CNT 0 0 0) ∧
            sameRegsBut [.CORE_SLOT_ADJ_CNT] s.dev d) ∧
        d = { s.dev with
          cycle := s.dev.cycle + 1, hot := d.hot, regs := d.regs, tiles := d.tiles
          core := { s.dev.core with
            slot := d.core.slot, matched := d.core.matched, slotLocked := d.core.slotLocked, used1 := [], used2 := []
            visited := [], arb := 0, rep := d.core.rep } }) ∧
    (∀ g : Group, 2 ≤ tblGet 0 s.dev.core.used1 g.val + (s.dev.s2Ready g.val).length →
      Machine.exec (.stageOneCrossing g) s = .next s) ∧
    (∀ (g : Group) (c : Cell) (rest : List Cell), tblGet [] s.dev.core.ingressQ g.val = c :: rest → c.dyn = false →
      c.group = (g.val + s.dev.core.slot) % 32 → c.die = none →
      tblGet 0 s.dev.core.used1 g.val + (s.dev.s2Ready g.val).length < 2 →
      ∃ d, Machine.exec (.stageOneCrossing g) s = .next { s with dev := d } ∧
        tblGet [] d.core.ingressQ g.val = rest ∧
        tblGet [] d.core.interQ c.group = tblGet [] s.dev.core.interQ c.group ++ [c] ∧
        tblGet 0 d.core.used1 g.val = tblGet 0 s.dev.core.used1 g.val + 1 ∧
        d = { s.dev with core := { s.dev.core with
          ingressQ := d.core.ingressQ, interQ := d.core.interQ, used1 := d.core.used1 } }) ∧
    (∀ (g : Group) (c : Cell) (rest : List Cell), tblGet [] s.dev.core.interQ g.val = c :: rest → c.dyn = true →
      c.eg = (g.val + s.dev.core.slot) % 32 → tblGet 0 s.dev.core.used2 g.val < 2 →
      ∃ d, Machine.exec (.stageTwoCrossing g) s = .next { s with dev := d } ∧
        tblGet [] d.core.interQ g.val = rest ∧
        tblGet [] d.core.reseqIn c.eg = tblGet [] s.dev.core.reseqIn c.eg ++ [c] ∧
        tblGet 0 d.core.used2 g.val = tblGet 0 s.dev.core.used2 g.val + 1 ∧
        d = { s.dev with core := { s.dev.core with
          interQ := d.core.interQ, reseqIn := d.core.reseqIn, used2 := d.core.used2 } }) ∧
    ∀ (g : Group) (p : Port) (w : S2Wait), (s.dev.s2Ready g.val).head? = some w → w.port = p.val →
      tblGet 0 s.dev.core.used1 g.val < 2 →
      ∃ d, Machine.exec (.s2Crossing g p) s = .next { s with dev := d } ∧
        d.core.s2wait = (s.dev.core.s2wait.map fun y => if y = w then { y with crossed := some s.dev.cycle } else y) ∧
        tblGet 0 d.core.used1 g.val = tblGet 0 s.dev.core.used1 g.val + 1 ∧
        d = { s.dev with core := { s.dev.core with
          flows := d.core.flows, s2wait := d.core.s2wait, used1 := d.core.used1 } }

/-- RESEQ_ARRIVE, RESEQ_HOLE, RESEQ_TIMEOUT, TABLE_UPDATE_COMMIT, TABLE_UPDATE_DRAIN_COMPLETE,
TABLE_UPDATE_DRAIN_TIMEOUT (R151, R174, R175, R177). -/
def Obligations.ResequencersAndTableUpdates : Prop :=
  ∀ s : State, s.dev.coreUp = true →
    (∀ (g : Group) (c : Cell) (rest : List Cell) (r : Reseq), tblGet [] s.dev.core.reseqIn g.val = c :: rest →
      s.dev.reseqOf g.val = [r] → r.covers c.src c.flit = true → c.head = false → r.live = true →
      (behind 65536 c.flit.mseq.toNat r.expect = true → c.ports.length = 1 →
        ∃ d, Machine.exec (.reseqArrive g) s = .next { s with dev := d } ∧
          d.rawF .CORE_RESEQ_LATE_CNT 0 g.val 0 = up1 (s.dev.rawF .CORE_RESEQ_LATE_CNT 0 g.val 0) ∧
          tblGet [] d.core.reseqIn g.val = rest ∧ d.core.reseq = s.dev.core.reseq ∧
          sameRegsBut [.CORE_RESEQ_LATE_CNT] s.dev d ∧ d = { s.dev with core := d.core, regs := d.regs, hot := d.hot }) ∧
      (c.flit.mseq.toNat = (r.expect + 1) % 65536 → r.expect < 65536 → r.held = [] → r.holes = [] →
        (s.dev.core.flows.any fun e => e.src == r.src && e.fsrc == r.fsrc && e.fdst == r.fdst &&
          e.part == r.part && e.vl == r.vl) = true →
        ∃ d, Machine.exec (.reseqArrive g) s = .next { s with dev := d } ∧
          d.reseqOf g.val = [{ r with held := [(c.flit.mseq.toNat, c)], since := some s.dev.cycle }] ∧
          d = { s.dev with core := { s.dev.core with reseqIn := d.core.reseqIn, reseq := d.core.reseq } })) ∧
    (∀ (g : Group) (e : FlowEnt) (ms : Nat) (r : Reseq), tblGet [] s.dev.core.reseqHole g.val = [(e, ms)] →
      s.dev.reseqOf g.val = [r] → e.src = r.src → e.fsrc = r.fsrc → e.fdst = r.fdst → e.part = r.part → e.vl = r.vl →
      ms ≠ r.expect → ms ∉ r.holes →
      ∃ d, Machine.exec (.reseqHole g) s = .next { s with dev := d } ∧
        d.reseqOf g.val = [{ r with holes := r.holes ++ [ms] }] ∧
        d = { s.dev with core := { s.dev.core with reseqHole := d.core.reseqHole, reseq := d.core.reseq } }) ∧
    (∀ g : Group, (∀ r, r ∈ s.dev.reseqOf g.val → r.held = []) → Machine.exec (.reseqTimeout g) s = .next s) ∧
    (∀ (g : Group) (ms t : Nat) (c : Cell) (r : Reseq), s.dev.reseqOf g.val = [r] → r.held = [(ms, c)] → ms < 65536 →
      r.expect < 65536 → r.since = some t → t + max 1 (s.dev.fd F.CORE_RESEQ_CFG_TIMEOUT) ≤ s.dev.cycle →
      ∃ d, Machine.exec (.reseqTimeout g) s = .next { s with dev := d } ∧
        d.rawF .CORE_RESEQ_GAP_CNT 0 g.val 0 =
          min (s.dev.rawF .CORE_RESEQ_GAP_CNT 0 g.val 0 + subMod 65536 ms r.expect) 0xFFFFFFFF ∧
        (∀ r', r' ∈ d.reseqOf g.val → r'.held = []) ∧ sameOptics s.dev d ∧ sameCompute s.dev d ∧ sameTime s.dev d ∧
        sameHost s.dev d ∧ sameSystem s.dev d) ∧
    (∀ (u : Update) (x : Desc), s.dev.core.updWait = [u] → u.reason = 0 → u.fn < 2 →
      s.dev.openDesc u.fn u.ring u.order = some x → s.dev.cutReason x = none → s.dev.draining < 8 →
      s.dev.olderUpdate u.order = false →
      ∃ d, Machine.exec .tableUpdateCommit s = .next { s with dev := d } ∧ d.core.updWait = [] ∧
        d.core.updates = s.dev.core.updates ++ [{ u with cells := s.dev.boundCells }] ∧
        d.regs = (s.dev.putRecs (tblRecs x)).regs ∧
        d = { s.dev with regs := d.regs, core := { s.dev.core with updWait := [], updates := d.core.updates } }) ∧
    ∀ (u : Update) (rest : List Update) (x : Desc), s.dev.core.updates = u :: rest →
      s.dev.openDesc u.fn u.ring u.order = some x → (∀ v, rest.head? = some v → v.reason = 0) →
      ((∀ id, id ∈ u.cells → (s.dev.cellRef id).unsent = 0) →
        Machine.exec .tableUpdateDrainComplete s = .next { s with dev :=
          (s.dev.updCore fun c => { c with updates := rest }).complete x 0 0 0 }) ∧
      ∃ d, Machine.exec .tableUpdateDrainTimeout s = .next { s with dev := d } ∧ d.core.updates = rest ∧
        d.rawF .CORE_TBL_TIMEOUT_CNT 0 0 0 = up1 (s.dev.rawF .CORE_TBL_TIMEOUT_CNT 0 0 0) ∧
        (d.ring x.fn x.ring).done = (s.dev.ring x.fn x.ring).done ++
          [{ desc := x, status := 1, reason := 0xF6, result := 0, time := s.dev.fabricTime }] ∧
        sameRegsBut [.CORE_TBL_TIMEOUT_CNT] s.dev d ∧
        d = { s.dev with core := { s.dev.core with updates := rest }, regs := d.regs, hot := d.hot, fns := d.fns }

/-- CREDIT_ARBITRATION, SHAPER_TICK, TELEMETRY_SAMPLE, TELEMETRY_RECORD_WRITE, MIRROR_CAPTURE, MIRROR_RECORD_WRITE
(R190, R198, R202, R204, R208, R209). -/
def Obligations.CreditsBucketsAndRecords : Prop :=
  ∀ s : State, s.dev.coreUp = true →
    (∀ (k : WaitKey) (w : WaitCr), s.dev.waiters = [(k, .credit w)] → s.dev.core.waiting = [w] → s.dev.core.arb < 4 →
      (1 ≤ s.dev.slack →
        ∃ d, Machine.exec .creditArbitration s = .next { s with dev := d } ∧
          (d.link w.port).due = updAt (s.dev.link w.port).due w.vl (· + 1) ∧ sameLinksBut w.port s.dev d ∧
          d = { s.dev with
            links := d.links
            core := { s.dev.core with
              waiting := [], backed := s.dev.core.backed + 1, arb := s.dev.core.arb + 1 } }) ∧
      (s.dev.slack < 1 → s.dev.pushOut k.rank = none → Machine.exec .creditArbitration s = .next s)) ∧
    (∃ d, Machine.exec .shaperTick s = .next { s with dev := d } ∧
      (∀ (p : Port) (q : Fin 16), tblGet 0 (d.queue p.val).spent q.val =
        tblGet 0 (s.dev.queue p.val).spent q.val - s.dev.fd F.QOS_SHAPE_RATE p.val q.val) ∧
      d = { s.dev with queues := d.queues }) ∧
    (∀ h, s.dev.bit F.QOS_TELE_CFG_EN = true → s.dev.scopeHeld 5 0 = false →
      (if s.dev.time.locked then s.dev.fabricCycle else s.dev.cycle) % 2 ^ s.dev.teleK = 0 → s.dev.capt.tele = [] →
      s.dev.primary = some h → s.dev.teleFull h = false →
      Machine.exec .telemetrySample s = .next { s with dev := s.dev.updCapt fun c => { c with
        sampleNo := (c.sampleNo + 1) % m32
        tele := ((List.range 256).filter fun p =>
          bitAt (s.dev.fd F.QOS_TELE_PMASK_PORTS (p / 64)) (p % 64)).map fun p =>
            { port := p, bytes := s.dev.teleRecord p s.dev.capt.sampleNo } } }) ∧
    (∀ (h : Nat) (r : TeleRec) (rest : List TeleRec), s.dev.capt.tele = r :: rest → s.dev.primary = some h →
      s.dev.fdF F.HOST_TELE_CFG_EN h 0 0 = 1 → s.dev.teleFull h = false → s.dev.d2dFailed 2 = false →
      ∃ d, Machine.exec .telemetryRecordWrite s = .next { s with dev := d } ∧ d.capt.tele = rest ∧
        d.capt.teleLost = false ∧ (d.fn h).teleProd = ((s.dev.fn h).teleProd + 1) % m32 ∧
        d = { s.dev with capt := { s.dev.capt with tele := rest, teleLost := false }, fns := d.fns, out := d.out }) ∧
    (∀ (e : MirrEvt) (rest : List MirrEvt), s.dev.capt.evts = e :: rest →
      (s.dev.cycle ≤ e.cycle → Machine.exec .mirrorCapture s = .next s) ∧
      (e.cycle < s.dev.cycle → (∀ f, f < 8 → s.dev.mirrMatch f e = false) →
        Machine.exec .mirrorCapture s = .next { s with dev := s.dev.updCapt fun c => { c with evts := rest } }) ∧
      (e.cycle < s.dev.cycle → s.dev.mirrMatch 0 e = true → (∀ f, 1 ≤ f → f < 8 → s.dev.mirrMatch f e = false) →
        at_ 0 s.dev.capt.filtCnt 0 % 2 ^ s.dev.fd F.MIRR_FLT_CFG_SAMPLE 0 = 0 → s.dev.capt.mirrQ.length < 256 →
        s.dev.capt.took ≠ s.dev.cycle + 1 →
        Machine.exec .mirrorCapture s = .next { s with dev := s.dev.updCapt fun c => { c with
          evts := rest, filtCnt := updAt c.filtCnt 0 (· + 1), took := s.dev.cycle + 1
          mirrQ := c.mirrQ ++ [{ bytes := s.dev.mirrRecord e 0 }] } })) ∧
    ∀ (r : MirrRec) (rest : List MirrRec) (n k : Nat), s.dev.capt.mirrQ = r :: rest →
      s.dev.fd F.MIRR_CTRL_DEST = 0 → s.dev.fd F.MIRR_CTRL_MODE = 1 →
      n = ringLog2 0 (s.dev.fd F.MIRR_CTRL_SIZE_LOG2) →
      s.dev.captureRing (s.dev.fd F.MIRR_BASE_BASE / 2 ^ n * 2 ^ n) n = some k → s.dev.d2dFailed k = false →
      ∃ d, Machine.exec .mirrorRecordWrite s = .next (State.mk s.pending (s.mem.hbmWrite
          (s.dev.fd F.MIRR_BASE_BASE / 2 ^ n * 2 ^ n + 64 * (s.dev.fd F.MIRR_WPTR_WPTR % 2 ^ (n - 6)))
          (bytesPut r.bytes 42
            (leBytes 1 (byteAt r.bytes 42 ||| b2n s.dev.capt.mirrLost <<< 1)))) d) ∧
        d.fd F.MIRR_WPTR_WPTR = (s.dev.fd F.MIRR_WPTR_WPTR + 1) % 2 ^ 64 ∧ sameRegsBut [.MIRR_WPTR] s.dev d ∧
        d = { s.dev with capt := { s.dev.capt with mirrQ := rest, mirrLost := false }, regs := d.regs }

/-- PORT_QUEUES_HELD, HOLD_TIMER_EXPIRY, FLUSH_COMPLETE (R212, R213). -/
def Obligations.QueuesBehindADownPort : Prop :=
  ∀ (s : State) (p : Port), s.dev.coreUp = true →
    ((s.dev.port p.val).state = .down → (s.dev.queue p.val).pdn = .active → (s.dev.link p.val).txSel = [] →
      s.dev.fd F.QOS_PDN_CFG_HOLD p.val ≠ 0 →
      ∃ d, Machine.exec (.portQueuesHeld p) s = .next { s with dev := d } ∧
        d.queue p.val = { s.dev.queue p.val with
          pdn := .held, timer := true, cap := s.dev.fd F.QOS_PDN_CFG_HOLD_CAP p.val, noHold := false } ∧
        d.link p.val = s.dev.link p.val ∧ d = { s.dev with queues := d.queues, links := d.links }) ∧
    (s.dev.canSend p.val = true → (s.dev.queue p.val).pdn = .held →
      ∀ c : Instr, c = .portQueuesHeld p ∨ (c = .holdTimerExpiry p ∧ (s.dev.queue p.val).timer = true) →
        Machine.exec c s = .next { s with dev := s.dev.updQueue p.val fun t => { t with
          pdn := .active, timer := false, noHold := false } }) ∧
    ((s.dev.port p.val).state = .down → (s.dev.queue p.val).pdn = .held → (s.dev.queue p.val).timer = true →
      ∃ d, Machine.exec (.holdTimerExpiry p) s = .next { s with dev := d } ∧ (d.queue p.val).pdn = .flushing ∧
        (d.queue p.val).timer = false ∧ (d.link p.val).replayList = [] ∧ d.ports = s.dev.ports) ∧
    ((s.dev.queue p.val).pdn = .flushing → s.dev.heldCells p.val = 0 →
      (s.dev.canSend p.val = true →
        Machine.exec (.flushComplete p) s = .next { s with dev := s.dev.updQueue p.val fun t => { t with
          pdn := .active, timer := false, noHold := false } }) ∧
      (s.dev.canSend p.val = false → s.dev.fd F.FLT_FENCE_LEVEL p.val = 0 → s.dev.fd F.QOS_PDN_CFG_HOLD p.val ≠ 0 →
        Machine.exec (.flushComplete p) s = .next { s with dev := s.dev.updQueue p.val fun t => { t with
          pdn := .held, timer := true, noHold := false, cap := s.dev.fd F.QOS_PDN_CFG_HOLD_CAP p.val } }))

/-- CTX_SETUP, CTX_FREE, CTX_ABORT, CTX_TMO_EXPIRY (R227, R228, R229). -/
def Obligations.ContextsMoveThroughTheirStates : Prop :=
  ∀ s : State,
    (∀ (fn : Fn) (r : RingNo) (x : Desc), s.dev.inReset = false → s.dev.descTaken x = false →
      s.dev.cutReason x = none →
      (s.dev.inHand fn.val r.val 2 = some x →
        ((s.dev.ctx (x.arg 28 2 % 4096)).state = .free →
          s.dev.treeOk x.mcast (x.arg 30 1 % 32) x.part x.buflen (treeOf x.data) = true →
          (s.dev.freeSlot (x.arg 30 1 % 32) = none → s.dev.d2dFailed (x.arg 28 2 % 4096 % 2) = false) →
          ∃ m d, Machine.exec (.ctxSetup fn r) s = .next (State.mk s.pending m d) ∧
            d.ctx (x.arg 28 2 % 4096) = { CtxSt.reset with
              state := .armed, part := x.part, tile := x.arg 30 1 % 32, desc := treeOf x.data
              slot := s.dev.freeSlot (x.arg 30 1 % 32) } ∧
            (∀ c, c ≠ x.arg 28 2 % 4096 → d.ctx c = s.dev.ctx c) ∧
            (d.ring x.fn x.ring).done = (s.dev.ring x.fn x.ring).done ++
              [{ desc := x, status := 0, reason := 0, result := 0, time := s.dev.fabricTime }] ∧
            sameRegsBut [.TILE_CTX_EXC, .TILE_CTX_EXCCAP, .TILE_CTX_EXCPOS, .TILE_CTX_ENC, .TILE_CTX_FA] s.dev d ∧
            (s.dev.freeSlot (x.arg 30 1 % 32) ≠ none → m = s.mem ∧
              d = { s.dev with ctxs := d.ctxs, regs := d.regs, fns := d.fns }) ∧
            (s.dev.freeSlot (x.arg 30 1 % 32) = none →
              hbmSameBut s.mem m (256 * spillGranule (x.arg 28 2 % 4096)) ((treeOf x.data).footprint + 512) ∧
              d = { s.dev with
                ctxs := d.ctxs, regs := d.regs, fns := d.fns, hbm := d.hbm, freeCount := d.freeCount })) ∧
        ((s.dev.ctx (x.arg 28 2 % 4096)).state ≠ .free →
          Machine.exec (.ctxSetup fn r) s = .next { s with dev := s.dev.refuse x 0xC8 })) ∧
      (s.dev.inHand fn.val r.val 3 = some x →
        ((s.dev.ctx (x.arg 28 2 % 4096)).state = .armed → (s.dev.ctx (x.arg 28 2 % 4096)).spilling = false →
          (s.dev.ctx (x.arg 28 2 % 4096)).restoring = false →
          ∃ d, Machine.exec (.ctxFree fn r) s = .next { s with dev := d } ∧
            d.ctx (x.arg 28 2 % 4096) = CtxSt.reset ∧ (∀ c, c ≠ x.arg 28 2 % 4096 → d.ctx c = s.dev.ctx c) ∧
            (d.ring x.fn x.ring).done = (s.dev.ring x.fn x.ring).done ++
              [{ desc := x, status := 0, reason := 0, result := 0, time := s.dev.fabricTime }] ∧
            sameRegsBut [.TILE_CTX_EXC, .TILE_CTX_FA] s.dev d ∧
            d = { s.dev with ctxs := d.ctxs, tiles := d.tiles, core := d.core, regs := d.regs, fns := d.fns }) ∧
        ((s.dev.ctx (x.arg 28 2 % 4096)).state = .open_ →
          Machine.exec (.ctxFree fn r) s = .next { s with dev := s.dev.complete x 4 0 0 })) ∧
      (s.dev.inHand fn.val r.val 4 = some x → (s.dev.ctx (x.arg 28 2 % 4096)).live = true →
        (s.dev.ctx (x.arg 28 2 % 4096)).spilling = false → (s.dev.ctx (x.arg 28 2 % 4096)).restoring = false →
        ∃ d, Machine.exec (.ctxAbort fn r) s = .next { s with dev := d } ∧
          (d.ctx (x.arg 28 2 % 4096)).state = .faulted ∧ (d.ctx (x.arg 28 2 % 4096)).reason = 0xC9 ∧
          (∀ c, c ≠ x.arg 28 2 % 4096 → d.ctx c = s.dev.ctx c) ∧
          (d.ring x.fn x.ring).done = (s.dev.ring x.fn x.ring).done ++
            [{ desc := x, status := 0, reason := 0, result := 0, time := s.dev.fabricTime }] ∧
          sameRegsBut [.FLT_STATUS, .HOST_EVT_DROP_CNT] s.dev d ∧
          d = { s.dev with
            ctxs := d.ctxs, tiles := d.tiles, core := d.core, regs := d.regs, hot := d.hot, fns := d.fns, flt := d.flt
            out := d.out })) ∧
    ∀ c : CtxId, s.dev.coreUp = true → (s.dev.ctx c.val).state = .open_ → (s.dev.ctx c.val).desc.tmo ≠ 0 →
      (s.dev.ctx c.val).spilling = false → (s.dev.ctx c.val).restoring = false →
      ∃ d, Machine.exec (.ctxTmoExpiry c) s = .next { s with dev := d } ∧ (d.ctx c.val).state = .faulted ∧
        (d.ctx c.val).reason = 0xC0 ∧ (d.ctx c.val).missing = (s.dev.ctx c.val).missingRank ∧
        (∃ e, d.core.tmo = s.dev.core.tmo ++ [(c.val, e)] ∧ e.cls = 2 ∧ e.reason = 0xC0 ∧
          e.part = some (s.dev.ctx c.val).part) ∧
        (∀ c', c' ≠ c.val → d.ctx c' = s.dev.ctx c') ∧ sameRegsBut [.FLT_STATUS] s.dev d ∧
        d = { s.dev with ctxs := d.ctxs, tiles := d.tiles, core := d.core, regs := d.regs, hot := d.hot }

/-- CONTRIBUTION_ARRIVE, CONTRIBUTION_RETRY, SPILL_COMPLETE, RESTORE_COMPLETE (R231, R234, R260). -/
def Obligations.ContributionsAndResidency : Prop :=
  ∀ s : State,
    (∀ (i : TileId) (q : QCell) (rest : List QCell), s.dev.tileUp i.val = true →
      tblGet [] s.dev.core.tileRx i.val = q :: rest → q.flit.type.toNat = 2 →
      (s.dev.core.ctxWait.any fun w => w.2.1.src == q.src) = false →
      (s.dev.verdict i.val q.flit = .drop →
        ∃ d, Machine.exec (.contributionArrive i) s = .next { s with dev := d } ∧
          d.rawF .TILE_CTX_DROP_CNT 0 i.val 0 = up1 (s.dev.rawF .TILE_CTX_DROP_CNT 0 i.val 0) ∧
          tblGet [] d.core.tileRx i.val = rest ∧ sameRegsBut [.TILE_CTX_DROP_CNT] s.dev d ∧
          d = { s.dev with core := d.core, regs := d.regs, hot := d.hot, links := d.links }) ∧
      (s.dev.verdict i.val q.flit = .take 0 → (s.dev.ctx q.flit.ctx.toNat).state = .armed →
        (s.dev.ctx q.flit.ctx.toNat).desc.user = false → (s.dev.ctx q.flit.ctx.toNat).desc.gather = false →
        2 ≤ (s.dev.ctx q.flit.ctx.toNat).desc.nchild → s.dev.fd F.TILE_CTX_FA_MODE q.flit.ctx.toNat = 0 →
        q.flit.form.toNat = 0 → q.flit.ofs = 0 →
        ∃ d, Machine.exec (.contributionArrive i) s = .next { s with dev := d } ∧
          (d.ctx q.flit.ctx.toNat).state = .open_ ∧ tblGet 0 (d.ctx q.flit.ctx.toNat).next 0 = 1 ∧
          tblGet [] (d.ctx q.flit.ctx.toNat).acc 0 =
            (List.range ((s.dev.ctx q.flit.ctx.toNat).desc.elemsAt 0)).map (fun j =>
              (expandElem (s.dev.ctx q.flit.ctx.toNat).desc.inFmt q.flit.payload j).1) ∧
          (d.ctx q.flit.ctx.toNat).held = [] ∧ (∀ c, c ≠ q.flit.ctx.toNat → d.ctx c = s.dev.ctx c) ∧
          tblGet [] d.core.tileRx i.val = rest ∧ d.ports = s.dev.ports ∧ d.queues = s.dev.queues ∧
          sameTime s.dev d ∧ sameSystem s.dev d)) ∧
    (s.dev.coreUp = true →
      (∀ (i k : Nat) (q : QCell) (b : Bool), s.dev.core.ctxWait = [(i, q, b)] → s.dev.verdict i q.flit = .take k →
        Machine.exec .contributionRetry s = .next (s.onMem fun m d =>
          takeFlit i q.flit.ctx.toNat k q m (d.updCore fun x => { x with ctxWait := [] }))) ∧
      ∀ (c : CtxId) (t : Nat), (s.dev.ctx c.val).slot = some t → (s.dev.ctx c.val).pendFault = none →
        (s.dev.ctx c.val).pendFree = false →
        ((s.dev.ctx c.val).spilling = true →
          ∃ m d, Machine.exec (.spillComplete c) s = .next (State.mk s.pending m d) ∧
            d.ctx c.val = { s.dev.ctx c.val with
              spilling := false, slot := none, image := slotImage s.mem (s.dev.phys (s.dev.ctx c.val).tile) t } ∧
            d.rawF .TILE_SPILL_CNT 0 (s.dev.ctx c.val).tile 0 =
              up1 (s.dev.rawF .TILE_SPILL_CNT 0 (s.dev.ctx c.val).tile 0) ∧
            hbmSameBut s.mem m (256 * spillGranule c.val) ((s.dev.ctx c.val).desc.footprint + 512) ∧
            (∀ c', c' ≠ c.val → d.ctx c' = s.dev.ctx c') ∧ sameRegsBut [.TILE_SPILL_CNT] s.dev d ∧
            d = { s.dev with
              ctxs := d.ctxs, regs := d.regs, hot := d.hot, hbm := d.hbm, freeCount := d.freeCount }) ∧
        ((s.dev.ctx c.val).restoring = true → (∀ g, g ∈ s.dev.spillGranules c.val → s.dev.hbmFails g = false) →
          ∃ d, Machine.exec (.restoreComplete c ReadErr.none_) s = .next { s with
              dev := d, mem := slotLoad s.mem (s.dev.phys (s.dev.ctx c.val).tile) t (s.dev.ctx c.val).image } ∧
            d.ctx c.val = { s.dev.ctx c.val with restoring := false, image := [] } ∧
            d.rawF .TILE_RESTORE_CNT 0 (s.dev.ctx c.val).tile 0 =
              up1 (s.dev.rawF .TILE_RESTORE_CNT 0 (s.dev.ctx c.val).tile 0) ∧
            (∀ c', c' ≠ c.val → d.ctx c' = s.dev.ctx c') ∧ sameRegsBut [.TILE_RESTORE_CNT] s.dev d ∧
            d = { s.dev with ctxs := d.ctxs, regs := d.regs, hot := d.hot }))

/-- FABRIC_TIME_TICK, TIME_EXCHANGE_TIMER, SYNC_RX, SYNC_REPLY_RX, ANNOUNCE_RX (R244, R247, R248, R264; log entries 23, 111). -/
def Obligations.FabricTimeIsKept : Prop :=
  ∀ s : State, s.dev.coreUp = true →
    (∀ adj : Int, adj = max (-131) (min 131 s.dev.time.slewLeft) →
      Machine.exec .fabricTimeTick s = .next { s with dev := { s.dev with time := { s.dev.time with
        t19 := ((s.dev.time.t19 : Int) + 655360 + adj).toNat % (2 ^ 64 * 19)
        slewLeft := s.dev.time.slewLeft - adj } } }) ∧
    (∀ p : Nat, ({ s.dev with time := { s.dev.time with cfg := s.dev.rawF .CORE_TIME_CFG 0 0 0 } } : Dev).isMaster = true →
      s.dev.activePorts = [p] → s.dev.bit F.CORE_PEER_VALID p = true → s.dev.fd F.FLT_FENCE_LEVEL p = 0 →
      (s.dev.queue p).pdn = .active → s.dev.core.ownTx = [] → s.dev.core.backed + 2 ≤ s.dev.core.free →
      s.dev.core.intUsed + 2 ≤ s.dev.intRsv →
      ∃ d c1 c2, Machine.exec .timeExchangeTimer s = .next { s with dev := d } ∧
        d.time = { s.dev.time with
          seqNo := (s.dev.time.seqNo + 1) % 65536, cfg := s.dev.rawF .CORE_TIME_CFG 0 0 0, upport := none
          locked := true, slewLeft := 0 } ∧
        (d.queue p).cells 1 = (s.dev.queue p).cells 1 ++ [c1, c2] ∧
        c1.flit = { timeFlit s.dev.selfId 0 (timePayload 1 ((s.dev.time.seqNo + 1) % 65536) 0 0 0 0 0) with
          dst := BitVec.ofNat 16 (s.dev.fd F.CORE_PEER_ID p) } ∧
        c2.flit = { timeFlit s.dev.selfId 0 (timePayload 3 0 0 0 s.dev.selfId 0 (s.dev.fd F.CORE_TIME_CFG_PRIO)) with
          dst := BitVec.ofNat 16 (s.dev.fd F.CORE_PEER_ID p) } ∧
        sameRegsBut [.CORE_TIME_STAT] s.dev d ∧
        d = { s.dev with core := d.core, queues := d.queues, capt := d.capt, time := d.time, regs := d.regs }) ∧
    ∀ (p t : Nat) (f : Flit), s.dev.core.btRx = [(p, f, t)] →
      (plByte f.payload 0 = 1 → s.dev.bit F.CORE_PEER_VALID p = true → s.dev.fd F.FLT_FENCE_LEVEL p = 0 →
        (s.dev.queue p).pdn = .active → s.dev.core.ownTx = [] → s.dev.intCellFree = true →
        ∃ d c, Machine.exec .syncRx s = .next { s with dev := d } ∧ d.core.btRx = [] ∧
          (d.queue p).cells 1 = (s.dev.queue p).cells 1 ++ [c] ∧
          c.flit = { timeFlit s.dev.selfId 0 (timePayload 2 (plLe f.payload 2 2) (plLe f.payload 8 8)
              ((t + 2 ^ 64 - 18 * nsUnit) % 2 ^ 64) 0 0 0) with
            dst := BitVec.ofNat 16 (s.dev.fd F.CORE_PEER_ID p) } ∧
          d = { s.dev with core := d.core, queues := d.queues, capt := d.capt }) ∧
      (∀ (t4 : Nat) (theta : Int), plByte f.payload 0 = 2 → t4 = (t + 2 ^ 64 - 18 * nsUnit) % 2 ^ 64 →
        theta = (stampDiff (plLe f.payload 16 8) (plLe f.payload 8 8) - stampDiff t4 (plLe f.payload 24 8)) / 2 →
        ∃ d, Machine.exec .syncReplyRx s = .next { s with dev := d } ∧ d.core.btRx = [] ∧
          d.bit F.CORE_PEER_VALID p = true ∧ d.fd F.CORE_PEER_ID p = f.src.toNat ∧
          d.bit F.CORE_PORT_DELAY_VALID p = true ∧
          (s.dev.time.upport ≠ some p → d.time = s.dev.time) ∧
          (s.dev.time.upport = some p → s.dev.isMaster = false → 10 * nsUnit < theta.natAbs →
            theta.natAbs ≤ 1000 * nsUnit → d.time.slewLeft = 19 * theta ∧ d.time.locked = false) ∧
          d = { s.dev with core := { s.dev.core with btRx := [] }, time := d.time, regs := d.regs, hot := d.hot }) ∧
      (plByte f.payload 0 = 3 →
        ∃ d, Machine.exec .announceRx s = .next { s with dev := d } ∧ d.core.btRx = [] ∧
          tblGet none d.time.heard p = (if plByte f.payload 39 = 0xFF ∧ plLe f.payload 36 2 = 0xFFFF ∧
              plByte f.payload 38 = 0xFF then none
            else some { prio := plByte f.payload 39, master := plLe f.payload 36 2, hops := plByte f.payload 38 }) ∧
          sameRegsBut [.CORE_TIME_STAT] s.dev d ∧
          d = { s.dev with core := { s.dev.core with btRx := [] }, time := d.time, regs := d.regs, hot := d.hot })

/-- BARRIER_ARRIVE_RX, BARRIER_RELEASE_RX, BARRIER_RELEASE_TIME, BARRIER_TIMEOUT (R252, R253, R598). -/
def Obligations.BarriersGatherAndRelease : Prop :=
  ∀ s : State, s.dev.coreUp = true →
    (∀ (p t b : Nat) (f : Flit), s.dev.core.btRx = [(p, f, t)] → b = plByte f.payload 1 →
      (plByte f.payload 0 = 0x10 →
        (s.dev.bit F.CORE_BAR_VALID b = false →
          ∃ d, Machine.exec .barrierArriveRx s = .next { s with dev := d } ∧ d.core.btRx = [] ∧
            d.rawF .CORE_BAR_PROTO_CNT 0 0 0 = up1 (s.dev.rawF .CORE_BAR_PROTO_CNT 0 0 0) ∧
            sameRegsBut [.CORE_BAR_PROTO_CNT] s.dev d ∧
            d = { s.dev with core := { s.dev.core with btRx := [] }, regs := d.regs, hot := d.hot }) ∧
        (∀ c, s.dev.bit F.CORE_BAR_VALID b = true → s.dev.fd F.CORE_BAR_PART b = f.part.toNat →
          p ∈ s.dev.barChildren b → c ∈ s.dev.barMembers b → c ≠ p → (s.dev.bar b).failed = false →
          (s.dev.bar b).state = .idle → plLe f.payload 2 2 = (s.dev.bar b).epoch →
          Machine.exec .barrierArriveRx s = .next { s with dev :=
            (s.dev.updCore fun x => { x with btRx := [] }).updBar b fun x => { x with
              state := .gather, arrived := [p] } })) ∧
      (plByte f.payload 0 = 0x11 → s.dev.bit F.CORE_BAR_VALID b = true → s.dev.bit F.CORE_BAR_ROOT b = false →
        s.dev.fd F.CORE_BAR_PART b = f.part.toNat → s.dev.fd F.CORE_BAR_PARENT b = p → (s.dev.bar b).failed = false →
        (s.dev.bar b).state = .wait → plLe f.payload 2 2 = (s.dev.bar b).epoch →
        s.dev.reached (plLe f.payload 8 8) = false →
        ∃ d, Machine.exec .barrierReleaseRx s = .next { s with dev := d } ∧ d.core.btRx = [] ∧
          d.bar b = { s.dev.bar b with state := .releasing, tr := plLe f.payload 8 8, early := [] } ∧
          (∀ b', b' ≠ b → d.bar b' = s.dev.bar b') ∧
          d = { s.dev with
            core := d.core, bars := d.bars, queues := d.queues, capt := d.capt, regs := d.regs, hot := d.hot
            freeCount := d.freeCount })) ∧
    ∀ b : BarId, (s.dev.bar b.val).failed = false →
      ((s.dev.bar b.val).state = .releasing → s.dev.reached (s.dev.bar b.val).tr = true → (s.dev.bar b.val).early = [] →
        s.dev.sys.xfer.job = none →
        ∃ d, Machine.exec (.barrierReleaseTime b) s = .next { s with dev := d } ∧
          d.bar b.val = { s.dev.bar b.val with
            state := .idle, epoch := ((s.dev.bar b.val).epoch + 1) % 65536, arrived := [], early := []
            last := some (s.dev.cycle, (s.dev.bar b.val).epoch) } ∧
          (∀ p, p < 256 → s.dev.fd F.FLT_FENCE_LEVEL p = 2 → s.dev.fd F.FLT_FENCE_BAR p = b.val →
            s.dev.fd F.FLT_FENCE_EPOCH p = (s.dev.bar b.val).epoch → d.fd F.FLT_FENCE_LEVEL p = 0) ∧
          (∀ b', b' ≠ b.val → d.bar b' = s.dev.bar b') ∧ sameOptics s.dev d ∧ sameCompute s.dev d ∧
          d.time = s.dev.time) ∧
      ((s.dev.bar b.val).state = .gather ∨ (s.dev.bar b.val).state = .wait → s.dev.fd F.CORE_BAR_CFG_TMO ≠ 0 →
        ∃ d, Machine.exec (.barrierTimeout b) s = .next { s with dev := d } ∧
          d.bar b.val = { s.dev.bar b.val with failed := true, reason := 0xCB } ∧
          (s.dev.barWaiters b.val = [] →
            (∀ p, p < 256 → s.dev.fd F.FLT_FENCE_LEVEL p = 2 → s.dev.fd F.FLT_FENCE_BAR p ≠ b.val) →
            (∀ b', b' ≠ b.val → d.bar b' = s.dev.bar b') ∧ sameOptics s.dev d ∧ sameCompute s.dev d ∧
              d.time = s.dev.time))

/-- ENGINE_COMMAND_COMPLETE, SUM_RESERVED_CODE, MOVE_RESERVED_CODE, SORT_RESERVED_CODE, SIFT_RESERVED_CODE
(R320, R362). -/
def Obligations.EnginesCompleteAndRefuseReservedCodes : Prop :=
  ∀ (s : State) (i : TileId) (e : Fin 4) (x : EngCmd),
    (s.dev.tileUp i.val = true → tblGet none (s.dev.tile (s.dev.phys i.val)).busy e.val = some x →
      (∀ f, f ∈ tblGet [] s.dev.core.srcQ (256 + i.val) → f.cmd = x.serial + 1 → f.cell.isSome = true) →
      (∀ c, (s.dev.ctx c).held = []) →
      ∃ d, Machine.exec (.engineCommandComplete i e) s = .next { s with dev := d } ∧
        tblGet none (d.tile (s.dev.phys i.val)).busy e.val = none ∧
        d.rawF (cmdCounter e.val) 0 i.val 0 = up1 (s.dev.rawF (cmdCounter e.val) 0 i.val 0) ∧
        d.ctxs = s.dev.ctxs ∧ d.core = s.dev.core ∧ sameOptics s.dev d ∧ sameTime s.dev d ∧ d.flt = s.dev.flt) ∧
    (s.dev.engStarts i.val e.val x → (s.dev.ctx x.ctx).live = true → (s.dev.ctx x.ctx).spilling = false →
      (s.dev.ctx x.ctx).restoring = false →
      ∀ (c : Instr) (known reason : Nat),
        (c = .sumReservedCode i ReadErr.none_ ∧ e.val = 0 ∧ known = 3 ∧ reason = 0x20) ∨
        (c = .moveReservedCode i ReadErr.none_ ∧ e.val = 1 ∧ known = 7 ∧ reason = 0x40) ∨
        (c = .sortReservedCode i ReadErr.none_ ∧ e.val = 2 ∧ known = 2 ∧ reason = 0x60) ∨
        (c = .siftReservedCode i ReadErr.none_ ∧ e.val = 3 ∧ known = 5 ∧ reason = 0x80) →
        x.code = 0 ∨ known < x.code →
        ∃ d, Machine.exec c s = .next { s with dev := d } ∧ engFailed x reason s.dev d ∧
          d.bit F.TILE_ENG_FAULT_VALID i.val = true)

/-- SUM_FOLD, SUM_FOLDP, SUM_CONV (R330-R332). -/
def Obligations.SumWritesItsDestination : Prop :=
  ∀ (s : State) (i : TileId) (x : EngCmd) (q : EngX) (io : Io), s.dev.engStarts i.val 0 x →
    q = s.dev.engX i.val 0 x ReadErr.none_ → io = { m := s.mem, d := s.dev, fail := none } →
    (x.code = 1 → firstBad (foldChecks q io) = none →
      ∃ m d, Machine.exec (.sumFold i ReadErr.none_) s = .next (State.mk s.pending m d) ∧ engRan i.val 0 x s.dev d ∧
        tileSameBut s.mem m q.pt (x.opc + x.opb * 8 * epf (sumIfmt x)) (8 * epf (sumIfmt x)) ∧
        (sumNsrc x = 1 → sumInit x = true →
          m.tileRead q.pt (x.opc + x.opb * 8 * epf (sumIfmt x)) (8 * epf (sumIfmt x)) =
            accBytes ((expandFlit (sumIfmt x) (payloadOf (s.mem.tileRead q.pt x.opa 256))).map (·.1)))) ∧
    (x.code = 2 → firstBad (foldpChecks q io) = none →
      ∃ m d, Machine.exec (.sumFoldp i ReadErr.none_) s = .next (State.mk s.pending m d) ∧ engRan i.val 0 x s.dev d ∧
        tileSameBut s.mem m q.pt x.opc (8 * x.opb) ∧
        (x.opb = 1 → m.tileRead q.pt x.opc 8 =
          accBytes [(combine (sumOp x) (sumIfmt x == 9)
            ((accsOf (sumIfmt x) 1 (s.mem.tileRead q.pt x.opc 8)).getD 0 (0, 0))
            ((accsOf (sumIfmt x) 1 (s.mem.tileRead q.pt x.opa 8)).getD 0 (0, 0))).1])) ∧
    (x.code = 3 → firstBad (convChecks q io) = none →
      ∃ m d, Machine.exec (.sumConv i ReadErr.none_) s = .next (State.mk s.pending m d) ∧ engRan i.val 0 x s.dev d ∧
        tileSameBut s.mem m q.pt x.opc (256 * ceilDiv x.opb (epf (sumOfmt x))) ∧
        (x.opb ≤ epf (sumOfmt x) → sumRound x = 0 → m.tileRead q.pt x.opc 256 =
          payloadBytes (convFlit (sumOfmt x) (accsOf (sumIfmt x) x.opb (s.mem.tileRead q.pt x.opa (8 * x.opb)))
            fun _ => none).1))

/-- MOVE_COPY, MOVE_GATHER, MOVE_SCATTER, MOVE_SEND, MOVE_DISPATCH (R338-R343). -/
def Obligations.MoveCopiesAndSends : Prop :=
  ∀ (s : State) (i : TileId) (x : EngCmd) (q : EngX) (io : Io), s.dev.engStarts i.val 1 x →
    q = s.dev.engX i.val 1 x ReadErr.none_ → io = { m := s.mem, d := s.dev, fail := none } →
    (x.code = 1 → firstBad (copyChecks q io) = none →
      (mvSsp x = 1 → s.dev.granOk q x.opa (x.opc / 256) true false) →
      (mvDsp x = 1 → s.dev.granOk q x.opb (x.opc / 256) false true) →
      ∃ m d, Machine.exec (.moveCopy i ReadErr.none_) s = .next (State.mk s.pending m d) ∧ engRan i.val 1 x s.dev d ∧
        spSameBut s.mem m q.pt (mvDsp x) x.opb x.opc ∧
        ∀ k, k < x.opc → spByte m q.pt (mvDsp x) x.opb k = spByte s.mem q.pt (mvSsp x) x.opa k) ∧
    (x.code = 2 →
      ∃ m d, Machine.exec (.moveGather i ReadErr.none_) s = .next (State.mk s.pending m d) ∧
        spSameBut s.mem m q.pt (mvDsp x) x.opb (x.opc * 32 <<< mvEsz x) ∧
        ∀ idx, firstBad (indexChecks mvBase EngCmd.opb q io) = none → x.opc = 1 → mvSsp x = 0 → mvDsp x = 0 →
          idx = ofLe (s.mem.tileRead q.pt x.opa 4) → idx < mvLimit x →
          q.okTile (mvBase x + idx * (32 <<< mvEsz x)) (32 <<< mvEsz x) false = true →
          q.okTile x.opb (32 <<< mvEsz x) true = true →
          engRan i.val 1 x s.dev d ∧ m.tileRead q.pt x.opb (32 <<< mvEsz x) =
            s.mem.tileRead q.pt (mvBase x + idx * (32 <<< mvEsz x)) (32 <<< mvEsz x)) ∧
    (x.code = 3 →
      ∃ m d, Machine.exec (.moveScatter i ReadErr.none_) s = .next (State.mk s.pending m d) ∧
        spSameBut s.mem m q.pt (mvDsp x) (mvBase x) (mvLimit x * 32 <<< mvEsz x) ∧
        ∀ idx, firstBad (indexChecks EngCmd.opb mvBase q io) = none → x.opc = 1 → mvSsp x = 0 → mvDsp x = 0 →
          idx = ofLe (s.mem.tileRead q.pt x.opa 4) → idx < mvLimit x →
          q.okTile (mvBase x + idx * (32 <<< mvEsz x)) (32 <<< mvEsz x) true = true →
          q.okTile x.opb (32 <<< mvEsz x) false = true →
          engRan i.val 1 x s.dev d ∧ m.tileRead q.pt (mvBase x + idx * (32 <<< mvEsz x)) (32 <<< mvEsz x) =
            s.mem.tileRead q.pt x.opb (32 <<< mvEsz x)) ∧
    (x.code = 4 → firstBad (sendChecks q io) = none → mvSsp x = 0 → x.opc = 1 → mvEnc x = 0 →
      ∃ d f, Machine.exec (.moveSend i ReadErr.none_) s = .next { s with dev := d } ∧ engRan i.val 1 x s.dev d ∧
        tblGet [] d.core.srcQ (256 + i.val) = tblGet [] s.dev.core.srcQ (256 + i.val) ++ [f] ∧
        f.flit.type = BitVec.ofNat 4 (mvType x) ∧ f.flit.vl = BitVec.ofNat 3 (sendVl x) ∧
        f.flit.dst = BitVec.ofNat 16 (mvDst x) ∧ f.flit.ofs = BitVec.ofNat 32 x.opb ∧
        f.flit.part = BitVec.ofNat 4 q.part ∧ f.flit.payload = payloadOf (s.mem.tileRead q.pt x.opa 256)) ∧
    (∀ r m : Nat, x.code = 5 → firstBad (dispatchChecks q io) = none → mvSsp x = 0 → x.opc = 1 → mvRowf x = 1 →
      mvEnc x = 0 → m = leAt (s.mem.tileRead q.pt x.opa 16) 0 4 → r = leAt (s.mem.tileRead q.pt x.opa 16) 8 4 →
      m < mvLimit x → q.okTile (mvBase x + 2 * m) 2 false 2 = true → q.okTile (x.opb + 256 * r) 256 false = true →
      ∃ d f, Machine.exec (.moveDispatch i ReadErr.none_) s = .next { s with dev := d } ∧ engRan i.val 1 x s.dev d ∧
        tblGet [] d.core.srcQ (256 + i.val) = tblGet [] s.dev.core.srcQ (256 + i.val) ++ [f] ∧
        f.flit.dst = BitVec.ofNat 16 (ofLe (s.mem.tileRead q.pt (mvBase x + 2 * m) 2)) ∧
        f.flit.ofs = BitVec.ofNat 32 r ∧ f.flit.payload = payloadOf (s.mem.tileRead q.pt (x.opb + 256 * r) 256))

/-- MOVE_ENCODE, MOVE_DECODE, SORT_SORT, SORT_MERGE (R346-R349, R400, R402). -/
def Obligations.StreamsAndSorting : Prop :=
  ∀ (s : State) (i : TileId) (x : EngCmd) (q : EngX) (io : Io), io = { m := s.mem, d := s.dev, fail := none } →
    (s.dev.engStarts i.val 1 x → q = s.dev.engX i.val 1 x ReadErr.none_ →
      (x.code = 6 → firstBad (encodeChecks q io) = none → mvSsp x = 0 → mvDsp x = 0 →
        ∃ m d, Machine.exec (.moveEncode i ReadErr.none_) s = .next (State.mk s.pending m d) ∧
          engRan i.val 1 x s.dev d ∧ tileSameBut s.mem m q.pt x.opb (streamBytes (x.opc * segsPer (mvFmt x))) ∧
          m.tileRead q.pt x.opb 8 = leBytes 4 (encodeStream (mvFmt x) (mvEnc x)
            ((List.range x.opc).map fun k => payloadOf (s.mem.tileRead q.pt (x.opa + 256 * k) 256))).1.length ++
              leBytes 4 x.opc) ∧
      (x.code = 7 →
        ∃ m d, Machine.exec (.moveDecode i ReadErr.none_) s = .next (State.mk s.pending m d) ∧
          spSameBut s.mem m q.pt (mvDsp x) x.opb (256 * x.opc) ∧
          (firstBad (decodeChecks q io) = none → mvSsp x = 0 → mvDsp x = 0 → x.opc = 1 → isMx (mvFmt x) = true →
            leAt (s.mem.tileRead q.pt x.opa 32) 0 4 = 1 → leAt (s.mem.tileRead q.pt x.opa 32) 4 4 = 1 →
            q.okTile x.opa (streamBytes 1) false = true →
            s.mem.tileRead q.pt (x.opa + 32) 32 = List.replicate 32 0 →
            engRan i.val 1 x s.dev d ∧ m.tileRead q.pt x.opb 256 = s.mem.tileRead q.pt (x.opa + 64) 256))) ∧
    (s.dev.engStarts i.val 2 x → q = s.dev.engX i.val 2 x ReadErr.none_ →
      (x.code = 1 → firstBad (sortChecks q io) = none →
        ∃ (m : Mem) (d : Dev) (out : List Rec), Machine.exec (.sortSort i ReadErr.none_) s = .next (State.mk s.pending m d) ∧
          engRan i.val 2 x s.dev d ∧ tileSameBut s.mem m q.pt x.opb (16 * x.opc) ∧
          m.tileRead q.pt x.opb (16 * x.opc) = out.flatten ∧
          out.Perm (recsOf x.opc (s.mem.tileRead q.pt x.opa (16 * x.opc))) ∧
          out.Pairwise fun a b => recBefore (soKtype x) (soDesc x) b a = false) ∧
      (∀ (r0 r1 : MRun) (h0 h1 : Rec), x.code = 2 → firstBad (mergeChecks q io) = none → x.opc = 2 →
        runsOf 2 (s.mem.tileRead q.pt x.opa 32) = [r0, r1] → r0.n = 1 → r1.n = 1 →
        s.dev.granOk q r0.g 1 true false → s.dev.granOk q r1.g 1 true false → s.dev.granOk q x.opb 1 false true →
        h0 = s.mem.hbmRead (256 * r0.g) 16 → h1 = s.mem.hbmRead (256 * r1.g) 16 →
        ∃ m d, Machine.exec (.sortMerge i ReadErr.none_) s = .next (State.mk s.pending m d) ∧
          engRan i.val 2 x s.dev d ∧ hbmSameBut s.mem m (256 * x.opb) 256 ∧
          m.hbmRead (256 * x.opb) 32 = if recBefore (soKtype x) (soDesc x) h1 h0 then h1 ++ h0 else h0 ++ h1))

/-- SIFT_SCORE, SIFT_TOPK, SIFT_THRESH, SIFT_NZMAP, LENS_PREDICT, LENS_CHECK (R353-R356, R415, R419). -/
def Obligations.SiftWritesItsResults : Prop :=
  ∀ (s : State) (i : TileId) (x : EngCmd) (q : EngX) (io : Io), s.dev.engStarts i.val 3 x →
    q = s.dev.engX i.val 3 x ReadErr.none_ → io = { m := s.mem, d := s.dev, fail := none } →
    (x.code = 1 → firstBad (scoreChecks q io) = none →
      ∃ m d, Machine.exec (.siftScore i ReadErr.none_) s = .next (State.mk s.pending m d) ∧ engRan i.val 3 x s.dev d ∧
        tileSameBut s.mem m q.pt x.opc ((if siOutp x = 1 then 8 else 4) * siT x * siM x) ∧
        (siT x = 1 → siM x = 1 → siOutp x = 0 → siKb x = 1 → m.tileRead q.pt x.opc 4 =
          leBytes 4 (dot ((List.range 32).map (expandElem (siWfmt x) (payloadOf (s.mem.tileRead q.pt x.opa 256))))
            ((List.range 32).map (expandElem (siXfmt x) (payloadOf (s.mem.tileRead q.pt x.opb 256))))).1.1.toNat)) ∧
    (x.code = 2 → firstBad (topkChecks q io) = none →
      ∃ m d, Machine.exec (.siftTopk i ReadErr.none_) s = .next (State.mk s.pending m d) ∧ engRan i.val 3 x s.dev d ∧
        tileSameBut s.mem m q.pt x.opb (16 * siKsel x * x.opc) ∧
        (x.opc = 1 → m.tileRead q.pt x.opb (16 * siKsel x) =
          ((((((List.range (siM x)).map fun k =>
            BitVec.ofNat 32 (leAt (s.mem.tileRead q.pt x.opa (4 * siM x)) (4 * k) 4)).zipIdx.foldl
              (fun l e => scoreInsert e l) []).take (siKsel x)).zipIdx.map fun e =>
                leBytes 4 e.1.2 ++ leBytes 4 e.1.1.toNat ++ leBytes 4 0 ++ leBytes 2 0 ++ leBytes 2 e.2)).flatten)) ∧
    (∀ ok : List Nat, x.code = 3 → firstBad (threshChecks q io) = none →
      ok = passing (siThr x) ((List.range (siM x)).map fun k =>
        BitVec.ofNat 32 (leAt (s.mem.tileRead q.pt x.opa (4 * siM x)) (4 * k) 4)) →
      q.okTile x.opb (32 + 4 * ok.length) true = true →
      ∃ m d, Machine.exec (.siftThresh i ReadErr.none_) s = .next (State.mk s.pending m d) ∧
        engRan i.val 3 x s.dev d ∧ tileSameBut s.mem m q.pt x.opb (32 + 4 * ok.length) ∧
        m.tileRead q.pt x.opb (32 + 4 * ok.length) = padTo 32 (leBytes 4 ok.length) ++ (ok.map (leBytes 4)).flatten) ∧
    (x.code = 4 → firstBad (nzmapChecks q io) = none →
      ∃ m d, Machine.exec (.siftNzmap i ReadErr.none_) s = .next (State.mk s.pending m d) ∧ engRan i.val 3 x s.dev d ∧
        tileSameBut s.mem m q.pt x.opb (64 * x.opc) ∧
        (x.opc = 1 → ∀ e, e < epf (siXfmt x) → bitAt (ofLe (m.tileRead q.pt x.opb 64)) e =
          elemNonzero (siXfmt x) (payloadOf (s.mem.tileRead q.pt x.opa 256)) e)) ∧
    (x.code = 5 → lensMode x s.mem q.pt ≠ 1 → firstBad (lensChecks q io) = none →
      ∃ m d, Machine.exec (.lensPredict i ReadErr.none_) s = .next (State.mk s.pending m d) ∧
        engRan i.val 3 x s.dev d ∧ m.hbm = s.mem.hbm ∧
        d.rawF .SIFT_LENS_SLICE_CNT 0 i.val 0 =
          min (s.dev.rawF .SIFT_LENS_SLICE_CNT 0 i.val 0 + siM x / 32) 0xFFFFFFFF ∧
        ∀ t b, t ≠ q.pt ∨
          ((b < leAt (s.mem.tileRead q.pt x.opa 64) 8 4 ∨
            leAt (s.mem.tileRead q.pt x.opa 64) 8 4 + rowsBytes (siXfmt x) (siKsel x) (siT x) ≤ b) ∧
          (b < leAt (s.mem.tileRead q.pt x.opa 64) 12 4 ∨
            leAt (s.mem.tileRead q.pt x.opa 64) 12 4 + maskBytes (siM x / 32) ≤ b) ∧
          (b < x.opc ∨ x.opc + 16 * (siM x / 32) ≤ b)) → m.tileByte t b = s.mem.tileByte t b) ∧
    (∀ ma mk, x.code = 5 → lensMode x s.mem q.pt = 1 → firstBad (lensChecks q io) = none →
      ma = leAt (s.mem.tileRead q.pt x.opa 64) 12 4 → mk = s.mem.tileRead q.pt ma (maskBytes (siM x / 32)) →
      leAt mk 4 4 = siM x / 32 → siT x = 1 → siM x ≤ epf (siXfmt x) → byteAt mk 2 % 4 = 3 →
      leAt mk 0 2 = (s.dev.ctx x.ctx).e →
      ∃ d, Machine.exec (.lensCheck i ReadErr.none_) s = .next { s with dev := d } ∧ engRan i.val 3 x s.dev d ∧
        d.rawF .SIFT_LENS_CHECK_CNT 0 i.val 0 = min (s.dev.rawF .SIFT_LENS_CHECK_CNT 0 i.val 0 +
          (List.range (siM x)).countP fun e =>
            elemNonzero (siXfmt x) (payloadOf (s.mem.tileRead q.pt x.opb 256)) e) 0xFFFFFFFF)

/-- HEARTBEAT, FM_COMMAND_RX, FM_QUERY, FM_RESET, FM_RESERVED_OP, FM_ACK_SEND (R583, R586-R588; log entry 35). -/
def Obligations.FaultManagerIsHeardAndAnswered : Prop :=
  ∀ s : State, s.dev.coreUp = true →
    (s.dev.bit F.FLT_FM_CFG_HB_EN = true → s.dev.bit F.BOOT_STAT_READY = true → s.dev.hbCan = true →
      ∃ d f, Machine.exec .heartbeat s = .next { s with dev := d } ∧
        d.fd F.FLT_FM_STAT_HBSEQ = (s.dev.fd F.FLT_FM_STAT_HBSEQ + 1) % m32 ∧
        tblGet [] d.core.srcQ 290 = tblGet [] s.dev.core.srcQ 290 ++ [f] ∧ f.flit.type = 6 ∧
        f.flit.dst = BitVec.ofNat 16 (s.dev.fd F.FLT_FM_CFG_FM_ID) ∧ sameRegsBut [.FLT_FM_STAT] s.dev d ∧
        d = { s.dev with core := { s.dev.core with srcQ := d.core.srcQ }, regs := d.regs }) ∧
    (∀ (p : Nat) (f : Flit), s.dev.d2dFailed 2 = false → s.dev.sys.fm = none → s.dev.core.fmRx = [(p, f)] → plByte f.payload 0 = 0x42 →
      s.dev.bit F.FLT_FM_CFG_EN = true → f.src.toNat = s.dev.fd F.FLT_FM_CFG_FM_ID → p < 256 →
      (bitAt (s.dev.fd F.FLT_FM_PORTS_PORTS (p / 64)) (p % 64) = true →
        1 ≤ dist32 (plLe f.payload 4 4) (s.dev.fd F.FLT_FM_STAT_CSEQ) →
        dist32 (plLe f.payload 4 4) (s.dev.fd F.FLT_FM_STAT_CSEQ) ≤ 2147483647 →
        ∃ d, Machine.exec .fmCommandRx s = .next { s with dev := d } ∧
          d.fd F.FLT_FM_STAT_CSEQ = plLe f.payload 4 4 ∧ d.sys.fm = some {
            cseq := plLe f.payload 4 4, op := plByte f.payload 8, level := plByte f.payload 9
            index := plLe f.payload 10 2, arg := plLe f.payload 12 4, epoch := plLe f.payload 16 2
            xid := plLe f.payload 18 2, applied := false, status := 0, reason := 0, detail := 0 } ∧
          sameRegsBut [.FLT_FM_STAT] s.dev d ∧
          d = { s.dev with
            core := { s.dev.core with fmRx := [] }, regs := d.regs, sys := { s.dev.sys with fm := d.sys.fm } }) ∧
      (bitAt (s.dev.fd F.FLT_FM_PORTS_PORTS (p / 64)) (p % 64) = false →
        dist32 (plLe f.payload 4 4) (s.dev.fd F.FLT_FM_STAT_CSEQ) ≠ 0 →
        ∃ d, Machine.exec .fmCommandRx s = .next { s with dev := d } ∧
          d.rawF .FLT_FM_REJ_CNT 0 0 0 = up1 (s.dev.rawF .FLT_FM_REJ_CNT 0 0 0) ∧
          sameRegsBut [.FLT_FM_REJ_CNT] s.dev d ∧
          d = { s.dev with core := { s.dev.core with fmRx := [] }, regs := d.regs, hot := d.hot }) ∧
      (dist32 (plLe f.payload 4 4) (s.dev.fd F.FLT_FM_STAT_CSEQ) = 0 → s.dev.sys.fmAck ≠ [] →
        ∃ d g, Machine.exec .fmCommandRx s = .next { s with dev := d } ∧
          tblGet [] d.core.srcQ 290 = tblGet [] s.dev.core.srcQ 290 ++ [g] ∧
          g.flit = mgmtFlit s.dev.selfId (s.dev.fd F.FLT_FM_CFG_FM_ID) s.dev.sys.fmAck ∧ d.sys = s.dev.sys ∧
          d.regs = s.dev.regs)) ∧
    (∀ (c : FmCmd) (i : Instr) (st reason : Nat), s.dev.sys.fm = some c → c.applied = false →
      (i = .fmQuery ∧ c.op = 5 ∧ c.index = 0 ∧ st = 0 ∧ reason = 0) ∨
        (i = .fmReset ∧ c.op = 4 ∧ c.index = 0 ∧ st = 0 ∧ reason = 0) ∨
        (i = .fmReservedOp ∧ fmBad c = true ∧ st = 1 ∧ reason = 0xFC) →
      ∃ d g, Machine.exec i s = .next { s with dev := d } ∧
        d.sys.fm = some { c with applied := true, status := st, reason := reason, detail := 0 } ∧
        d.sys.flash.open_ = s.dev.sys.flash.open_ ++ [g] ∧ g.recs.map (fun r => (r.kind, r.key, r.value)) =
          [(4, 3, ackValue { c with applied := true, status := st, reason := reason, detail := 0 })] ∧
        (i = .fmQuery → s.dev.hbCan = true →
          d.fd F.FLT_FM_STAT_HBSEQ = (s.dev.fd F.FLT_FM_STAT_HBSEQ + 1) % m32) ∧
        sameRegsBut [.FLT_FM_STAT, .HOST_EVT_DROP_CNT] s.dev d ∧ sameOptics s.dev d ∧ sameCompute s.dev d ∧
        sameTime s.dev d) ∧
    ∀ c : FmCmd, s.dev.sys.fm = some c → c.applied = true → s.dev.sys.flash.item 3 = some (ackValue c) →
      ∃ d f, Machine.exec .fmAckSend s = .next { s with dev := d } ∧
        tblGet [] d.core.srcQ 290 = tblGet [] s.dev.core.srcQ 290 ++ [f] ∧
        f.flit = mgmtFlit s.dev.selfId (s.dev.fd F.FLT_FM_CFG_FM_ID) (ackBytes c) ∧
        d = { s.dev with
          core := { s.dev.core with srcQ := d.core.srcQ }
          sys := { s.dev.sys with
            fm := none, fmAck := ackBytes c, fmReset := s.dev.sys.fmReset || (c.op == 4 && c.status == 0) } }

/-- FM_FENCE, FM_UNFENCE, FM_ABORT_PART, FM_XFER_START, STATE_CHUNK_SEND, STATE_REQ_RX, STATE_CHUNK_RX,
STATE_REQ_TIMEOUT (R588-R590, R594, R596). -/
def Obligations.FencesAndStateTransfer : Prop :=
  ∀ s : State, s.dev.coreUp = true →
    (∀ c : FmCmd,
      (s.dev.fmInHand 1 = some c →
        ∃ d, Machine.exec .fmFence s = .next { s with dev := d } ∧ d.fd F.FLT_FENCE_LEVEL c.index = c.level ∧
          (c.level = 3 → s.dev.fd F.FLT_FENCE_LEVEL c.index ≠ 3 → (s.dev.port c.index).state ≠ .absent →
            (d.port c.index).state = .disabled) ∧
          (∃ c', d.sys.fm = some c' ∧ c'.applied = true ∧ c'.status = 0) ∧ d.time.t19 = s.dev.time.t19) ∧
      (s.dev.fmInHand 2 = some c →
        ∃ d, Machine.exec .fmUnfence s = .next { s with dev := d } ∧ d.fd F.FLT_FENCE_LEVEL c.index = 0 ∧
          (∃ c', d.sys.fm = some c' ∧ c'.applied = true ∧ c'.status = 0) ∧ d.bars = s.dev.bars ∧
          d.time.t19 = s.dev.time.t19) ∧
      (s.dev.fmInHand 3 = some c →
        ∃ d, Machine.exec .fmAbortPart s = .next { s with dev := d } ∧
          (∀ k, (s.dev.ctx k).live = true → (s.dev.ctx k).part = c.index → (s.dev.ctx k).spilling = false →
            (s.dev.ctx k).restoring = false → (d.ctx k).state = .faulted ∧ (d.ctx k).reason = 0xC9) ∧
          (∀ k, (s.dev.ctx k).part ≠ c.index → d.ctx k = s.dev.ctx k) ∧
          (∃ c', d.sys.fm = some c' ∧ c'.applied = true ∧ c'.status = 0) ∧ sameOptics s.dev d ∧ sameTime s.dev d) ∧
      (s.dev.fmInHand 6 = some c → s.dev.maintRefusal 6 c.index = none →
        (s.dev.bar (bitsOf c.arg 23 16)).last ≠ some (s.dev.cycle, c.epoch) →
        ∃ d j, Machine.exec .fmXferStart s = .next { s with dev := d } ∧ d.sys.xfer.job = some j ∧
          j.xid = c.xid ∧ j.dst = c.index ∧ j.parts = bitsOf c.arg 15 0 ∧ j.bar = bitsOf c.arg 23 16 ∧
          j.epoch = c.epoch ∧ j.tables = bitsOf c.arg 29 24 ∧ d.sys.xfer.taken = false ∧
          (∃ c', d.sys.fm = some c' ∧ c'.applied = true ∧ c'.status = 0) ∧ sameOptics s.dev d ∧
          sameCompute s.dev d ∧ sameTime s.dev d)) ∧
    (∀ j : XferJob, s.dev.sys.xfer.job = some j → s.dev.sys.xfer.taken = true →
      (s.dev.sys.xfer.next < s.dev.sys.xfer.count →
        (s.dev.sys.xfer.times.filter fun t => decide (s.dev.cycle < t + 1900)).length < 4 →
        ∃ d f, Machine.exec .stateChunkSend s = .next { s with dev := d } ∧
          d.sys.xfer.next = s.dev.sys.xfer.next + 1 ∧
          tblGet [] d.core.srcQ 290 = tblGet [] s.dev.core.srcQ 290 ++ [f] ∧ f.flit.type = 6 ∧
          f.flit.dst = BitVec.ofNat 16 j.dst ∧ (d.maint j.slot).n1 = (s.dev.maint j.slot).n1 + 1 ∧
          sameRegsBut [.FLT_MAINT_STAT] s.dev d ∧ d = { s.dev with core := d.core, regs := d.regs, sys := d.sys }) ∧
      ∀ (p : Nat) (f : Flit), s.dev.d2dFailed 2 = false → s.dev.core.fmRx = [(p, f)] → plByte f.payload 0 = 0x45 → 
        plLe f.payload 4 2 = j.xid →
        Machine.exec .stateReqRx s = .next { s with dev := { s.dev with
          core := { s.dev.core with fmRx := [] }
          sys := { s.dev.sys with xfer := { s.dev.sys.xfer with
            next := min s.dev.sys.xfer.high (plLe f.payload 8 4) } } } }) ∧
    (∀ (p : Nat) (f : Flit), s.dev.d2dFailed 2 = false → s.dev.core.fmRx = [(p, f)] → plByte f.payload 0 = 0x44 →
      (s.dev.bit F.FLT_XFER_CFG_ARM = false →
        ∃ d, Machine.exec .stateChunkRx s = .next { s with dev := d } ∧
          d.rawF .FLT_XFER_REJ_CNT 0 0 0 = up1 (s.dev.rawF .FLT_XFER_REJ_CNT 0 0 0) ∧
          sameRegsBut [.FLT_XFER_REJ_CNT] s.dev d ∧
          d = { s.dev with core := { s.dev.core with fmRx := [] }, regs := d.regs, hot := d.hot }) ∧
      (s.dev.bit F.FLT_XFER_CFG_ARM = true → f.src.toNat = s.dev.fd F.FLT_XFER_CFG_SRC →
        plLe f.payload 4 2 = s.dev.fd F.FLT_XFER_CFG_XFER_ID → plLe f.payload 8 4 < plLe f.payload 12 4 →
        s.dev.sys.xfer.chunks.length + 1 < plLe f.payload 12 4 →
        ∃ d, Machine.exec .stateChunkRx s = .next { s with dev := d } ∧
          tblGet [] d.sys.xfer.chunks (plLe f.payload 8 4) = ((payloadBytes f.payload).drop 16).take 224 ∧
          d.sys.xfer.nchunk = plLe f.payload 12 4 ∧
          d = { s.dev with core := { s.dev.core with fmRx := [] }, sys := { s.dev.sys with xfer := d.sys.xfer } })) ∧
    (s.dev.bit F.FLT_XFER_CFG_ARM = true → s.dev.sys.xfer.chunks ≠ [] →
      ((List.range s.dev.sys.xfer.nchunk).find? fun c => (tblGet [] s.dev.sys.xfer.chunks c).isEmpty) ≠ none →
      ∃ d f, Machine.exec .stateReqTimeout s = .next { s with dev := d } ∧
        tblGet [] d.core.srcQ 290 = tblGet [] s.dev.core.srcQ 290 ++ [f] ∧
        f.flit.dst = BitVec.ofNat 16 (s.dev.fd F.FLT_XFER_CFG_SRC) ∧
        d = { s.dev with core := { s.dev.core with srcQ := d.core.srcQ } })

/-- CANARY_TIMER, MAINT_SCRUB, MAINT_MARGIN, MAINT_SPARE_TEST, MAINT_BCAST, MAINT_CANCEL, MARGIN_STEP,
MAINT_ACTIVITY_END, MAINT_RETRY, LOUPE_RECORD_WRITE (R601, R605-R612). -/
def Obligations.CanariesMaintenanceAndTrace : Prop :=
  ∀ s : State, s.dev.inReset = false →
    (s.dev.coreUp = true → s.dev.bit F.FLT_SC_CFG_CANARY_EN = true →
      Machine.exec (.canaryTimer []) s = .next { s with dev :=
        (s.dev.updSys fun y => { y with canary := (y.canary + 1) % 64 }) } ∧
      ∀ x : CanaryFail, s.dev.domOn x.tile.val = true → (x.sift = true → s.dev.domOn (siftDom x.tile.val) = true) →
        s.dev.phys x.tile.val < 34 →
        ∃ d, Machine.exec (.canaryTimer [x]) s = .next { s with dev := d } ∧
          d.sys.canary = (s.dev.sys.canary + 1) % 64 ∧
          d.fd F.FLT_SC_STAT_FAILS (s.dev.phys x.tile.val) =
            min 255 (s.dev.fd F.FLT_SC_STAT_FAILS (s.dev.phys x.tile.val) + 1) ∧ sameOptics s.dev d ∧
          sameTime s.dev d) ∧
    (∀ (fn : Fn) (r : RingNo) (x : Desc) (c : Instr) (act : Nat), s.dev.inHand fn.val r.val 0xF = some x →
      s.dev.descTaken x = false → s.dev.cutReason x = none →
      (c = .maintScrub fn r ∧ act = 1) ∨ (c = .maintMargin fn r ∧ act = 2) ∨ (c = .maintSpareTest fn r ∧ act = 3) ∨
        (c = .maintBcast fn r ∧ act = 4) → x.arg 28 1 = 0 → x.arg 29 1 = act →
      (s.dev.maintRefusal act (x.arg 30 2) = none →
        ∃ d n, Machine.exec c s = .next { s with dev := d } ∧ n < 16 ∧ s.dev.maintBusy n = false ∧
          (∀ k, k < n → s.dev.maintBusy k = true) ∧ d.maintBusy n = true ∧ d.maintAct n = act ∧
          d.maintIdx n = x.arg 30 2 ∧ (d.ring x.fn x.ring).done = (s.dev.ring x.fn x.ring).done ++
            [{ desc := x, status := 0, reason := 0, result := n, time := s.dev.fabricTime }] ∧
          sameOptics s.dev d ∧ sameCompute s.dev d ∧ sameTime s.dev d) ∧
      (∀ dt a i, s.dev.maintRefusal act (x.arg 30 2) = some (dt, a, i) →
        Machine.exec c s = .next { s with dev :=
          (s.dev.count .FLT_MAINT_REFUSE_CNT act).complete x 2 0xFC (dt ||| a <<< 8 ||| i <<< 16) })) ∧
    (∀ (fn : Fn) (r : RingNo) (x : Desc), s.dev.inHand fn.val r.val 0xF = some x → s.dev.descTaken x = false →
      x.arg 28 1 = 1 → x.arg 36 2 < 16 → s.dev.maintBusy (x.arg 36 2) = true → s.dev.maintAct (x.arg 36 2) ≠ 5 →
      ∃ d, Machine.exec (.maintCancel fn r) s = .next { s with dev := d } ∧
        d.fd F.FLT_MAINT_STAT_STATE (x.arg 36 2) = 2 ∧
        d.maint (x.arg 36 2) = { s.dev.maint (x.arg 36 2) with
          cancels := (s.dev.maint (x.arg 36 2)).cancels ++ [x] } ∧ sameRegsBut [.FLT_MAINT_STAT] s.dev d ∧
        d = { s.dev with regs := d.regs, sys := { s.dev.sys with maint := d.sys.maint } }) ∧
    (∀ (n : MaintSlot) (corr p i : Nat) (bad : Bool) (l : List (Nat × Nat)), s.dev.maintAct n.val = 2 →
      s.dev.fd F.FLT_MAINT_STAT_STATE n.val = 1 → (s.dev.maint n.val).lanes = (p, i) :: l →
      portUp (s.dev.port p).state = true → s.dev.fd F.FLT_FENCE_LEVEL p = 0 → (s.dev.maint n.val).step = 0 →
      Machine.exec (.marginStep n corr bad) s = .next { s with dev := s.dev.updMaint n.val fun m => { m with
        step := 1, counts := updAt m.counts 0 fun _ => corr } }) ∧
    (∀ (n : MaintSlot) (ok : Bool) (e : ReadErr), s.dev.fd F.FLT_MAINT_STAT_STATE n.val = 2 →
      s.dev.maintAct n.val = 3 →
      ∃ d, Machine.exec (.maintActivityEnd n ok e) s = .next { s with dev := d } ∧ d.maintBusy n.val = false ∧
        d.maint n.val = Maint.reset ∧ d.bit F.FLT_STATUS_MAINT_DONE = true ∧ sameOptics s.dev d ∧
        sameCompute s.dev d ∧ sameTime s.dev d) ∧
    (∀ act i : Nat, act ≤ 6 → i < 2 ^ 16 → s.dev.sys.retry = [(act, i)] → s.dev.maintRefusal act i = none →
      ∃ d n, Machine.exec .maintRetry s = .next { s with dev := d } ∧ n < 16 ∧ d.maintBusy n = true ∧
        d.maintAct n = act ∧ d.maintIdx n = i ∧ d.sys.retry = [] ∧ sameOptics s.dev d ∧ sameCompute s.dev d ∧
        sameTime s.dev d) ∧
    ∀ (r : LoupeRec) (rest : List LoupeRec) (n k : Nat), s.dev.coreUp = true →
      s.dev.sys.loupe.q = r :: rest → r.cycle < s.dev.cycle → s.dev.sys.loupe.took ≠ s.dev.cycle + 1 →
      s.dev.fd F.LOUPE_CTRL_DEST = 0 → s.dev.fd F.LOUPE_CTRL_MODE = 1 →
      n = ringLog2 0 (s.dev.fd F.LOUPE_CTRL_SIZE_LOG2) →
      s.dev.captureRing (s.dev.fd F.LOUPE_BASE_BASE / 2 ^ n * 2 ^ n) n = some k → s.dev.d2dFailed k = false →
      ∃ d, Machine.exec .loupeRecordWrite s = .next (State.mk s.pending (s.mem.hbmWrite
          (s.dev.fd F.LOUPE_BASE_BASE / 2 ^ n * 2 ^ n + 32 * (s.dev.fd F.LOUPE_WPTR_WPTR % 2 ^ (n - 5)))
          (bytesPut r.bytes 15 (leBytes 1 (byteAt r.bytes 15 ||| b2n s.dev.sys.loupe.lost <<< 4)))) d) ∧
        d.fd F.LOUPE_WPTR_WPTR = (s.dev.fd F.LOUPE_WPTR_WPTR + 1) % 2 ^ 64 ∧ sameRegsBut [.LOUPE_WPTR] s.dev d ∧
        d = { s.dev with
          regs := d.regs
          sys := { s.dev.sys with
            loupe := { s.dev.sys.loupe with q := rest, lost := false, took := s.dev.cycle + 1 } } }

/-- HOST_KICK, DOORBELL_PASS, POLL_TIMER, DESCRIPTOR_START, COMPLETION_WRITE, CR_STOP_COMPLETE (R483-R493, R503). -/
def Obligations.RingsAcceptStartAndComplete : Prop :=
  ∀ (s : State) (fn : Fn), s.dev.inReset = false →
    (∀ v : BitVec 32, ∃ d, Machine.exec (.hostKick fn v) s = .next { s with dev := d } ∧ (d.fn fn.val).kick = true ∧
      d.rawF .HOST_KICK_CNT fn.val 0 0 = up1 (s.dev.rawF .HOST_KICK_CNT fn.val 0 0) ∧
      sameRegsBut [.HOST_KICK_CNT] s.dev d ∧ (∀ h, h ≠ fn.val → d.fn h = s.dev.fn h) ∧
      d = { s.dev with fns := d.fns, regs := d.regs, hot := d.hot }) ∧
    (∀ (r : RingNo) (b : BitVec 512) (lines : List (BitVec 512)) (x : DescRead) (c : Instr),
      (c = .doorbellPass fn 0 lines [x] ∧ (s.dev.fn fn.val).kick = true) ∨
        (c = .pollTimer fn 0 lines [x] ∧ (s.dev.fn fn.val).poll.isSome = true) →
      s.dev.fnReach fn.val = true → s.dev.fdF F.HOST_DB_CFG_MODE fn.val 0 0 = 0 →
      x = { ring := r, idx := BitVec.ofNat 32 (s.dev.ring fn.val r.val).cons, bytes := b } →
      (∀ k, k < 64 → k ≠ r.val → (s.dev.ring fn.val k).state ≠ .running) →
      (s.dev.ring fn.val r.val).state = .running → (s.dev.ring fn.val r.val).cons < m32 →
      (s.dev.ring fn.val r.val).prod = ((s.dev.ring fn.val r.val).cons + 1) % m32 →
      s.dev.bit F.BOOT_STAT_READY = true → leAt (leBytes 64 b.toNat) 4 4 = (s.dev.ring fn.val r.val).expSeq →
      ∃ d, Machine.exec c s = .next { s with dev := d } ∧
        d.ring fn.val r.val = { s.dev.ring fn.val r.val with
          cons := ((s.dev.ring fn.val r.val).cons + 1) % m32
          expSeq := ((s.dev.ring fn.val r.val).expSeq + 1) % m32
          lastConsumed := (s.dev.ring fn.val r.val).expSeq
          accepted := (s.dev.ring fn.val r.val).accepted ++ [{
            fn := fn.val, ring := r.val, bytes := leBytes 64 b.toNat, order := s.dev.accOrder
            prim := s.dev.primary == some fn.val, mcast := false, data := [] }] } ∧
        (∀ k, k ≠ r.val → d.ring fn.val k = s.dev.ring fn.val k) ∧ (∀ h, h ≠ fn.val → d.fn h = s.dev.fn h) ∧
        d.accOrder = s.dev.accOrder + 1 ∧
        sameRegsBut [.HOST_DESC_CNT, .HOST_POLL_CNT] s.dev d ∧
        d = { s.dev with fns := d.fns, regs := d.regs, out := d.out, accOrder := d.accOrder, hot := d.hot }) ∧
    (∀ (r : RingNo) (x : Desc) (rest : List Desc) (buf : Option (List (BitVec 8))),
      (s.dev.ring fn.val r.val).accepted = { x with data := [], mcast := false } :: rest →
      s.dev.mayStart { x with data := [], mcast := false } = true →
      (needsCore x = true → s.dev.linkHeld coreDom = false ∧ ∀ k, k ∈ diesOf x → s.dev.linkHeld (dieDom k) = false) →
      x.mcast = (s.dev.fd F.CORE_CTX_R_MODE (x.arg 28 2 % 4096) == 1) →
      x.data = (match bufRead x, buf with
        | some n, some bs => padTo n bs
        | _, _ => []) →
      ∀ go : Dev, go = (s.dev.updRing fn.val r.val fun g => { g with accepted := rest, active := g.active ++ [x] }) →
      (reservedOp x = true → Machine.exec (.descriptorStart fn r buf) s = .next { s with dev := go }) ∧
      (reservedOp x = false → badFields x = true →
        Machine.exec (.descriptorStart fn r buf) s = .next { s with dev := go.refuse x 0xFC }) ∧
      (reservedOp x = false → badFields x = false →
        s.dev.authOk x ((bufRead x).isNone || buf.isSome) = true → s.dev.featureOk x = true →
        ((bufRead x).isSome = true → buf = none →
          Machine.exec (.descriptorStart fn r buf) s = .next { s with dev := go.refuse x 0xFB }) ∧
        ((bufRead x).isNone = true ∨ buf.isSome = true → s.dev.unreachable x = none →
          ((s.dev.domsOf x).filter fun n => !s.dev.domOn n) = [] →
          (x.op = 0xF → x.arg 28 1 = 0 → x.arg 29 1 ≠ 5 ∧ x.arg 29 1 ≠ 6) →
          Machine.exec (.descriptorStart fn r buf) s = .next { s with dev := go }))) ∧
    (∀ (r : RingNo) (c : Compl) (q size : Nat), (s.dev.ring fn.val r.val).active = [] →
      (s.dev.ring fn.val r.val).done = [c] → (s.dev.fn fn.val).linkUp = true → (s.dev.fn fn.val).busMaster = true →
      (s.dev.fn fn.val).flr = false → q = s.dev.fdF F.HOST_CR_CFG_CQ fn.val r.val 0 →
      s.dev.fdF F.HOST_CQ_CFG_EN fn.val q 0 = 1 →
      size = 2 ^ ringExp (s.dev.fdF F.HOST_CQ_CFG_SIZE_LOG2 fn.val q 0) →
      dist32 ((s.dev.fn fn.val).cq q).prod ((s.dev.fn fn.val).cq q).cons ≠ size →
      ∃ d, Machine.exec (.completionWrite fn r) s = .next { s with dev := d } ∧
        (d.ring fn.val r.val).done = [] ∧ (d.ring fn.val r.val).lastCompleted = c.desc.seq ∧
        ((d.fn fn.val).cq q).prod = (((s.dev.fn fn.val).cq q).prod + 1) % m32 ∧
        (.hostWrite fn.val ((ringBase (s.dev.fdF F.HOST_CQ_BASE_BASE fn.val q 0) (32 * size) +
            32 * (((s.dev.fn fn.val).cq q).prod % size)) % 2 ^ 64)
          (complBytes c ((((s.dev.fn fn.val).cq q).prod / size + 1) % 2)) : Output) ∈ d.out ∧
        d = { s.dev with fns := d.fns, out := d.out }) ∧
    ∀ r : RingNo, (s.dev.ring fn.val r.val).state = .stopping → (s.dev.ring fn.val r.val).accepted = [] →
      (s.dev.ring fn.val r.val).active = [] → (s.dev.ring fn.val r.val).done = [] →
      ∃ d, Machine.exec (.crStopComplete fn r) s = .next { s with dev := d } ∧
        (d.ring fn.val r.val).state = (if (s.dev.ring fn.val r.val).disabling then .disabled else .stopped) ∧
        d = { s.dev with fns := d.fns, out := d.out }

/-- NOP, RESERVED_OPCODE, TABLE_UPDATE, QUIESCE, QUIESCE_DONE, QUIESCE_TIMEOUT, RESUME, PROFILE_SET (R173, R483,
R508-R510). -/
def Obligations.DescriptorsOfTheHostInterface : Prop :=
  ∀ s : State, s.dev.inReset = false →
    (∀ (fn : Fn) (r : RingNo) (x : Desc), s.dev.descTaken x = false →
      (s.dev.inHand fn.val r.val 0 = some x →
        Machine.exec (.nop fn r) s = .next { s with dev := s.dev.complete x 0 0 0 }) ∧
      (((s.dev.ring fn.val r.val).active.find? reservedOp) = some x →
        Machine.exec (.reservedOpcode fn r) s = .next { s with dev := s.dev.complete x 2 0xFC 0 }) ∧
      ((s.dev.ring fn.val r.val).active = [x] → x.op = 1 → s.dev.core.updates = [] → s.dev.core.updWait = [] →
        s.dev.cutReason x = none →
        ((∃ e, e ∈ tblRecs x ∧ recNoEntry e = true) → s.dev.olderUpdate x.order = false →
          Machine.exec (.tableUpdate fn r) s = .next { s with dev := s.dev.complete x 2 0xF4 0 }) ∧
        ((∀ e, e ∈ tblRecs x → recNoEntry e = false ∧ s.dev.recBad e = false) →
          Machine.exec (.tableUpdate fn r) s = .next { s with dev :=
            (s.dev.updCore fun c => { c with
              updWait := [{ fn := fn.val, ring := r.val, order := x.order, reason := 0, cells := [] }] }) })) ∧
      (∀ n, s.dev.inHand fn.val r.val 0xA = some x → s.dev.cutReason x = none → s.dev.qmrSlot (x.arg 28 1) (x.arg 30 2) = none → n < 16 →
        tblGet none s.dev.qmr n = none → (∀ k, k < n → tblGet none s.dev.qmr k ≠ none) →
        Machine.exec (.quiesce fn r) s = .next { s with dev := s.dev.setQmr n (some {
          host := x.fn, ring := x.ring, func := x.arg 28 1, index := x.arg 30 2, quiesced := false, stage := [] }) }) ∧
      (∀ n q, s.dev.inHand fn.val r.val 0xB = some x → s.dev.cutReason x = none →
        s.dev.sys.pwr.accs = [] → s.dev.qmrSlot (x.arg 28 1) (x.arg 30 2) = some (n, q) →
        q.quiesced = true → q.host = x.fn →
        (x.arg 29 1 % 2 = 1 →
          Machine.exec (.resume fn r) s = .next { s with dev := (((s.dev.setQmr n none).complete x 0 0 0).updPwr
            fun w => { w with accs := [] }) }) ∧
        (x.arg 29 1 % 2 = 0 →
          Machine.exec (.resume fn r) s = .next { s with dev :=
            ((((s.dev.setQmr n none).applyStage q).complete x 0 0 0).updPwr
              fun w => { w with accs := [] }) })) ∧
      (s.dev.inHand fn.val r.val 0xC = some x → s.dev.cutReason x = none →
        (s.dev.expert (x.arg 28 1) = true →
          Machine.exec (.profileSet fn r) s = .next { s with dev := s.dev.complete x 2 0xFC 0 }) ∧
        (s.dev.expert 6 = false → x.arg 28 1 = 6 → x.arg 30 2 = 0 → x.arg 29 1 = 0 → s.dev.qmrSlot 6 0 = none →
          ∃ d, Machine.exec (.profileSet fn r) s = .next { s with dev := d } ∧
            d.rawF .CORE_BAR_CFG 0 0 0 &&& rwMask .CORE_BAR_CFG = regReset .CORE_BAR_CFG 0 0 &&& rwMask .CORE_BAR_CFG ∧
            d.rawF .CORE_TIME_CFG 0 0 0 &&& rwMask .CORE_TIME_CFG =
              regReset .CORE_TIME_CFG 0 0 &&& rwMask .CORE_TIME_CFG ∧
            (d.ring x.fn x.ring).done = (s.dev.ring x.fn x.ring).done ++
              [{ desc := x, status := 0, reason := 0, result := 0, time := s.dev.fabricTime }] ∧
            sameRegsBut [.CORE_BAR_CFG, .CORE_TIME_CFG] s.dev d ∧ d = { s.dev with regs := d.regs, fns := d.fns }))) ∧
    ∀ (n : Fin 16) (q : Qmr) (x : Desc), tblGet none s.dev.qmr n.val = some q → q.quiesced = false →
      s.dev.quiesceDesc q = some x →
      (s.dev.scopeDrained q.func q.index = true →
        Machine.exec (.quiesceDone n) s = .next { s with dev :=
          (s.dev.setQmr n.val (some { q with quiesced := true })).complete x 0 0 0 }) ∧
      Machine.exec (.quiesceTimeout n) s = .next { s with dev := (s.dev.setQmr n.val none).complete x 2 0xFD 0 }

/-- IRQ_COALESCE_TIMER, STATUS_HEARTBEAT, PCIE_FLR, PCIE_LINK_DOWN, PCIE_PERST, PCIE_LINK_UP (R494, R498, R500, R646,
R647). -/
def Obligations.VectorsHeartbeatsAndLinks : Prop :=
  ∀ s : State, s.dev.inReset = false →
    (∃ d, Machine.exec .statusHeartbeat s = .next { s with dev := d } ∧
      (∀ h, h < 2 → (d.fn h).beat = ((s.dev.fn h).beat + 1) % m32 ∧ (d.fn h).rings = (s.dev.fn h).rings) ∧
      d = { s.dev with fns := d.fns, out := d.out }) ∧
    ∀ fn : Fn,
      (∀ n : RingNo, (s.dev.fn fn.val).linkUp = true → (s.dev.fn fn.val).busMaster = true →
        (s.dev.fn fn.val).flr = false →
        (0 < ((s.dev.fn fn.val).eqOf n.val).pend → 0 < s.dev.fdF F.HOST_EQ_CFG_COAL_T fn.val n.val 0 →
          Machine.exec (.irqCoalesceTimer fn true n) s = .next { s with dev :=
            ((s.dev.emit (.msix fn.val (s.dev.fdF F.HOST_EQ_CFG_VEC fn.val n.val 0))).updEq fn.val n.val fun q =>
              { q with pend := 0 }) }) ∧
        (0 < ((s.dev.fn fn.val).cq n.val).pend → 0 < s.dev.fdF F.HOST_CQ_CFG_COAL_T fn.val n.val 0 →
          Machine.exec (.irqCoalesceTimer fn false n) s = .next { s with dev :=
            ((s.dev.emit (.msix fn.val (s.dev.fdF F.HOST_CQ_CFG_VEC fn.val n.val 0))).updCq fn.val n.val fun q =>
              { q with pend := 0 }) })) ∧
      (∀ (c : Instr) (lost : Bool), (c = .pcieFlr fn true ∧ lost = false) ∨ (c = .pcieLinkDown fn ∧ lost = true) ∨
          (c = .pciePerst fn true ∧ lost = true) → (s.dev.fn fn.val).linkUp = true →
        ∃ d, Machine.exec c s = .next { s with dev := d } ∧ (d.fn fn.val).linkUp = !lost ∧
          (d.fn fn.val).flr = !lost ∧ (lost = true → (d.fn fn.val).busMaster = false) ∧
          (∀ r, r < 64 → (d.ring fn.val r).state ≠ .running) ∧
          (∀ h r, h ≠ fn.val → (d.ring h r).state = (s.dev.ring h r).state) ∧ sameOptics s.dev d ∧
          sameFabric s.dev d ∧ sameCompute s.dev d ∧ sameTime s.dev d ∧ d.flt = s.dev.flt) ∧
      Machine.exec (.pcieFlr fn false) s = .next { s with dev := s.dev.updFn fn.val fun f => { f with flr := false } } ∧
      Machine.exec (.pciePerst fn false) s =
        .next { s with dev := s.dev.updFn fn.val fun f => { f with perst := false } } ∧
      (2 ≤ s.dev.bootStep → (s.dev.fn fn.val).perst = false → (s.dev.fn fn.val).absent = false →
        Machine.exec (.pcieLinkUp fn) s = .next { s with dev :=
          (s.dev.updFn fn.val fun f => { f with linkUp := true, busMaster := true }) }) ∧
      ((s.dev.fn fn.val).absent = true → Machine.exec (.pcieLinkUp fn) s = .next s)

/-- RX_SLOT, TX_SLOT (R87, R88, R100, R101, R102, R104, R106, R118, R120, R125). -/
def Obligations.SlotsAreReceivedAndSent : Prop :=
  ∀ (s : State) (p : Port) (l : LinkSt) (y : PortSt), s.dev.coreUp = true → s.dev.link p.val = l →
    s.dev.port p.val = y →
    (l.lstate = .active → ∀ (sig : Signal) (x : RxSlot), (s.dev.rxDecode p.val sig).1 = x → y.rxSteer = none →
      l.early = none →
      (x.aOk = false ∨ x.b = .bad → x.b ≠ .later → l.nakPending = false →
        ∃ d, Machine.exec (.rxSlot p sig) s = .next { s with dev := d } ∧
          (d.link p.val).nakPending = true ∧ (d.link p.val).nakDue = some l.rxExpect ∧
          (d.link p.val).rx = l.rx ∧ (d.link p.val).rxExpect = l.rxExpect ∧
          d.rawF .PORT_FEC_UNCORR_CNT 0 p.val 0 = up1 (s.dev.rawF .PORT_FEC_UNCORR_CNT 0 p.val 0) ∧
          d.rawF .PORT_NAK_TX_CNT 0 p.val 0 = up1 (s.dev.rawF .PORT_NAK_TX_CNT 0 p.val 0) ∧
          d.fd F.FLT_STATUS_LINK_ERR = 1 ∧
          sameRegsBut [.PORT_FEC_CORR_CNT, .PORT_LANE_SYMERR_CNT, .PORT_FEC_UNCORR_CNT, .PORT_NAK_TX_CNT, .FLT_STATUS,
            .FLT_LINK_ERR_CNT] s.dev d ∧
          samePortsBut p.val s.dev d ∧ sameLinksBut p.val s.dev d ∧
          d = { s.dev with ports := d.ports, links := d.links, regs := d.regs, hot := d.hot }) ∧
      (x.aOk = true → x.b = .ok → x.flit.hcrc = hcrcOf x.flit →
        subMod 4096 (x.flit.lack.toNat + 1) (subMod 4096 l.txNext l.replayList.length) = 0 →
        (x.flit.lseq.toNat = l.rxExpect → flitViolation x.flit = none → x.flit.type ≠ 0 →
          0 < at_ 0 l.outst x.flit.vl.toNat → at_ 0 l.avail x.flit.cvl.toNat + x.flit.cred.toNat ≤ 4095 →
          fencePasses (s.dev.fd F.FLT_FENCE_LEVEL p.val) x.flit = true →
          ∃ d, Machine.exec (.rxSlot p sig) s = .next { s with dev := d } ∧
            (d.link p.val).rx = l.rx ++
              [{ flit := x.flit, replayed := l.nakPending || behind 4096 x.flit.lseq.toNat l.rxHigh, early := false,
                 time := s.dev.fabricTime, age := s.dev.cycle, extra := [] }] ∧
            (d.link p.val).rxExpect = (l.rxExpect + 1) % 4096 ∧ (d.link p.val).nakPending = false ∧
            (d.link p.val).avail =
              updAt l.avail x.flit.cvl.toNat (fun _ => at_ 0 l.avail x.flit.cvl.toNat + x.flit.cred.toNat) ∧
            (d.link p.val).outst = updAt l.outst x.flit.vl.toNat (· - 1) ∧ (d.link p.val).lstate = .active ∧
            d.core = { s.dev.core with free := s.dev.core.free - 1, backed := s.dev.core.backed - 1 } ∧
            samePortsBut p.val s.dev d ∧ sameLinksBut p.val s.dev d ∧
            sameRegsBut [.PORT_FEC_CORR_CNT, .PORT_LANE_SYMERR_CNT] s.dev d ∧
            d = { s.dev with ports := d.ports, links := d.links, core := d.core, regs := d.regs, hot := d.hot }) ∧
        (x.flit.lseq.toNat ≠ l.rxExpect → behind 4096 x.flit.lseq.toNat l.rxExpect = true →
          ∃ d, Machine.exec (.rxSlot p sig) s = .next { s with dev := d } ∧
            d.rawF .PORT_DUP_CNT 0 p.val 0 = up1 (s.dev.rawF .PORT_DUP_CNT 0 p.val 0) ∧
            (d.link p.val).rx = l.rx ∧ (d.link p.val).rxExpect = l.rxExpect ∧
            (d.link p.val).nakPending = l.nakPending ∧ (d.link p.val).avail = l.avail ∧
            samePortsBut p.val s.dev d ∧ sameLinksBut p.val s.dev d ∧
            sameRegsBut [.PORT_FEC_CORR_CNT, .PORT_LANE_SYMERR_CNT, .PORT_DUP_CNT] s.dev d ∧
            d = { s.dev with ports := d.ports, links := d.links, regs := d.regs, hot := d.hot }))) ∧
    (portUp y.state = true → y.txSteer = none → s.dev.lcDue p.val = (0, s.dev) →
      ∀ (pre : List Output) (scr : List Nat) (n m : Nat),
      (l.blkTx < 6472 ∧ pre = [] ∧ scr = l.scrTx ∧ n = l.blkTx ∧ m = l.mcountTx) ∨
        (6472 ≤ l.blkTx ∧ pre = [.markers p.val (markerSignal y.width y.txMap l.mcountTx false fun _ => true)] ∧
          scr = (List.range 4).map scrSeed ∧ n = 0 ∧ m = (l.mcountTx + 1) % 65536) →
      (l.lstate = .active → l.cursor = none → l.replayList.length < 2048 → s.dev.s2Of p.val = [] →
        (∀ v, v < 8 → at_ 0 l.initDue v = 0 ∧ at_ 0 l.due v = 0) →
        (∀ f, f = withHop Flit.idle l.txNext (subMod 4096 l.rxExpect 1) 0 0 false →
          (∀ c, l.txSel.head? = some c → at_ 0 l.avail c.cell.flit.vl.toNat = 0) →
          ∃ d, Machine.exec (.txSlot p) s = .next { s with dev := d } ∧
            d.out = s.dev.out ++ pre ++ [.flitTx p.val 0 f (slotSignal y.width y.txMap scr 0 0 f).1] ∧
            d.link p.val = { l with
              txNext := (l.txNext + 1) % 4096
              replayList := l.replayList ++ [{ flit := f, stomped := false, cell := none }]
              scrTx := (slotSignal y.width y.txMap scr 0 0 f).2, blkTx := n + 4 / y.width, mcountTx := m } ∧
            (∀ q, d.port q = s.dev.port q) ∧ sameLinksBut p.val s.dev d ∧
            d = { s.dev with ports := d.ports, links := d.links, out := d.out }) ∧
        (∀ (c : TxSel) (rest : List TxSel) (f : Flit), l.txSel = c :: rest → c.stomp = false → c.cell.early = false →
          c.cell.flit.type ≠ 7 → 0 < at_ 0 l.avail c.cell.flit.vl.toNat →
          f = withHop (s.dev.toPeerDst p.val c.cell) l.txNext (subMod 4096 l.rxExpect 1) 0 0 false →
          ∃ d, Machine.exec (.txSlot p) s = .next { s with dev := d } ∧
            d.out = s.dev.out ++ pre ++ [.flitTx p.val 0 f (slotSignal y.width y.txMap scr 0 0 f).1] ∧
            d.link p.val = { l with
              txSel := rest, txNext := (l.txNext + 1) % 4096
              avail := updAt l.avail c.cell.flit.vl.toNat (· - 1)
              replayList := l.replayList ++ [{ flit := f, stomped := false, cell := some c.cell.id }]
              scrTx := (slotSignal y.width y.txMap scr 0 0 f).2, blkTx := n + 4 / y.width, mcountTx := m } ∧
            (∀ q, d.port q = s.dev.port q) ∧ sameLinksBut p.val s.dev d ∧
            d = { s.dev with
              ports := d.ports, links := d.links, out := d.out, capt := d.capt
              core := { s.dev.core with refs := d.core.refs } })) ∧
      (l.lstate = .replay → ∀ (i : Nat) (t : SentFlit) (f : Flit), l.cursor = some i →
        l.replayList[i]? = some t → t.stomped = false →
        f = withHop t.flit t.flit.lseq.toNat (subMod 4096 l.rxExpect 1) t.flit.cred.toNat t.flit.cvl.toNat false →
        ∃ d, Machine.exec (.txSlot p) s = .next { s with dev := d } ∧
          d.out = s.dev.out ++ pre ++ [.flitTx p.val 0 f (slotSignal y.width y.txMap scr 0 0 f).1] ∧
          d.link p.val = { l with
            cursor := if i + 1 < l.replayList.length then some (i + 1) else none
            lstate := if i + 1 < l.replayList.length then .replay else .active
            scrTx := (slotSignal y.width y.txMap scr 0 0 f).2, blkTx := n + 4 / y.width, mcountTx := m } ∧
          (∀ q, d.port q = s.dev.port q) ∧ sameLinksBut p.val s.dev d ∧
          d = { s.dev with ports := d.ports, links := d.links, out := d.out })) ∧
    (∀ r : Restripe, y.state = .restripe → y.restripe = some r → r.announce = [] →
      ∃ d, Machine.exec (.txSlot p) s = .next { s with dev := d } ∧
        d.out = s.dev.out ++ [.markers p.val (markerSignal r.width (laneMap y.txFail y.spareEn r.width) l.mcountTx true
          fun i => (goodWaves y.txFail y.spareEn).contains i)] ∧
        d.link p.val = { l with
          mcountTx := (l.mcountTx + 1) % 65536, scrTx := (List.range 4).map scrSeed, blkTx := 0 } ∧
        sameLinksBut p.val s.dev d ∧ d = { s.dev with links := d.links, out := d.out }) ∧
    (y.state = .training → y.step = 3 → ∀ t : TrainWord,
      t = { ttype := 1, body := BitVec.ofNat 32 (s.dev.capBody p.val), wave := 0 } →
      Machine.exec (.txSlot p) s =
        .next { s with dev := s.dev.emit (.trainWord p.val t (fiveCopies (trainWord t))) }) ∧
    (portUp y.state = true → l.lstate = .doze → l.waking = true →
      ∃ d, Machine.exec (.txSlot p) s = .next { s with dev := d } ∧
        d.out = s.dev.out ++ [.markers p.val (markerSignal y.width y.txMap l.mcountTx false fun _ => true)] ∧
        sameLinksBut p.val s.dev d ∧ d = { s.dev with links := d.links, out := d.out })

/-- NAK_RX, NAK_RESEND_TIMEOUT, REPLAY_WINDOW_FULL, REPLAY_NO_PROGRESS_LIMIT, INIT_TIMEOUT, RETRAIN_RX, CUT_NOTICE_RX,
LC_RESERVED_RX (R102, R104, R105, R107, R115, R124). -/
def Obligations.ReplaysStartAndLimitsRetrain : Prop :=
  ∀ (s : State) (p : Port) (l : LinkSt), s.dev.coreUp = true → s.dev.link p.val = l →
    (∀ seq : BitVec 12, l.accepted (0x1000 + seq.toNat) = true → l.lstate = .active ∨ l.lstate = .replay →
      ∃ d, Machine.exec (.nakRx p seq) s = .next { s with dev := d } ∧
        d.rawF .PORT_NAK_RX_CNT 0 p.val 0 = up1 (s.dev.rawF .PORT_NAK_RX_CNT 0 p.val 0) ∧ sameLinksBut p.val s.dev d ∧
        d = { s.dev with links := d.links, regs := d.regs, hot := d.hot } ∧
        (∀ i, i = subMod 4096 seq.toNat (subMod 4096 l.txNext l.replayList.length) →
          (i ≤ l.replayList.length → steerBusy (s.dev.port p.val).txSteer = false →
            d.link p.val = { l with
              lcCount := 0, cursor := if i < l.replayList.length then some i else none
              lstate := if i < l.replayList.length then .replay else .active, lackMoved := false
              consec := if l.lackMoved then 0 else min 16 (l.consec + 1) } ∧
            d.rawF .PORT_REPLAY_CNT 0 p.val 0 = up1 (s.dev.rawF .PORT_REPLAY_CNT 0 p.val 0) ∧
            sameRegsBut [.PORT_NAK_RX_CNT, .PORT_REPLAY_CNT] s.dev d) ∧
          (i ≤ l.replayList.length → steerBusy (s.dev.port p.val).txSteer = true →
            d.link p.val = { l with lcCount := 0, nakWait := some seq.toNat } ∧ sameRegsBut [.PORT_NAK_RX_CNT] s.dev d) ∧
          (l.replayList.length < i →
            d.link p.val = { l with lcCount := 0 } ∧ d.fd F.PORT_PROTO_CAP_VALID p.val = 1 ∧
            sameRegsBut [.PORT_NAK_RX_CNT, .PORT_PROTO_CAP] s.dev d))) ∧
    (l.nakPending = true → l.lstate ≠ .down →
      ∃ d, Machine.exec (.nakResendTimeout p) s = .next { s with dev := d } ∧
        d.link p.val = { l with nakDue := some l.rxExpect } ∧
        d.rawF .PORT_NAK_TX_CNT 0 p.val 0 = up1 (s.dev.rawF .PORT_NAK_TX_CNT 0 p.val 0) ∧
        sameRegsBut [.PORT_NAK_TX_CNT] s.dev d ∧ sameLinksBut p.val s.dev d ∧
        d = { s.dev with links := d.links, regs := d.regs, hot := d.hot }) ∧
    (l.nakPending = false → Machine.exec (.nakResendTimeout p) s = .next s) ∧
    (2048 ≤ l.replayList.length → l.cursor = none → l.lstate = .active ∨ l.lstate = .replay ∨ l.lstate = .init →
      ∃ d, Machine.exec (.replayWindowFull p) s = .next { s with dev := d } ∧
        d.link p.val = { l with
          cursor := some 0, lstate := if l.lstate = .active then .replay else l.lstate, lackMoved := false
          consec := if l.lackMoved then 0 else min 16 (l.consec + 1) } ∧
        d.rawF .PORT_REPLAY_CNT 0 p.val 0 = up1 (s.dev.rawF .PORT_REPLAY_CNT 0 p.val 0) ∧
        sameRegsBut [.PORT_REPLAY_CNT] s.dev d ∧ sameLinksBut p.val s.dev d ∧
        d = { s.dev with links := d.links, regs := d.regs, hot := d.hot }) ∧
    (portUp (s.dev.port p.val).state = true →
      (16 ≤ l.consec →
        ∃ d, Machine.exec (.replayNoProgressLimit p) s = .next { s with dev := d } ∧ retrained p.val s.dev d) ∧
      (l.lstate = .init → ∃ d, Machine.exec (.initTimeout p) s = .next { s with dev := d } ∧ retrained p.val s.dev d) ∧
      (l.accepted 0x7000 = true →
        ∃ d, Machine.exec (.retrainRx p) s = .next { s with dev := d } ∧ retrained p.val s.dev d ∧
          d.out = s.dev.out ∧ d.fns = s.dev.fns)) ∧
    ((s.dev.port p.val).state = .restripe → l.accepted 0x7000 = true →
      ∃ d, Machine.exec (.retrainRx p) s = .next { s with dev := d } ∧
        d.port p.val = { s.dev.port p.val with retrainAfter := true } ∧ d.link p.val = { l with lcCount := 0 } ∧
        samePortsBut p.val s.dev d ∧ sameLinksBut p.val s.dev d ∧
        d = { s.dev with ports := d.ports, links := d.links }) ∧
    (l.accepted 0x6000 = true →
      ∃ d, Machine.exec (.cutNoticeRx p) s = .next { s with dev := d } ∧
        d.port p.val = { s.dev.port p.val with noticeAt := some s.dev.cycle } ∧ d.link p.val = { l with lcCount := 0 } ∧
        samePortsBut p.val s.dev d ∧ sameLinksBut p.val s.dev d ∧
        d = { s.dev with ports := d.ports, links := d.links }) ∧
    (0xA ≤ l.lcVal.toNat / 4096 → 0 < l.lcCount →
      ∃ d, Machine.exec (.lcReservedRx p) s = .next { s with dev := d } ∧
        d.rawF .PORT_LC_BAD_CNT 0 p.val 0 = up1 (s.dev.rawF .PORT_LC_BAD_CNT 0 p.val 0) ∧
        d.link p.val = { l with lcCount := 0 } ∧ sameRegsBut [.PORT_LC_BAD_CNT] s.dev d ∧
        sameLinksBut p.val s.dev d ∧ d = { s.dev with links := d.links, regs := d.regs, hot := d.hot })

/-- STEER_REQ_RX, STEER_ANN_RX, STEER_ACK_RX, STEER_SWITCH, RESTRIPE_RX, RESTRIPE_MARKER_RX, RESTRIPE_COMPLETE,
RESTRIPE_TIMEOUT (R50, R53, R115, R117, R118, R119). -/
def Obligations.LanesSteerAndPortsRestripe : Prop :=
  ∀ (s : State) (p : Port) (l : LinkSt) (x : PortSt), s.dev.coreUp = true → s.dev.link p.val = l →
    s.dev.port p.val = x →
    (portUp x.state = true →
      (∀ (lane : Lane) (w : Wave), l.accepted (0x2000 ||| lane.val <<< 10 ||| w.val <<< 7) = true →
        (mapWave x.txMap lane.val ≠ w.val →
          Machine.exec (.steerReqRx p lane w) s =
            .next { s with dev := s.dev.updLink p.val fun k => { k with lcCount := 0 } }) ∧
        (mapWave x.txMap lane.val = w.val → steerBusy x.txSteer = false → x.txFail.getLsbD w.val = false →
          mapLane x.txMap w.val = some lane.val →
          ∃ d, Machine.exec (.steerReqRx p lane w) s = .next { s with dev := d } ∧
            (spareFree x.txFail x.txMap x.spareEn = true →
              d.port p.val = { x with
                txFail := x.txFail ||| BitVec.ofNat 5 (1 <<< w.val)
                txSteer := some { lane := lane.val, fromWave := w.val, toWave := 4, countdown := 64, acked := false,
                                  switched := false, repeats := 0 } } ∧
              d.link p.val = { l with lcCount := 0 } ∧ samePortsBut p.val s.dev d ∧ sameLinksBut p.val s.dev d ∧
              d = { s.dev with ports := d.ports, links := d.links }) ∧
            (spareFree x.txFail x.txMap x.spareEn = false →
              narrowed p.val { x with txFail := x.txFail ||| BitVec.ofNat 5 (1 <<< w.val) } askRestripe s.dev d))) ∧
      (∀ (spare : Bool) (lane : Lane) (w : Wave) (n : Nat), 2 ≤ l.annCount → l.annVal = annWord lane.val w.val n →
        steerBusy x.rxSteer = false → mapWave x.rxMap lane.val ≠ w.val →
        ∃ d, Machine.exec (.steerAnnRx p spare lane w n) s = .next { s with dev := d } ∧
          d.port p.val = { x with
            steerReq := none
            rxSteer := some { lane := lane.val, fromWave := mapWave x.rxMap lane.val, toWave := w.val, countdown := n - 1,
                              acked := true, switched := false, repeats := 0 } } ∧
          d.link p.val = { l with annCount := 0 } ∧ samePortsBut p.val s.dev d ∧ sameLinksBut p.val s.dev d ∧
          d = { s.dev with ports := d.ports, links := d.links }) ∧
      (l.accepted 0x5000 = true →
        ∃ d, Machine.exec (.restripeRx p) s = .next { s with dev := d } ∧ narrowed p.val x [] s.dev d ∧
          (d.link p.val).replayList = l.replayList) ∧
      ∀ (w : Wave) (blk : Block) (m : Marker), acceptMarker blk = some m → m.rstr = true → m.wave.toNat = w.val →
        x.restriped = false ∨ widthOf m.width.toNat ≠ x.width →
        0 < x.minW → x.minW ≤ min (min (dirWidth x.txFail x.spareEn) (dirWidth x.rxFail x.spareEn)) x.maxW →
        x.minW ≤ widthOf m.width.toNat →
        ∃ d, Machine.exec (.restripeMarkerRx p w blk) s = .next { s with dev := d } ∧ (d.port p.val).state = .restripe ∧
          d.rawF .PORT_RESTRIPE_CNT 0 p.val 0 = up1 (s.dev.rawF .PORT_RESTRIPE_CNT 0 p.val 0) ∧
          samePortsBut p.val s.dev d ∧ sameLinksBut p.val s.dev d ∧ sameCompute s.dev d ∧ d.queues = s.dev.queues) ∧
    (∀ (lane : Lane) (w : Wave) (t : Steer), l.accepted (0x4000 ||| lane.val <<< 10 ||| w.val <<< 7) = true →
      x.txSteer = some t → t.lane = lane.val → t.toWave = w.val →
      ∃ d, Machine.exec (.steerAckRx p lane w) s = .next { s with dev := d } ∧
        d.port p.val = { x with txSteer := if t.switched then none else some { t with acked := true } } ∧
        d.link p.val = { l with lcCount := 0 } ∧ samePortsBut p.val s.dev d ∧ sameLinksBut p.val s.dev d ∧
        d = { s.dev with ports := d.ports, links := d.links }) ∧
    (∀ t : Steer, t.countdown = 0 → t.switched = false → x.pendFail = [] →
      (x.rxSteer = some t →
        ∃ d, Machine.exec (.steerSwitch p true) s = .next { s with dev := d } ∧
          d.port p.val = { x with
            rxMap := mapPut x.rxMap t.lane t.toWave, rxSteer := some { t with switched := true, countdown := 64 }
            rxFail := x.rxFail ||| BitVec.ofNat 5 (1 <<< t.fromWave) } ∧
          d.rawF .PORT_STEER_CNT 0 p.val 0 = up1 (s.dev.rawF .PORT_STEER_CNT 0 p.val 0) ∧
          sameRegsBut [.PORT_STEER_CNT] s.dev d ∧ samePortsBut p.val s.dev d ∧
          d = { s.dev with ports := d.ports, regs := d.regs, hot := d.hot }) ∧
      (x.txSteer = some t → l.nakWait = none →
        ∃ d, Machine.exec (.steerSwitch p false) s = .next { s with dev := d } ∧
          d.port p.val = { x with
            txMap := mapPut x.txMap t.lane t.toWave
            txSteer := if t.acked then none else some { t with switched := true } } ∧
          d.rawF .PORT_STEER_CNT 0 p.val 0 = up1 (s.dev.rawF .PORT_STEER_CNT 0 p.val 0) ∧
          sameRegsBut [.PORT_STEER_CNT] s.dev d ∧ samePortsBut p.val s.dev d ∧
          d = { s.dev with ports := d.ports, regs := d.regs, hot := d.hot })) ∧
    (x.state = .restripe → ∀ r : Restripe, x.restripe = some r →
      (∀ (w : Wave) (blk : Block),
        ((∀ m, acceptMarker blk = some m → m.rstr = false ∨ m.wave.toNat ≠ w.val) →
          ∃ d, Machine.exec (.restripeMarkerRx p w blk) s = .next { s with dev := d } ∧
            d.port p.val = { x with restripe := some (r.miss w.val) } ∧ samePortsBut p.val s.dev d ∧
            d = { s.dev with ports := d.ports }) ∧
        ∀ (m : Marker) (n : Nat), acceptMarker blk = some m → m.rstr = true → m.wave.toNat = w.val →
          n = widthOf m.width.toNat → 0 < n →
          (n < x.minW →
            ∃ d, Machine.exec (.restripeMarkerRx p w blk) s = .next { s with dev := d } ∧
              (d.port p.val).state = .down ∧ (d.port p.val).reason = 0xEB ∧ samePortsBut p.val s.dev d ∧
              sameLinksBut p.val s.dev d ∧ sameCompute s.dev d ∧ d.queues = s.dev.queues) ∧
          (x.minW ≤ n → ∀ r' : Restripe,
            (n < r.width ∧ m.lane.toNat < n ∧
              r' = Restripe.hit { r with width := n, hits := [0, 0, 0, 0], rmap := 0xFFF } m.lane.toNat w.val) ∨
            (n = r.width ∧ m.lane.toNat < n ∧ r' = r.hit m.lane.toNat w.val) ∨ (r.width < n ∧ r' = r.miss w.val) →
            ∃ d, Machine.exec (.restripeMarkerRx p w blk) s = .next { s with dev := d } ∧
              d.port p.val = { x with restripe := some { r' with announce := [] } } ∧ samePortsBut p.val s.dev d ∧
              d = { s.dev with ports := d.ports })) ∧
      ((∀ k, k < r.width → 16 ≤ at_ 0 r.hits k) → x.retrainAfter = false →
        ∃ d, Machine.exec (.restripeComplete p) s = .next { s with dev := d } ∧
          (d.port p.val).state = .degraded ∧ (d.port p.val).width = r.width ∧
          (d.port p.val).txMap = laneMap x.txFail x.spareEn r.width ∧ (d.port p.val).rxMap = r.rmap ∧
          (d.port p.val).restripe = none ∧
          (∃ ms : List Output, d.out = s.dev.out ++ ms ∧ ms.length = 16 ∧ ∀ o, o ∈ ms → ∃ sig, o = .markers p.val sig) ∧
          (l.replayList ≠ [] → l.lstate = .restripe → (d.link p.val).lstate = .replay ∧ (d.link p.val).cursor = some 0) ∧
          (d.link p.val).replayList = l.replayList ∧ samePortsBut p.val s.dev d ∧ sameLinksBut p.val s.dev d ∧
          d = { s.dev with ports := d.ports, links := d.links, queues := d.queues, out := d.out }) ∧
      ((∀ k, k < r.width → 16 ≤ at_ 0 r.hits k) → x.retrainAfter = true →
        ∃ d, Machine.exec (.restripeComplete p) s = .next { s with dev := d } ∧ (d.port p.val).state = .training ∧
          (d.port p.val).step = 1 ∧ samePortsBut p.val s.dev d ∧ sameLinksBut p.val s.dev d) ∧
      ∃ d, Machine.exec (.restripeTimeout p) s = .next { s with dev := d } ∧ retrained p.val s.dev d)

/-- ALIGNMENT_MARKER_RECEIVE, DOZE_REQ_RX, DOZE_ACK_RX, DOZE_REQ_TIMEOUT, WAKE_PATTERN_DETECT, DOZE_RELOCK_TIMEOUT,
EXPRESS_B_DECODE (R90, R112, R115, R124, R125, R526). -/
def Obligations.LinksAlignDozeAndSettle : Prop :=
  ∀ (s : State) (p : Port) (l : LinkSt) (x : PortSt), s.dev.link p.val = l → s.dev.port p.val = x →
    (s.dev.coreUp = true →
      (∀ (lane : Lane) (gap : Nat) (blk : Block),
        ((∀ m, acceptMarker blk = some m → m.lane.toNat ≠ lane.val ∨ m.rstr = true) → l.laneGood.length = 4 →
          ∃ d, Machine.exec (.alignmentMarkerReceive p lane (gap, blk)) s = .next { s with dev := d } ∧
            (d.link p.val).laneMiss = updAt l.laneMiss lane.val (· + 1) ∧ at_ 0 (d.link p.val).laneGood lane.val = 0 ∧
            (d.link p.val).aligned = (l.aligned && !(4 ≤ at_ 0 (updAt l.laneMiss lane.val (· + 1)) lane.val)) ∧
            (d.link p.val).lstate = l.lstate ∧ sameLinksBut p.val s.dev d ∧ d = { s.dev with links := d.links }) ∧
        ∀ (m : Marker) (g : List Nat), acceptMarker blk = some m → m.lane.toNat = lane.val → m.rstr = false → gap = 6473 →
          at_ none l.laneMark lane.val = some ((m.mcount.toNat + 65535) % 65536) →
          g = updAt l.laneGood lane.val (· + 1) →
          ∃ d, Machine.exec (.alignmentMarkerReceive p lane (gap, blk)) s = .next { s with dev := d } ∧
            (d.link p.val).laneGood = g ∧ (d.link p.val).laneMiss = updAt l.laneMiss lane.val (fun _ => 0) ∧
            (d.link p.val).scrRx = updAt l.scrRx lane.val (fun _ => scrSeed lane.val) ∧
            (l.aligned = true → (d.link p.val).aligned = true) ∧
            ((∀ i, i < max 1 x.width → 2 ≤ at_ 0 g i ∧
                at_ none (updAt l.laneMark lane.val fun _ => some m.mcount.toNat) i = some m.mcount.toNat) →
              (d.link p.val).aligned = true) ∧
            sameLinksBut p.val s.dev d ∧ d = { s.dev with links := d.links }) ∧
      (l.lstate = .active →
        (l.accepted 0x8000 = true → l.txSel = [] →
          ∃ d, Machine.exec (.dozeReqRx p) s = .next { s with dev := d } ∧
            d.link p.val = { l with lcCount := 0, dozeAck := if l.dozeAck = 0 then 16 else l.dozeAck } ∧
            sameLinksBut p.val s.dev d ∧ d = { s.dev with links := d.links }) ∧
        (l.accepted 0x9000 = true → l.dozeReq = true →
          ∃ (d : Dev) (ms : List Output), Machine.exec (.dozeAckRx p) s = .next { s with dev := d } ∧
            (d.link p.val).lstate = .doze ∧ (d.link p.val).dozeReq = false ∧ (d.link p.val).waking = false ∧
            (d.link p.val).replayList = l.replayList ∧ (d.link p.val).rxExpect = l.rxExpect ∧
            (d.link p.val).avail = l.avail ∧ (d.link p.val).outst = l.outst ∧ d.out = s.dev.out ++ ms ∧
            ms.length = 16 ∧ (∀ o, o ∈ ms → ∃ sig, o = .markers p.val sig) ∧ sameLinksBut p.val s.dev d ∧
            d = { s.dev with links := d.links, out := d.out }) ∧
        (l.dozeAck = 1 → l.cursor = none → l.replayList.length < 2048 → l.txSel = [] → l.nakDue = none →
          l.cutNotice = false → l.dozeReq = false → s.dev.s2Of p.val = [] → portUp x.state = true → x.txSteer = none →
          x.rxSteer = none → x.steerReq = none →
          ∃ d, Machine.exec (.txSlot p) s = .next { s with dev := d } ∧ (d.link p.val).lstate = .doze ∧
            (d.link p.val).dozeAck = 0 ∧ sameLinksBut p.val s.dev d ∧ sameCompute s.dev d)) ∧
      (l.dozeReq = true → s.dev.sys.pwr.step ≠ 6 →
        ∃ d, Machine.exec (.dozeReqTimeout p) s = .next { s with dev := d } ∧
          d.link p.val = { l with dozeReq := false, dozeTries := 0 } ∧
          d.rawF .PWR_DOZE_NAK_CNT 0 0 0 = up1 (s.dev.rawF .PWR_DOZE_NAK_CNT 0 0 0) ∧
          sameRegsBut [.PWR_DOZE_NAK_CNT] s.dev d ∧ sameLinksBut p.val s.dev d ∧
          d = { s.dev with links := d.links, regs := d.regs, hot := d.hot }) ∧
      (∀ e : Desc, l.dozeReq = true → s.dev.sys.pwr.step = 6 → s.dev.sys.pwr.cur = some e → e.arg 28 1 % 4 = 3 →
        (l.dozeTries < 2 → l.lstate = .active → portUp x.state = true →
          ∃ d, Machine.exec (.dozeReqTimeout p) s = .next { s with dev := d } ∧
            d.link p.val = { l with dozeReq := true, dozeTries := l.dozeTries + 1 } ∧
            d.rawF .PWR_DOZE_NAK_CNT 0 0 0 = up1 (s.dev.rawF .PWR_DOZE_NAK_CNT 0 0 0) ∧
            sameLinksBut p.val s.dev d ∧ d = { s.dev with links := d.links, regs := d.regs, hot := d.hot }) ∧
        (2 ≤ l.dozeTries → s.dev.sys.pwr.pend = none →
          ∃ d, Machine.exec (.dozeReqTimeout p) s = .next { s with dev := d } ∧ d.sys.pwr.cur = none ∧
            completedTo e 2 0xE1 0 s.dev d)) ∧
      (l.lstate = .doze → l.waking = true → portUp x.state = true →
        ∃ d, Machine.exec (.dozeRelockTimeout p) s = .next { s with dev := d } ∧ retrained p.val s.dev d ∧
          d.out = s.dev.out) ∧
      (∀ sig idle : Signal, l.early = none → Machine.exec (.expressBDecode p sig idle) s = .next s) ∧
      (∀ (e : RxSlot) (sig idle : Signal), l.early = some e → x.rxSteer = none →
        ((s.dev.rxDecodeB p.val sig).1 = none → l.nakPending = false →
          ∃ d, Machine.exec (.expressBDecode p sig idle) s = .next { s with dev := d } ∧ (d.link p.val).early = none ∧
            (d.link p.val).nakPending = true ∧ (d.link p.val).nakDue = some l.rxExpect ∧
            (d.link p.val).rxExpect = l.rxExpect ∧
            d.rawF .PORT_FEC_UNCORR_CNT 0 p.val 0 = up1 (s.dev.rawF .PORT_FEC_UNCORR_CNT 0 p.val 0) ∧
            d.fd F.FLT_STATUS_LINK_ERR = 1 ∧ (∀ q, d.port q = s.dev.port q) ∧ sameCompute s.dev d) ∧
        ∀ (m : Nat) (syms pos : List Nat) (f : Flit), (s.dev.rxDecodeB p.val sig).1 = some (syms, pos) → m = messageOf syms →
          f = { e.flit with
            hcrc := BitVec.ofNat 32 m
            payload := BitVec.ofNat 2048 (e.flit.payload.toNat % 2 ^ 920 + swapBytes 141 (m / 2 ^ 32) * 2 ^ 920) } →
          e.aOk = true → f.hcrc = hcrcOf f → f.lseq.toNat = l.rxExpect → l.lstate = .active →
          subMod 4096 (f.lack.toNat + 1) (subMod 4096 l.txNext l.replayList.length) = 0 →
          ∃ d, Machine.exec (.expressBDecode p sig idle) s = .next { s with dev := d } ∧ (d.link p.val).early = none ∧
            (d.link p.val).rxExpect = (l.rxExpect + 1) % 4096 ∧ (d.link p.val).nakPending = false ∧
            (∀ q, d.port q = s.dev.port q) ∧ sameCompute s.dev d)) ∧
    (s.dev.inReset = false → l.lstate = .doze → l.waking = false → s.dev.domState (engineDom (p.val / 16)) = 2 →
      s.dev.domState coreDom = 2 →
      ∃ d, Machine.exec (.wakePatternDetect p) s = .next { s with dev := d } ∧
        d.link p.val = { l with
          waking := true, aligned := false, laneMark := [none, none, none, none], laneGood := [0, 0, 0, 0]
          laneMiss := [0, 0, 0, 0] } ∧
        sameLinksBut p.val s.dev d ∧ d = { s.dev with links := d.links })

/-- MEM_READ, MEM_WRITE, MEM_ATOMIC_ADD, MEM_REDUCE, MEM_MCAST_READ, MEM_RESERVED_OP (R241, R242, R384, R452, R453). -/
def Obligations.MemoryRequestsAreServed : Prop :=
  ∀ (s : State) (k : Die) (c : QCell) (rest : List QCell) (f : Flit) (g : Nat),
    s.dev.memTakes k.val c rest → f = c.flit → g = f.ofs.toNat →
    (f.fmt = 0 → f.form = 3 →
      (memOp f = 0 → s.dev.memGran f 1 true false →
        ∃ d : Dev, Machine.exec (.memRead k ReadErr.none_) s = .next (State.mk s.pending s.mem d) ∧
          memAnswered k.val rest (s.dev.memAnswer f f.src (s.mem.hbmRead (256 * g) 256)) s.dev d ∧
          sameRegsBut [.MEM_SVC_REQ_CNT] s.dev d ∧ d = { s.dev with core := d.core, links := d.links, regs := d.regs, hot := d.hot }) ∧
      (memOp f = 4 → s.dev.memGran f 1 true false →
        ∃ d : Dev, Machine.exec (.memMcastRead k ReadErr.none_) s = .next (State.mk s.pending s.mem d) ∧
          memAnswered k.val rest
            (s.dev.memAnswer f (BitVec.ofNat 16 (plLe f.payload 0 2)) (s.mem.hbmRead (256 * g) 256)) s.dev d ∧
          sameRegsBut [.MEM_SVC_REQ_CNT] s.dev d ∧ d = { s.dev with core := d.core, links := d.links, regs := d.regs, hot := d.hot }) ∧
      (memOp f = 1 → s.dev.memGran f 1 false true →
        ∃ (m : Mem) (d : Dev), Machine.exec (.memWrite k ReadErr.none_) s = .next (State.mk s.pending m d) ∧
          (∀ i, i < 256 → m.hbmByte (256 * g + i) = BitVec.ofNat 8 (plByte f.payload i)) ∧ hbmSameBut s.mem m (256 * g) 256 ∧
          memAnswered k.val rest (s.dev.memAnswer f f.src []) s.dev d ∧ d.hbmFails g = false ∧
          (∀ x, x ≠ g → d.hbmFails x = s.dev.hbmFails x) ∧ sameRegsBut [.MEM_SVC_REQ_CNT] s.dev d ∧
          d = { s.dev with core := d.core, links := d.links, regs := d.regs, hbm := d.hbm, hot := d.hot })) ∧
    (f.form = 0 →
      (memOp f = 2 → f.fmt = 9 ∨ f.fmt = 1 ∨ f.fmt = 0xA → s.dev.memGran f 1 true true →
        ∃ (m : Mem) (d : Dev), Machine.exec (.memAtomicAdd k ReadErr.none_) s = .next (State.mk s.pending m d) ∧
          m.hbmRead (256 * g) 256 = (atomicAdd f.fmt.toNat (s.mem.hbmRead (256 * g) 256) f.payload).1 ∧
          hbmSameBut s.mem m (256 * g) 256 ∧
          memAnswered k.val rest (s.dev.memAnswer f f.src (s.mem.hbmRead (256 * g) 256)) s.dev d ∧
          sameRegsBut [.MEM_SVC_REQ_CNT, .MEM_SVC_EXC] s.dev d ∧
          d = { s.dev with core := d.core, links := d.links, regs := d.regs, hot := d.hot }) ∧
      (∀ n, memOp f = 3 → (f.fmt = 1 ∧ n = 2) ∨ (f.fmt = 2 ∧ n = 4) ∨ (f.fmt = 3 ∧ n = 4) ∨ (f.fmt = 4 ∧ n = 8) ∨
          (f.fmt = 5 ∧ n = 8) → s.dev.memGran f n true true →
        ∃ (m : Mem) (d : Dev), Machine.exec (.memReduce k ReadErr.none_) s = .next (State.mk s.pending m d) ∧
          m.hbmRead (256 * g) (256 * n) = (reduceAdd f.fmt.toNat (s.mem.hbmRead (256 * g) (256 * n)) f.payload).1 ∧
          hbmSameBut s.mem m (256 * g) (256 * n) ∧ memAnswered k.val rest (s.dev.memAnswer f f.src []) s.dev d ∧
          sameRegsBut [.MEM_SVC_REQ_CNT, .MEM_SVC_EXC] s.dev d ∧
          d = { s.dev with core := d.core, links := d.links, regs := d.regs, hot := d.hot })) ∧
    (5 ≤ memOp f →
      ∃ d : Dev, Machine.exec (.memReservedOp k ReadErr.none_) s = .next (State.mk s.pending s.mem d) ∧
        memAnswered k.val rest (s.dev.memRefusal f 0xCE) s.dev d ∧
        d.rawF .MEM_SVC_ERR_CNT 0 k.val 0 = up1 (s.dev.rawF .MEM_SVC_ERR_CNT 0 k.val 0) ∧
        sameRegsBut [.MEM_SVC_REQ_CNT, .MEM_SVC_ERR_CNT] s.dev d ∧
        d = { s.dev with core := d.core, links := d.links, regs := d.regs, hot := d.hot }) ∧
    (memOp f = 0 → f.fmt = 0 → f.form = 3 → g < hbmEnd → s.dev.mayReach g f.part.toNat true false = false →
      ∃ d : Dev, Machine.exec (.memRead k ReadErr.none_) s = .next (State.mk s.pending s.mem d) ∧
        memAnswered k.val rest (s.dev.memRefusal f 0xD1) s.dev d ∧
        d.rawF .MEM_ACCESS_DENY_CNT 0 k.val 0 = up1 (s.dev.rawF .MEM_ACCESS_DENY_CNT 0 k.val 0) ∧
        sameRegsBut [.MEM_SVC_REQ_CNT, .MEM_SVC_ERR_CNT, .MEM_ACCESS_DENY_CNT] s.dev d ∧
        d = { s.dev with core := d.core, links := d.links, regs := d.regs, hot := d.hot })

/-- POOL_THREAD_COMPLETE, POOL_ALLOC, POOL_FREE, HBM_WRITE, HBM_READ, HBM_WINDOW_ACCESS, HBM_REFRESH (R457, R463-R465,
R478, R481). -/
def Obligations.PoolsWindowAndHostCopies : Prop :=
  ∀ s : State,
    (s.dev.coreUp = true → ∀ (k : Die) (p : Fin 5), (s.dev.pool k.val p.val).state = 1 →
      ∃ d : Dev, Machine.exec (.poolThreadComplete k p) s = .next { s with dev := d } ∧
        d.pool k.val p.val = {
          state := 2, free := s.dev.poolCount k.val p.val, recs := [], freed := []
          head := if s.dev.poolCount k.val p.val = 0 then none
            else some (dieG * k.val + s.dev.poolBase k.val p.val) } ∧
        (∀ k' p' : Nat, 8 * k' + p' ≠ 8 * k.val + p.val → d.pool k' p' = s.dev.pool k' p') ∧
        d = { s.dev with hbm := { s.dev.hbm with pools := d.hbm.pools } }) ∧
    (s.dev.inReset = false →
      (∀ (fn : Fn) (r : RingNo) (x : Desc),
        (∀ (k p g nxt i n : Nat), s.dev.inHand fn.val r.val 6 = some x → s.dev.cutReason x = none → x.arg 32 1 = k → s.dev.scopeHeld 4 k = false →
          bitAt (x.arg 33 1) 1 = false → 0 < x.arg 28 4 → x.arg 28 4 ≤ 16777216 → p < 4 →
          x.arg 28 4 ≤ 256 * poolGran p → (∀ q, q < p → 256 * poolGran q < x.arg 28 4) → (s.dev.pool k p).state = 2 →
          ((s.dev.pool k p).head = none →
            ∃ d : Dev, Machine.exec (.poolAlloc fn r ReadErr.none_) s = .next (State.mk s.pending s.mem (d.refuse x 0xD9)) ∧
              d.rawF .POOL_EMPTY_CNT 0 k p = up1 (s.dev.rawF .POOL_EMPTY_CNT 0 k p) ∧
              sameRegsBut [.POOL_EMPTY_CNT] s.dev d ∧ d = { s.dev with regs := d.regs, hot := d.hot }) ∧
          ((s.dev.pool k p).head = some g → s.dev.hbmFails g = false → nxt = poolLink s.mem s.dev k p g →
            (nxt = 0xFFFFFFFFFFFFFFFF ∨
              (∃ j, j < s.dev.poolCount k p ∧ nxt = dieG * k + s.dev.poolBase k p + j * poolGran p ∧
                tblGet 0 (s.dev.pool k p).recs j % 2 = 0)) →
            i = (g - dieG * k - s.dev.poolBase k p) / poolGran p →
            n = (if bitAt (x.arg 33 1) 0 = true ∨ tblGet 0 (s.dev.pool k p).recs i / 2 ≠ x.part + 1 then
              256 * poolGran p else 8) →
            ∃ (m : Mem) (d : Dev), Machine.exec (.poolAlloc fn r ReadErr.none_) s =
                .next (State.mk s.pending m (d.completeOk x g)) ∧
              (d.pool k p).head = (if nxt = 0xFFFFFFFFFFFFFFFF then none else some nxt) ∧
              (d.pool k p).free = (s.dev.pool k p).free - 1 ∧
              (∀ j, tblGet 0 (d.pool k p).recs j =
                if j = i then 2 * (x.part + 1) + 1 else tblGet 0 (s.dev.pool k p).recs j) ∧
              (∀ b, b < n → m.hbmByte (256 * g + b) = 0) ∧ hbmSameBut s.mem m (256 * g) n ∧
              d.rawF .POOL_ALLOC_CNT 0 k p = up1 (s.dev.rawF .POOL_ALLOC_CNT 0 k p) ∧
              sameRegsBut [.POOL_ALLOC_CNT] s.dev d ∧ d = { s.dev with regs := d.regs, hbm := d.hbm, hot := d.hot })) ∧
        (∀ (k p g i : Nat), s.dev.inHand fn.val r.val 7 = some x → s.dev.cutReason x = none → x.arg 28 4 = g → k = gDie g →
          s.dev.scopeHeld 4 k = false → g < hbmEnd → s.dev.poolHolding k (g - dieG * k) = some p → p < 4 →
          (s.dev.pool k p).state = 2 → g - dieG * k = s.dev.poolBase k p + i * poolGran p →
          (tblGet 0 (s.dev.pool k p).recs i = 2 * (x.part + 1) + 1 →
            ∃ (m : Mem) (d : Dev), Machine.exec (.poolFree fn r) s = .next (State.mk s.pending m (d.completeOk x 0)) ∧
              (d.pool k p).head = some g ∧ (d.pool k p).free = (s.dev.pool k p).free + 1 ∧
              (∀ j, tblGet 0 (d.pool k p).recs j =
                if j = i then 2 * (x.part + 1) else tblGet 0 (s.dev.pool k p).recs j) ∧
              m.hbmRead (256 * g) 8 = leBytes 8 ((s.dev.pool k p).head.getD 0xFFFFFFFFFFFFFFFF) ∧
              hbmSameBut s.mem m (256 * g) 8 ∧
              d.rawF .POOL_FREE_CNT 0 k p = up1 (s.dev.rawF .POOL_FREE_CNT 0 k p) ∧
              sameRegsBut [.POOL_FREE_CNT] s.dev d ∧ d = { s.dev with regs := d.regs, hbm := d.hbm, hot := d.hot }) ∧
          (tblGet 0 (s.dev.pool k p).recs i % 2 = 0 →
            ∃ d : Dev, Machine.exec (.poolFree fn r) s = .next (State.mk s.pending s.mem (d.refuse x 0xD7)) ∧
              d.rawF .POOL_FREE_ERR_CNT 0 k 0 = up1 (s.dev.rawF .POOL_FREE_ERR_CNT 0 k 0) ∧
              sameRegsBut [.POOL_FREE_ERR_CNT] s.dev d ∧ d = { s.dev with regs := d.regs, hot := d.hot })) ∧
        (s.dev.inHand fn.val r.val 8 = some x → s.dev.cutReason x = none → s.dev.memHeld x = false →
          ∃ (m : Mem) (d : Dev), Machine.exec (.hbmWrite fn r) s = .next (State.mk s.pending m (d.completeOk x 0)) ∧
            m.hbmRead (256 * x.arg 28 4) x.data.length = x.data ∧
            hbmSameBut s.mem m (256 * x.arg 28 4) x.data.length ∧
            (∀ g, d.hbmFails g = if g ∈ hbmSpan x then false else s.dev.hbmFails g) ∧
            d = { s.dev with hbm := { s.dev.hbm with bad := d.hbm.bad } }) ∧
        (s.dev.inHand fn.val r.val 9 = some x → s.dev.cutReason x = none → s.dev.memHeld x = false →
          (∀ g, g ∈ hbmSpan x → s.dev.hbmFails g = false) →
          Machine.exec (.hbmRead fn r ReadErr.none_) s = .next (State.mk s.pending s.mem
            ((s.dev.hostWrite x.fn x.buf (s.mem.hbmRead (256 * x.arg 28 4) x.buflen)).completeOk x 0)))) ∧
      (∀ (fn : Fn) (x n a : Nat), at_ false s.dev.sys.boot.bar4 fn.val = true → 0 < n → x + n ≤ 4294967296 →
        x % 256 + n ≤ 256 → (∀ j, j < 2 → s.dev.linkHeld (dieDom j) = false ∧ s.dev.scopeHeld 4 j = false) →
        a = 4294967296 * s.dev.fdF F.HOST_WIN_CFG_SLOT fn.val 0 0 + x →
        (∀ bs : List (BitVec 8), bs.length = n → s.dev.winOk fn.val (a / 256) true = true →
          s.dev.d2dFailed 2 = false → s.dev.d2dFailed (gDie (a / 256)) = false →
          s.dev.domOn (dieDom (gDie (a / 256))) = true →
          ∃ (m : Mem) (d : Dev), Machine.exec (.hbmWindowAccess fn x n (some bs) ReadErr.none_) s = .next (State.mk s.pending m d) ∧
            m.hbmRead a n = bs ∧ hbmSameBut s.mem m a n ∧ d = { s.dev with hbm := d.hbm } ∧
            (n < 256 → d.hbm = s.dev.hbm)) ∧
        (s.dev.winOk fn.val (a / 256) false = true → s.dev.hbmFails (a / 256) = false →
          s.dev.d2dFailed 2 = false → s.dev.d2dFailed (gDie (a / 256)) = false →
          s.dev.domOn (dieDom (gDie (a / 256))) = true →
          Machine.exec (.hbmWindowAccess fn x n none ReadErr.none_) s = .next (State.mk s.pending s.mem
            (s.dev.emit (.windowData fn.val (s.mem.hbmRead a n))))) ∧
        (s.dev.winOk fn.val (a / 256) false = false →
          ∃ d : Dev, Machine.exec (.hbmWindowAccess fn x n none ReadErr.none_) s = .next (State.mk s.pending s.mem d) ∧
            d.out = s.dev.out ++ [.windowData fn.val (List.replicate n 0xFF)] ∧
            d.rawF .HOST_WIN_DENY_CNT fn.val 0 0 = up1 (s.dev.rawF .HOST_WIN_DENY_CNT fn.val 0 0) ∧
            sameRegsBut [.HOST_WIN_DENY_CNT] s.dev d ∧ d = { s.dev with regs := d.regs, out := d.out, hot := d.hot })) ∧
      ∀ (k : Die) (bank met : Nat),
        (s.dev.hbm.refresh.contains (k.val, bank) = false →
          Machine.exec (.hbmRefresh k bank true met) s = .next { s with dev :=
            { s.dev with hbm := { s.dev.hbm with refresh := s.dev.hbm.refresh ++ [(k.val, bank)] } } }) ∧
        (s.dev.hbm.refresh.contains (k.val, bank) = true →
          ∃ d : Dev, Machine.exec (.hbmRefresh k bank false met) s = .next { s with dev := d } ∧
            d.hbm.refresh = s.dev.hbm.refresh.erase (k.val, bank) ∧
            d.rawF .MEM_REFRESH_WAIT_CNT 0 k.val 0 =
              min (s.dev.rawF .MEM_REFRESH_WAIT_CNT 0 k.val 0 + met) 0xFFFFFFFF ∧
            sameRegsBut [.MEM_REFRESH_WAIT_CNT] s.dev d ∧
            d = { s.dev with regs := d.regs, hot := d.hot, hbm := { s.dev.hbm with refresh := d.hbm.refresh } }))

/-- DOMAIN_DEMAND, GOVERNOR_WAVE_GRANT, DOMAIN_WAKE_DONE, DOMAIN_WAKE_TIMEOUT, DOMAIN_IDLE_GATE, DOMAIN_ENTRY_COMPLETE
(R518, R519, R521-R523, R529). -/
def Obligations.DomainsWakeFailAndGate : Prop :=
  ∀ s : State, s.dev.inReset = false →
    (∀ (n : DomNo) (k : Nat), s.dev.domHome n.val = some k →
      ∀ others : Dev → Prop, (∀ d : Dev, others d = ∀ j, s.dev.domHome j ≠ some k → d.domState j = s.dev.domState j) →
      (s.dev.domState k = 0 → s.dev.domLicensed k = true →
        (waved k = false ∨ s.dev.govOn = false → (34 ≤ k → k < 68 → s.dev.domOn (k - 34) = true) →
          ∃ d : Dev, Machine.exec (.domainDemand n) s = .next { s with dev := d } ∧ d.domState k = 1 ∧ others d ∧
            d.rawF .PWR_WAKE_CNT 0 k 0 = up1 (s.dev.rawF .PWR_WAKE_CNT 0 k 0) ∧
            sameRegsBut [.PWR_DOM_STAT, .PWR_WAKE_CNT] s.dev d ∧ d = { s.dev with regs := d.regs, hot := d.hot }) ∧
        (waved k = true → s.dev.govOn = true → (∀ e, e ∈ s.dev.sys.pwr.held → e.2 ≠ k) →
          (s.dev.sys.pwr.held = [] → s.dev.sys.pwr.wave.length < s.dev.waveSize →
            ∃ d : Dev, Machine.exec (.domainDemand n) s = .next { s with dev := d } ∧ d.domState k = 1 ∧ others d ∧
              d.sys.pwr = { s.dev.sys.pwr with wave := s.dev.sys.pwr.wave ++ [(s.dev.cycle, k)] } ∧
              sameRegsBut [.PWR_DOM_STAT, .PWR_WAKE_CNT] s.dev d ∧
              d = { s.dev with regs := d.regs, hot := d.hot, sys := { s.dev.sys with pwr := d.sys.pwr } }) ∧
          (s.dev.sys.pwr.held ≠ [] ∨ s.dev.waveSize ≤ s.dev.sys.pwr.wave.length →
            (∀ e, e ∈ s.dev.sys.pwr.wave → e.1 ≠ s.dev.cycle ∨ e.2 < k) →
            ∃ d : Dev, Machine.exec (.domainDemand n) s = .next { s with dev := d } ∧ d.domState k = 0 ∧
              d.fd F.PWR_DOM_STAT_HELD k = 1 ∧
              d.sys.pwr = { s.dev.sys.pwr with held := holdAt s.dev.cycle k s.dev.sys.pwr.held } ∧
              sameRegsBut [.PWR_DOM_STAT] s.dev d ∧
              d = { s.dev with regs := d.regs, sys := { s.dev.sys with pwr := d.sys.pwr } }))) ∧
      (s.dev.domState k = 2 ∨ s.dev.domState k = 4 ∨ s.dev.domLicensed k = false →
        Machine.exec (.domainDemand n) s = .next s) ∧
      (s.dev.domState k = 1 → s.dev.sys.pwr.accs = [] →
        (∃ d : Dev, Machine.exec (.domainWakeDone n) s = .next { s with dev := d } ∧ d.domState k = 2 ∧
          sameRegsBut [.PWR_DOM_STAT, .PWR_WAKE_CNT] s.dev d ∧ (k < 34 → s.dev.sys.pwr.demanded.contains (siftDom k) = true →
            d.domState (siftDom k) = 1) ∧
          (34 ≤ k ∨ s.dev.sys.pwr.demanded.contains (siftDom k) = false →
            others d ∧ sameRegsBut [.PWR_DOM_STAT] s.dev d ∧ d = { s.dev with regs := d.regs })) ∧
        ∀ pll : Bool,
          ∃ d : Dev, Machine.exec (.domainWakeTimeout n pll) s = .next { s with dev := d } ∧ d.domState k = 4 ∧
            d.fd F.PWR_DOM_STAT_FAIL_PLL k = (if pll then 1 else 0) ∧ d.fd F.FLT_STATUS_DOM_FAIL = 1 ∧
            others d ∧ (k < 70 ∨ 86 ≤ k → sameOptics s.dev d ∧ sameCompute s.dev d ∧
              sameTime s.dev d ∧ d.queues = s.dev.queues)) ∧
      (s.dev.domOn k = true → s.dev.gateable k = true →
        ∃ d : Dev, Machine.exec (.domainIdleGate n) s = .next { s with dev := d } ∧ d.domState k = 3 ∧ others d ∧
          sameRegsBut [.PWR_DOM_STAT] s.dev d ∧ d = { s.dev with regs := d.regs }) ∧
      (s.dev.domOn k = false ∨ s.dev.gateable k = false → Machine.exec (.domainIdleGate n) s = .next s) ∧
      (s.dev.domState k = 3 →
        ∃ (m : Mem) (d : Dev), Machine.exec (.domainEntryComplete n) s = .next (State.mk s.pending m d) ∧
          (s.dev.sys.pwr.demanded.contains k = false → d.domState k = 0 ∧ d = { s.dev with regs := d.regs }) ∧
          (s.dev.sys.pwr.demanded.contains k = true → d.domState k = 1 ∧
            d.sys.pwr = { s.dev.sys.pwr with demanded := s.dev.sys.pwr.demanded.erase k } ∧
            d = { s.dev with regs := d.regs, hot := d.hot, sys := { s.dev.sys with pwr := d.sys.pwr } }) ∧
          sameRegsBut [.PWR_DOM_STAT, .PWR_WAKE_CNT] s.dev d ∧ m.hbm = s.mem.hbm ∧
          (k < 32 → 2 ≤ s.dev.pwrState ∨ s.dev.sys.pwr.step = 4 → (∀ b, m.tileByte (s.dev.phys k) b = 0) ∧
            ∀ t b, t ≠ s.dev.phys k → m.tileByte t b = s.mem.tileByte t b) ∧
          (32 ≤ k ∨ (s.dev.pwrState < 2 ∧ s.dev.sys.pwr.step ≠ 4) → m = s.mem))) ∧
    (∀ n : DomNo, s.dev.domHome n.val = none → s.dev.domState n.val = 0 ∧
      ∀ c, c ∈ [Instr.domainDemand n, .domainWakeDone n, .domainWakeTimeout n true, .domainIdleGate n] →
        Machine.exec c s = .next s) ∧
    (s.dev.govOn = true → (∀ e, e ∈ s.dev.sys.pwr.held → s.dev.domHome e.2 = some e.2 ∧ s.dev.domState e.2 = 0) →
      (s.dev.sys.pwr.held.map (·.2)).Nodup →
      ∃ d : Dev, Machine.exec .governorWaveGrant s = .next { s with dev := d } ∧
        (∀ e, e ∈ s.dev.sys.pwr.held.take s.dev.waveSize → d.domState e.2 = 1) ∧
        (∀ j, (∀ e, e ∈ s.dev.sys.pwr.held.take s.dev.waveSize → s.dev.domHome j ≠ some e.2) →
          d.domState j = s.dev.domState j) ∧
        d.sys.pwr = { s.dev.sys.pwr with
          held := s.dev.sys.pwr.held.drop s.dev.waveSize
          wave := s.dev.sys.pwr.held.take s.dev.waveSize } ∧
        sameRegsBut [.PWR_DOM_STAT, .PWR_WAKE_CNT] s.dev d ∧
        d = { s.dev with regs := d.regs, hot := d.hot, sys := { s.dev.sys with pwr := d.sys.pwr } })

/-- POWER_REQ, POWER_ENTRY_STEP_COMPLETE, POWER_ENTRY_TIMEOUT, GOVERNOR_INTERVAL, PORT_DOZE_IDLE (R524-R528, R530,
R531). -/
def Obligations.PowerEntriesAndTheGovernor : Prop :=
  ∀ s : State, s.dev.inReset = false →
    (∀ (fn : Fn) (r : RingNo) (x : Desc) (y : Nat), s.dev.inHand fn.val r.val 0xE = some x → s.dev.descTaken x = false →
      s.dev.sys.resets = [] → y = x.arg 28 1 % 4 →
      (s.dev.sys.pwr.cur = none → y = s.dev.pwrState →
        Machine.exec (.powerReq fn r) s = .next { s with dev := s.dev.complete x 0 0 0 }) ∧
      (s.dev.sys.pwr.cur = none → y ≠ s.dev.pwrState → 2 ≤ y → s.dev.entryRefused y = none →
        Machine.exec (.powerReq fn r) s = .next { s with dev :=
          (s.dev.updPwr fun w => { w with cur := some x, step := 1, off := [] }) }) ∧
      (s.dev.sys.pwr.cur = none → y ≠ s.dev.pwrState → y < 2 →
        Machine.exec (.powerReq fn r) s = .next { s with dev :=
          ((s.dev.updPwr fun w => { w with cur := some x, step := 8, off := [] }).wakeSome y) }) ∧
      (∀ cls i, s.dev.sys.pwr.cur = none → y ≠ s.dev.pwrState → 2 ≤ y → s.dev.entryRefused y = some (cls, i) →
        ∃ d : Dev, Machine.exec (.powerReq fn r) s = .next { s with dev := d.complete x 2 0xE1 0 } ∧
          d.rawF .PWR_REFUSE_CNT 0 cls 0 = up1 (s.dev.rawF .PWR_REFUSE_CNT 0 cls 0) ∧ d.sys.pwr = s.dev.sys.pwr ∧
          sameOptics s.dev d ∧ sameCompute s.dev d ∧ sameTime s.dev d ∧ d.queues = s.dev.queues) ∧
      (∀ c, s.dev.sys.pwr.cur = some c → s.dev.sys.pwr.pend = none →
        Machine.exec (.powerReq fn r) s = .next { s with dev := (s.dev.updPwr fun w => { w with pend := some x }) }) ∧
      (∀ c z, s.dev.sys.pwr.cur = some c → s.dev.sys.pwr.pend = some z →
        ∃ d : Dev, Machine.exec (.powerReq fn r) s = .next { s with dev := d } ∧
          d.sys.pwr = { s.dev.sys.pwr with pend := some x } ∧
          (d.ring z.fn z.ring).done = (s.dev.ring z.fn z.ring).done ++
            [{ desc := z, status := 2, reason := 0xE2, result := 0, time := s.dev.fabricTime }] ∧
          d.rawF .PWR_SUPERSEDE_CNT 0 0 0 = up1 (s.dev.rawF .PWR_SUPERSEDE_CNT 0 0 0) ∧
          sameOptics s.dev d ∧ sameCompute s.dev d ∧ sameTime s.dev d ∧ d.queues = s.dev.queues)) ∧
    (∀ x : Desc, s.dev.sys.pwr.cur = some x →
      (s.dev.sys.pwr.step = 1 → s.dev.d2dFailed 0 = false → s.dev.d2dFailed 1 = false →
        ∃ d : Dev, Machine.exec .powerEntryStepComplete s = .next { s with dev := d } ∧
          d.sys.pwr = { s.dev.sys.pwr with step := 2 } ∧
          (∀ c, c ∈ s.dev.liveCtxs → (s.dev.ctx c).resident = true →
            d.ctx c = { s.dev.ctx c with spilling := true }) ∧
          (∀ c, c ∉ s.dev.liveCtxs ∨ (s.dev.ctx c).resident = false → d.ctx c = s.dev.ctx c) ∧
          d = { s.dev with ctxs := d.ctxs, sys := { s.dev.sys with pwr := d.sys.pwr } }) ∧
      (∀ y, s.dev.sys.pwr.step = 8 → y = x.arg 28 1 % 4 → 2 ≤ y → s.dev.wanted y = [] → s.dev.sys.pwr.pend = none →
        ∃ d : Dev, Machine.exec .powerEntryStepComplete s = .next { s with dev := d } ∧ d.pwrState = y ∧
          d.sys.pwr = { s.dev.sys.pwr with cur := none, step := 0, off := [] } ∧
          (d.ring x.fn x.ring).done = (s.dev.ring x.fn x.ring).done ++
            [{ desc := x, status := 0, reason := 0, result := 0, time := s.dev.fabricTime }] ∧
          sameOptics s.dev d ∧ sameCompute s.dev d ∧ sameTime s.dev d ∧ d.queues = s.dev.queues) ∧
      (s.dev.sys.pwr.step = 2 → s.dev.sys.pwr.off = [] → s.dev.sys.pwr.pend = none →
        ∃ d : Dev, Machine.exec .powerEntryTimeout s = .next { s with dev := d } ∧
          d.sys.pwr = { s.dev.sys.pwr with cur := none, step := 0 } ∧
          d.rawF .PWR_REFUSE_CNT 0 0 0 = up1 (s.dev.rawF .PWR_REFUSE_CNT 0 0 0) ∧
          (d.ring x.fn x.ring).done = (s.dev.ring x.fn x.ring).done ++
            [{ desc := x, status := 2, reason := 0xE1, result := 0, time := s.dev.fabricTime }] ∧
          d.ports = s.dev.ports ∧ sameCompute s.dev d ∧ sameTime s.dev d ∧ d.queues = s.dev.queues)) ∧
    (∀ (act : List (Nat × Nat)) (p slope floor : Nat), p = govEstimate act →
      slope = (if s.dev.govOn then s.dev.sys.pwr.gov - max 1 (s.dev.sys.pwr.gcfg % 1024) - p else 0) →
      floor = 10 * min 190 (s.dev.sys.pwr.gfloor % 256) - govEstimate (act.filter fun e => e.1 = coreDom) →
      ∃ d : Dev, Machine.exec (.governorInterval act) s = .next { s with dev := d } ∧
        d.fd F.PWR_GOV_STAT_EST = min 0xFFFF ((p + max slope floor) / 10) ∧
        d.fd F.PWR_GOV_STAT_BALLAST = min 0xFFFF (max slope floor / 10) ∧
        d.sys.pwr = { s.dev.sys.pwr with
          gov := p + max slope floor, tileBal := slope - floor
          gcfg := s.dev.rawF .PWR_GOV_CFG 0 0 0, gfloor := s.dev.rawF .PWR_GOV_FLOOR 0 0 0 } ∧
        sameRegsBut [.PWR_GOV_STAT] s.dev d ∧
        d = { s.dev with regs := d.regs, sys := { s.dev.sys with pwr := d.sys.pwr } }) ∧
    ∀ p : Port, s.dev.coreUp = true →
      (2 ≤ s.dev.pwrState ∨ s.dev.sys.pwr.step = 6 ∨ bitAt (s.dev.fd F.PWR_DOZE_EN_PORTS (p.val / 64)) (p.val % 64) = true →
        portUp (s.dev.port p.val).state = true → (s.dev.link p.val).lstate = .active → (s.dev.link p.val).dozeReq = false →
        Machine.exec (.portDozeIdle p) s = .next { s with dev :=
          (s.dev.updLink p.val fun l => { l with dozeReq := true }) }) ∧
      (s.dev.pwrState < 2 → s.dev.sys.pwr.step ≠ 6 →
        bitAt (s.dev.fd F.PWR_DOZE_EN_PORTS (p.val / 64)) (p.val % 64) = false →
        Machine.exec (.portDozeIdle p) s = .next s)

/-- COLD_RESET, WARM_RESET_PIN, RESET_FULL_WARM, RAIL_FAULT, RAIL_RECOVERY, BRINGUP_STEP_COMPLETE, BRINGUP_STEP_FAIL,
LINK_WAIT_EXPIRY (R536-R543, R548-R550, R643, R646). That STEP counts as 1 right after State.reset is the model's
choice (log entry 8). -/
def Obligations.ResetsStartBringUp : Prop :=
  ∀ s : State,
    (∀ c : Instr, (c = .coldReset false ∧ s.dev.sys.boot.coldLow = false ∧ s.dev.sys.boot.railBad = false) ∨
        c = .coldReset true ∨ (c = .railFault ∧ s.dev.sys.boot.coldLow = false) →
      ∃ d : Dev, Machine.exec c s = .next (State.mk s.pending { hbm := [], tile := [] } d) ∧
        sameOptics Dev.reset d ∧ sameFabric Dev.reset d ∧ sameCompute Dev.reset d ∧ sameTime Dev.reset d ∧
        d.qmr = [] ∧ d.accOrder = 0 ∧ (∀ n, n < 87 → d.domState n = if n = 32 ∨ n = 33 ∨ n = 66 ∨ n = 67 then 0 else 2) ∧ d.sys.boot.running = true ∧
        d.fd F.BOOT_STAT_WARM = 0 ∧ d.fd F.BOOT_STAT_READY = 0 ∧ d.out = s.dev.out ∧
        d.sys.flash.slots = s.dev.sys.flash.slots ∧
        (c = .coldReset false → d.fd F.BOOT_STAT_STEP = 1 ∧ d.inReset = false) ∧
        (c ≠ .coldReset false → d.fd F.BOOT_STAT_STEP = 0 ∧ d.inReset = true)) ∧
    (∀ c : Instr, (c = .coldReset false ∧ s.dev.sys.boot.coldLow = true ∧ s.dev.sys.boot.railBad = false) ∨
        (c = .railRecovery ∧ s.dev.sys.boot.railBad = true ∧ s.dev.sys.boot.coldLow = false) →
      ∃ d : Dev, Machine.exec c s = .next { s with dev := d } ∧ d.fd F.BOOT_STAT_STEP = 1 ∧ d.inReset = false ∧
        sameRegsBut [.BOOT_STAT] s.dev d ∧
        d = { s.dev with regs := d.regs, sys := { s.dev.sys with boot := d.sys.boot } }) ∧
    (∀ c : Instr, s.dev.inReset = false → s.dev.sys.therm.trip = false →
      c = .warmResetPin ∨ (c = .resetFullWarm none ∧ s.dev.sys.fmReset = true) ∨
        (∃ (fn : Fn) (r : RingNo), c = .resetFullWarm (some (fn, r)) ∧ (s.dev.resetDesc fn.val r.val 1).isSome = true) →
      ∃ d : Dev, Machine.exec c s = .next (State.mk s.pending { hbm := s.mem.hbm, tile := [] } d) ∧
        sameOptics Dev.reset d ∧ sameFabric Dev.reset d ∧ d.ctxs = [] ∧ d.tiles = [] ∧ sameTime Dev.reset d ∧
        d.qmr = [] ∧ d.flt = s.dev.flt ∧ d.sys.therm = s.dev.sys.therm ∧ d.sys.boot.running = true ∧
        d.fd F.BOOT_STAT_WARM = 1 ∧ d.fd F.BOOT_STAT_STEP = 1 ∧ d.fd F.BOOT_STAT_READY = 0 ∧
        ∀ r fn i j, r ∈ warmKept → d.rawF r fn i j = s.dev.rawF r fn i j) ∧
    (s.dev.sys.boot.running = true → s.dev.inReset = false → s.dev.sys.therm.trip = false →
      (∀ found : StepFound,
        (s.dev.bootStep = 1 →
          ∃ d : Dev, Machine.exec (.bringupStepComplete found) s = .next { s with dev := d } ∧
            d.fd F.BOOT_STAT_STEP = 2 ∧
            (∀ h : Fn, d.fn h.val = if h ∈ found.dead then { s.dev.fn h.val with absent := true, linkUp := false }
              else s.dev.fn h.val) ∧
            sameRegsBut [.BOOT_STAT] s.dev d ∧ d = { s.dev with fns := d.fns, regs := d.regs }) ∧
        (s.dev.bootStep = 4 →
          ∃ d : Dev, Machine.exec (.bringupStepComplete found) s = .next { s with dev := d } ∧
            d.fd F.BOOT_STAT_STEP = 5 ∧ (∀ k, k < 2 → s.dev.domFailed (68 + k) = false → d.domOn (68 + k) = true) ∧
            d.fd F.CORE_D2D_STAT_STATE 0 = 2 ∧ d.fd F.CORE_D2D_STAT_STATE 1 = 2 ∧
            sameRegsBut [.BOOT_STAT, .PWR_DOM_STAT, .CORE_D2D_STAT] s.dev d ∧ d = { s.dev with regs := d.regs }) ∧
        (s.dev.bootStep = 0xB →
          ∃ d : Dev, Machine.exec (.bringupStepComplete found) s = .next { s with dev := d } ∧
            d.fd F.BOOT_STAT_READY = 1 ∧ d.fd F.BOOT_STAT_STEP = 0xF ∧ d.pwrState = 0 ∧ d.sys.boot.running = false)) ∧
      (∀ (detail unit : Nat) (lane : Option Nat),
        ((s.dev.bootStep = 1 ∧ detail = 1) ∨ (s.dev.bootStep = 3 ∧ detail = 3) ∨ (s.dev.bootStep = 7 ∧ detail = 0x30) →
          ∃ d : Dev, Machine.exec (.bringupStepFail detail unit lane) s = .next { s with dev := d } ∧
            d.sys.boot = { s.dev.sys.boot with running := false } ∧ d.fd F.BOOT_STAT_REASON = 0xE3 ∧
            d.fd F.BOOT_STAT_DETAIL = detail ∧ d.fd F.BOOT_STAT_STEP = s.dev.fd F.BOOT_STAT_STEP ∧
            sameRegsBut [.BOOT_STAT] s.dev d ∧
            d = { s.dev with regs := d.regs, sys := { s.dev.sys with boot := d.sys.boot } }) ∧
        (∀ e, e < 16 → s.dev.bootStep = 9 → detail = 0x50 + e →
          ∃ d : Dev, Machine.exec (.bringupStepFail detail unit lane) s = .next { s with dev := d } ∧
            d.domState (engineDom e) = 4 ∧ d.sys.boot = { s.dev.sys.boot with marked := true } ∧
            d.fd F.BOOT_STAT_REASON = 0xE3 ∧ d.fd F.BOOT_STAT_DETAIL = detail ∧ d.fd F.FLT_STATUS_DOM_FAIL = 1 ∧
            sameOptics s.dev d ∧ sameCompute s.dev d ∧ sameTime s.dev d)) ∧
      (s.dev.bootStep = 0xA → s.dev.sys.boot.linkWait = none →
        Machine.exec .linkWaitExpiry s = .next { s with dev := (s.dev.updBoot fun b => { b with
          linkWait := some ((List.range 256).filter fun p => training (s.dev.port p).state) }) }))

/-- RESET_COMPUTE, RESET_PARTITION, RESET_PORT, RESET_FINISH (R549-R554). -/
def Obligations.ResetsReachTheirItemsOnly : Prop :=
  ∀ s : State, s.dev.inReset = false →
    (∀ (fn : Fn) (r : RingNo) (x : Desc), s.dev.sys.pwr.cur = none → s.dev.qmr = [] →
      (∀ n, n < 16 → s.dev.maintBusy n = false) →
      (s.dev.resetDesc fn.val r.val 2 = some x →
        (s.dev.sys.resets = [] →
          ∃ (m : Mem) (d : Dev), Machine.exec (.resetCompute fn r) s = .next (State.mk s.pending m d) ∧
            (∀ c, d.ctx c = CtxSt.reset) ∧ d.bars = [] ∧ m.hbm = s.mem.hbm ∧
            (∀ i, i < 32 → d.tile (s.dev.phys i) = TileSt.reset ∧ ∀ b, m.tileByte (s.dev.phys i) b = 0) ∧
            (∀ t, (∀ i, i < 32 → s.dev.phys i ≠ t) → d.tile t = s.dev.tile t ∧ ∀ b, m.tileByte t b = s.mem.tileByte t b) ∧
            (∀ k p, k < 2 → p < 4 → s.dev.bit F.POOL_CTRL_EN k = true → (d.pool k p).state = 1) ∧
            d.sys.resets = [{ cls := 2, arg := 0, descs := [x] }] ∧ d.ports = s.dev.ports ∧ d.queues = s.dev.queues) ∧
        (s.dev.computeReset = true →
          Machine.exec (.resetCompute fn r) s = .next (State.mk s.pending s.mem (s.dev.joinReset 2 0 x)))) ∧
      (∀ k, s.dev.resetDesc fn.val r.val 3 = some x → k = x.part →
        (s.dev.sys.resets = [] →
          ∃ (m : Mem) (d : Dev), Machine.exec (.resetPartition fn r) s = .next (State.mk s.pending m d) ∧
            (∀ c, c ∈ s.dev.liveCtxs → (s.dev.ctx c).state ≠ .free →
              ((s.dev.ctx c).part = k → d.ctx c = CtxSt.reset) ∧
              ((s.dev.ctx c).part ≠ k → (s.dev.ctx c).tile < 32 → s.dev.fd F.TILE_PART_PART (s.dev.ctx c).tile ≠ k →
                d.ctx c = s.dev.ctx c)) ∧
            (∀ i, i < 32 → s.dev.fd F.TILE_PART_PART i = k →
              d.tile (s.dev.phys i) = TileSt.reset ∧ ∀ b, m.tileByte (s.dev.phys i) b = 0) ∧
            (∀ die, die < 2 → d.rawF .MEM_SVC_EXC 0 die k = 0) ∧
            d.sys.resets = [{ cls := 3, arg := k, descs := [x] }]) ∧
        (s.dev.computeReset = false → s.dev.partReset k = true →
          Machine.exec (.resetPartition fn r) s = .next (State.mk s.pending s.mem (s.dev.complete x 2 0xFC 0)))) ∧
      (∀ p : Port, s.dev.resetDesc fn.val r.val 4 = some x → x.arg 30 2 = p.val → s.dev.sys.resets = [] →
        mayTrain (s.dev.port p.val).state = true →
        ∃ d : Dev, Machine.exec (.resetPort fn r) s = .next { s with dev := d } ∧
          (d.port p.val).state = .training ∧ (d.port p.val).step = 1 ∧ (d.port p.val).wantResume = false ∧
          (∀ q, q < 16 → (d.queue p.val).cells q = []) ∧ (d.queue p.val).pdn = .flushing ∧
          (d.link p.val).replayList = [] ∧ d.sys.resets = [{ cls := 4, arg := p.val, descs := [x] }] ∧
          samePortsBut p.val s.dev d)) ∧
    (∀ (cls arg : Fin 256) (x : Desc),
      (s.dev.sys.resets.find? fun o => o.cls = cls.val && o.arg = arg.val) =
        some { cls := cls.val, arg := arg.val, descs := [x] } → s.dev.resetDone cls.val arg.val = true →
      Machine.exec (.resetFinish cls arg) s = .next { s with dev :=
        ((s.dev.updSys fun y => { y with
          resets := y.resets.filter fun o => !(o.cls = cls.val && o.arg = arg.val) }).complete x 0 0 0) }) ∧
    ∀ cls arg : Fin 256, s.dev.sys.resets = [] → Machine.exec (.resetFinish cls arg) s = .next s

/-- THERMAL_SAMPLE, BMC_TEMP, BMC_POWER, BMC_STATUS, BMC_THERM, BMC_HBSEQ, JTAG_BYPASS, JTAG_IDCODE, JTAG_SAMPLE_PRELOAD,
JTAG_EXTEST, JTAG_HIGHZ, JTAG_CLAMP, JTAG_TAP_RESET (R648, R650-R653). -/
def Obligations.TemperaturesManagementAndTest : Prop :=
  ∀ s : State,
    (∀ ts : List Int,
      ((∀ k, k < 8 → warns k (at_ (-128) ts k) = false) → (∀ k, k < 8 → trips k (at_ (-128) ts k) = false) →
        ∃ d : Dev, Machine.exec (.thermalSample ts) s = .next { s with dev := d } ∧ d.sys.therm.warn = 0 ∧
          d.sys.therm.bmcAlert = s.dev.sys.therm.bmcAlert ∧ d.sys.therm.trip = s.dev.sys.therm.trip ∧
          (d.sys.therm.alert = true → s.dev.sys.therm.alert = true) ∧
          d.sys.therm.temps = (List.range 8).map (fun k => at_ (-128) ts k) ∧
          d = { s.dev with sys := { s.dev.sys with therm := d.sys.therm } }) ∧
      (∀ t : Int, ts = [t] → 100 ≤ t → t < 115 → s.dev.sys.therm.warn = 0 →
        ∃ d : Dev, Machine.exec (.thermalSample ts) s = .next { s with dev := d } ∧ d.sys.therm.warn = 1 ∧
          d.sys.therm.cause = 0 ∧ d.sys.therm.alert = true ∧ d.sys.therm.bmcAlert = true ∧
          d.sys.therm.trip = s.dev.sys.therm.trip ∧ d = { s.dev with sys := { s.dev.sys with therm := d.sys.therm } }) ∧
      (∀ (t : Int) (rest : List Int), ts = t :: rest → 115 ≤ t → s.dev.inReset = false → s.dev.sys.therm.trip = false →
        ∃ d : Dev, Machine.exec (.thermalSample ts) s = .next { s with dev := d } ∧ d.sys.therm.trip = true ∧
          d.sys.therm.cause = 0 ∧ (∀ p, p < 256 → (d.port p).modOn = false ∧ (d.port p).state = (s.dev.port p).state) ∧
          d.out = s.dev.out ++ (List.range 64).map (fun m => .cmis (m / 4) (m % 4) false) ∧
          d = { s.dev with ports := d.ports, out := d.out, sys := { s.dev.sys with therm := d.sys.therm } })) ∧
    (∀ w : BitVec 16,
      (s.dev.bmcUp = true →
        Machine.exec .bmcTemp s = .next { s with dev := s.dev.emit (.bmc s.dev.bmcTemps) } ∧
        Machine.exec (.bmcPower w) s = .next { s with dev := s.dev.emit (.bmc (leBytes 2 w.toNat)) } ∧
        Machine.exec .bmcStatus s = .next { s with dev := s.dev.emit (.bmc (leBytes 4 (s.dev.readReg .BOOT_STAT 0 0 0))) } ∧
        Machine.exec .bmcHbseq s = .next { s with dev := s.dev.emit (.bmc (leBytes 4 (s.dev.fd F.FLT_FM_STAT_HBSEQ))) } ∧
        ∃ d : Dev, Machine.exec .bmcTherm s = .next { s with dev := d } ∧ d.sys.therm =
            { s.dev.sys.therm with bmcAlert := false } ∧
          d.out = s.dev.out ++ [.bmc (leBytes 1 (b2n (s.dev.sys.therm.warn ≠ 0) ||| b2n s.dev.sys.therm.trip <<< 1 |||
            s.dev.sys.therm.cause <<< 2))] ∧
          d = { s.dev with out := d.out, sys := { s.dev.sys with therm := d.sys.therm } }) ∧
      (s.dev.bmcUp = false → ∀ c, c ∈ [Instr.bmcTemp, .bmcPower w, .bmcStatus, .bmcHbseq, .bmcTherm] →
        Machine.exec c s = .next s)) ∧
    (∀ seen load : List Bool,
      (s.dev.sys.jtag.held = false →
        (∀ c : Instr, c = .jtagBypass ∨
            (s.dev.sys.boot.coldLow = false ∧ c ∈ [Instr.jtagExtest seen, .jtagHighz, .jtagClamp]) →
          Machine.exec c s = .next { s with dev :=
            ((s.dev.updJtag fun j => { j with ir := .bypass }).emit (.jtag [false])) }) ∧
        Machine.exec .jtagIdcode s = .next { s with dev := ((s.dev.updJtag fun j => { j with ir := .idcode }).emit
          (.jtag ((List.range 32).map fun i => bitAt 0x1D70055B i))) } ∧
        (∃ d : Dev, Machine.exec (.jtagSamplePreload seen load) s = .next { s with dev := d } ∧
          d.sys.jtag = { s.dev.sys.jtag with ir := .sample, cells := load } ∧ d.out = s.dev.out ++ [.jtag seen] ∧
          d = { s.dev with out := d.out, sys := { s.dev.sys with jtag := d.sys.jtag } }) ∧
        (s.dev.sys.boot.coldLow = true →
          Machine.exec (.jtagExtest seen) s = .next { s with dev :=
            ((s.dev.updJtag fun j => { j with ir := .extest }).emit (.jtag seen)) } ∧
          Machine.exec .jtagHighz s = .next { s with dev :=
            ((s.dev.updJtag fun j => { j with ir := .highz }).emit (.jtag [false])) } ∧
          Machine.exec .jtagClamp s = .next { s with dev :=
            ((s.dev.updJtag fun j => { j with ir := .clamp }).emit (.jtag [false])) })) ∧
      (s.dev.sys.jtag.held = true →
        ∀ c, c ∈ [Instr.jtagBypass, .jtagIdcode, .jtagSamplePreload seen load, .jtagExtest seen, .jtagHighz, .jtagClamp] →
          Machine.exec c s = .next s) ∧
      Machine.exec (.jtagTapReset false) s = .next { s with dev :=
        (s.dev.updJtag fun j => { j with held := true, ir := .idcode }) } ∧
      Machine.exec (.jtagTapReset true) s = .next { s with dev := (s.dev.updJtag fun j => { j with held := false }) })

/-- SEQ_RUN_START, SEQ_RUN_RESUME, END_COMMANDS_COMPLETE, WAIT_WATCHDOG, BUILTIN_PUSH, PROG_LOAD, PROG_LOAD_WRITE,
PROG_LOAD_TIMEOUT (R283, R289, R294, R295, R297, R304, R305). -/
def Obligations.RunsStartCloseAndLoad : Prop :=
  ∀ (s : State) (i : TileId) (pt : Nat), pt = s.dev.phys i.val →
    (s.dev.tileUp i.val = true →
      (∀ c, (s.dev.tile pt).run = none → (s.dev.tile pt).arr = [] → (s.dev.tile pt).loads = [] →
        s.dev.scopeHeld 3 i.val = false →
        s.dev.selected i.val = some c → (s.dev.ctx c).resident = true → s.dev.fd F.SEQ_CFG_HAZ i.val < 3 →
        ((s.dev.ctx c).saved = none →
          ∃ d : Dev, Machine.exec (.seqRunStart i) s = .next { s with dev := d } ∧
            d.tile pt = { (s.dev.tile pt).after 4 with
              run := some { s.dev.freshRun i.val c with haz := s.dev.fd F.SEQ_CFG_HAZ i.val }, yielder := none
              selWait := none } ∧
            (∀ t, t ≠ pt → d.tile t = s.dev.tile t) ∧ (∀ c', d.ctx c' = s.dev.ctx c') ∧ sameOptics s.dev d ∧
            (s.dev.bit F.LOUPE_CTRL_EN = false → d = { s.dev with tiles := d.tiles, ctxs := d.ctxs })) ∧
        (∀ bs, (s.dev.ctx c).saved = some bs →
          ∃ d : Dev, Machine.exec (.seqRunResume i) s = .next { s with dev := d } ∧
            d.tile pt = { (s.dev.tile pt).after 16 with
              run := some { RunSt.ofImage c bs with haz := s.dev.fd F.SEQ_CFG_HAZ i.val }, yielder := none
              selWait := none } ∧
            d.ctx c = { s.dev.ctx c with saved := none } ∧ (∀ t, t ≠ pt → d.tile t = s.dev.tile t) ∧
            (∀ c', c' ≠ c → d.ctx c' = s.dev.ctx c') ∧ d = { s.dev with tiles := d.tiles, ctxs := d.ctxs })) ∧
      (∀ r, (s.dev.tile pt).run = some r → r.ending = true → (s.dev.tile pt).pushedBusy r.ctx [0, 1, 2, 3] = false →
        s.dev.group r.ctx = none →
        ∃ d : Dev, Machine.exec (.endCommandsComplete i) s = .next { s with dev := d } ∧
          d.tile pt = { s.dev.tile pt with run := none } ∧ (d.ctx r.ctx).state = .armed ∧
          (d.ctx r.ctx).e = ((s.dev.ctx r.ctx).e + 1) % 65536 ∧ (∀ t, t ≠ pt → d.tile t = s.dev.tile t) ∧
          (∀ c, c ≠ r.ctx → d.ctx c = s.dev.ctx c) ∧ d = { s.dev with tiles := d.tiles, ctxs := d.ctxs }) ∧
      (∀ r, (s.dev.tile pt).run = some r → r.stall.isSome = true → s.dev.fd F.SEQ_CFG_WDOG i.val ≠ 0 → r.pc ≤ 0xFFF →
        s.dev.waitCond i.val r ((s.dev.tile pt).word r.pc) = .inr false → (s.dev.ctx r.ctx).state = .open_ →
        (s.dev.ctx r.ctx).tile = i.val → (s.dev.ctx r.ctx).spilling = false → (s.dev.ctx r.ctx).restoring = false →
        ∃ d : Dev, Machine.exec (.waitWatchdog i) s = .next { s with dev := d } ∧ haltedTo i.val r 0x0A s.dev d) ∧
      (∀ (e : Fin 4) (cmd : BitVec 256),
        ((s.dev.tile pt).built = [] → ((s.dev.tile pt).queue e.val).length < 32 →
          ∃ d : Dev, Machine.exec (.builtinPush i e cmd) s = .next { s with dev := d } ∧
            (d.tile pt).queue e.val = (s.dev.tile pt).queue e.val ++
              [{ raw := cmd, serial := (s.dev.tile pt).serial, unseen := 2, builtin := true, pc := 0, dead := false }] ∧
            (d.tile pt).serial = (s.dev.tile pt).serial + 1 ∧ (d.tile pt).built = [] ∧
            (∀ t, t ≠ pt → d.tile t = s.dev.tile t) ∧
            (s.dev.bit F.LOUPE_CTRL_EN = false → d = { s.dev with tiles := d.tiles })) ∧
        (32 ≤ ((s.dev.tile pt).queue e.val).length → (∀ b, b ∈ (s.dev.tile pt).built → b.1 = e.val) →
          ∃ d : Dev, Machine.exec (.builtinPush i e cmd) s = .next { s with dev := d } ∧
            (d.tile pt).q = (s.dev.tile pt).q ∧
            (d.tile pt).built = (s.dev.tile pt).built ++
              [(e.val, { raw := cmd, serial := (s.dev.tile pt).serial, unseen := 2, builtin := true, pc := 0, dead := false })] ∧
            (d.tile pt).serial = (s.dev.tile pt).serial + 1 ∧
            (∀ t, t ≠ pt → d.tile t = s.dev.tile t) ∧
            (s.dev.bit F.LOUPE_CTRL_EN = false → d = { s.dev with tiles := d.tiles }))) ∧
      (∀ (l : LoadSt) (rest : List LoadSt) (x : Desc), (s.dev.tile pt).loads = l :: rest →
        s.dev.loadDesc l = some x → x.fn = l.fn → x.ring = l.ring →
        (∀ secs, (s.dev.tile pt).run = none → imageSections l.image = some secs →
          ∃ d : Dev, Machine.exec (.progLoadWrite i) s = .next { s with dev := d } ∧
            d.tile pt = { secs.foldl TileSt.loadSection (s.dev.tile pt) with loads := rest } ∧
            (d.ring x.fn x.ring).done = (s.dev.ring x.fn x.ring).done ++
              [{ desc := x, status := 0, reason := 0, result := 0, time := s.dev.fabricTime }] ∧
            d.rawF .SEQ_LOAD_CNT 0 i.val 0 = up1 (s.dev.rawF .SEQ_LOAD_CNT 0 i.val 0) ∧
            sameRegsBut [.SEQ_LOAD_CNT] s.dev d ∧ (∀ t, t ≠ pt → d.tile t = s.dev.tile t) ∧
            d = { s.dev with tiles := d.tiles, regs := d.regs, fns := d.fns, hot := d.hot }) ∧
        Machine.exec (.progLoadTimeout i) s = .next { s with dev :=
          ((s.dev.updTile pt fun t => { t with loads := rest }).complete x 2 0x10 0) })) ∧
    (s.dev.inReset = false → ∀ (fn : Fn) (r : RingNo) (x : Desc), s.dev.inHand fn.val r.val 5 = some x →
      s.dev.descTaken x = false → s.dev.cutReason x = none →
      (imageSections x.data = none →
        Machine.exec (.progLoad fn r) s = .next { s with dev := s.dev.complete x 2 0x11 0 }) ∧
      (x.arg 30 1 % 32 = i.val → (imageSections x.data).isSome = true →
        Machine.exec (.progLoad fn r) s = .next { s with dev := (s.dev.updTile pt fun t => { t with
          loads := t.loads ++ [{ fn := x.fn, ring := x.ring, order := x.order, image := x.data }] }) }))

/-- FLOW_NEXT, FLOW_JUMP, FLOW_BRT, FLOW_BRF, FLOW_WAIT, WAIT_CONDITION_MET, FLOW_YIELD, FLOW_END (R272, R279, R282,
R283, R295, R297). -/
def Obligations.FlowMovesTheRun : Prop :=
  ∀ (s : State) (i : TileId) (pt : Nat) (r : RunSt) (w : BitVec 128), pt = s.dev.phys i.val →
    (∀ k, 1 ≤ k → k ≤ 6 → slotUsed w k = false) → r.rel = [] → (∀ a, a ∈ (s.dev.tile pt).arr → 1 < a.2.2) →
    (s.dev.wordIssues i.val r w →
      (wFlow w = 0 →
        (r.branch = none →
          ∃ d : Dev, Machine.exec (.flowNext i .ok) s = .next { s with dev := d } ∧
            passedTo i.val 1 { r with pc := r.pc + 1, cc := r.cc + 1, stall := none } s.dev d) ∧
        (∀ a, r.branch = some (a, 1) →
          ∃ d : Dev, Machine.exec (.flowNext i .ok) s = .next { s with dev := d } ∧
            passedTo i.val 1 { r with pc := a, cc := r.cc + 1, branch := none, stall := none } s.dev d) ∧
        (∀ a, r.branch = some (a, 2) →
          ∃ d : Dev, Machine.exec (.flowNext i .ok) s = .next { s with dev := d } ∧
            passedTo i.val 1 { r with pc := r.pc + 1, cc := r.cc + 1, branch := some (a, 1), stall := none } s.dev d)) ∧
      (r.branch = none →
        (wFlow w = 1 →
          ∃ d : Dev, Machine.exec (.flowJump i .ok) s = .next { s with dev := d } ∧
            passedTo i.val 1 { r with pc := r.pc + 1, cc := r.cc + 1, branch := some (wTarget w, 2), stall := none } s.dev d) ∧
        (wFlow w = 2 →
          ∃ d : Dev, Machine.exec (.flowBrt i .ok) s = .next { s with dev := d } ∧
            passedTo i.val 1 { r with
              pc := r.pc + 1, cc := r.cc + 1, stall := none
              branch := some (if r.readC (wCsel w) = true then wTarget w else r.pc + 3, 2) } s.dev d) ∧
        (wFlow w = 3 →
          ∃ d : Dev, Machine.exec (.flowBrf i .ok) s = .next { s with dev := d } ∧
            passedTo i.val 1 { r with
              pc := r.pc + 1, cc := r.cc + 1, stall := none
              branch := some (if r.readC (wCsel w) = true then r.pc + 3 else wTarget w, 2) } s.dev d) ∧
        (wFlow w = 4 →
          (r.stall = none →
            ∃ d : Dev, Machine.exec (.flowWait i .ok) s = .next { s with dev := d } ∧
              passedTo i.val 1 { r with pc := r.pc + 1, cc := r.cc + 1 } s.dev d) ∧
          (r.stall.isSome = true →
            ∃ d : Dev, Machine.exec (.waitConditionMet i) s = .next { s with dev := d } ∧
              passedTo i.val 1 { r with pc := r.pc + 1, cc := r.cc + 1, stall := none } s.dev d)) ∧
        (wFlow w = 5 → (s.dev.tile pt).arr = [] →
          (s.dev.userOpen i.val (some r.ctx) = [] → (s.dev.tile pt).loads = [] →
            ∃ d : Dev, Machine.exec (.flowYield i .ok) s = .next { s with dev := d } ∧
              (d.tile pt).run = some ({ r with pc := r.pc + 1, cc := r.cc + 3, stall := none } : RunSt).settle ∧
              d.rawF .SEQ_YIELD_CNT 0 i.val 0 = up1 (s.dev.rawF .SEQ_YIELD_CNT 0 i.val 0) ∧
              (∀ c, d.ctx c = s.dev.ctx c) ∧ (∀ t, t ≠ pt → d.tile t = s.dev.tile t) ∧ sameOptics s.dev d) ∧
          (s.dev.userOpen i.val (some r.ctx) ≠ [] ∨ (s.dev.tile pt).loads ≠ [] →
            ∃ d : Dev, Machine.exec (.flowYield i .ok) s = .next { s with dev := d } ∧ (d.tile pt).run = none ∧
              (d.tile pt).yielder = some r.ctx ∧
              d.ctx r.ctx = { s.dev.ctx r.ctx with
                saved := some ({ r with pc := r.pc + 1, cc := r.cc + 3, stall := none } : RunSt).settle.image } ∧
              d.rawF .SEQ_YIELD_CNT 0 i.val 0 = up1 (s.dev.rawF .SEQ_YIELD_CNT 0 i.val 0) ∧
              (∀ c, c ≠ r.ctx → d.ctx c = s.dev.ctx c) ∧ (∀ t, t ≠ pt → d.tile t = s.dev.tile t) ∧
              sameOptics s.dev d)) ∧
        (wFlow w = 6 → (s.dev.tile pt).arr = [] →
          ∃ d : Dev, Machine.exec (.flowEnd i .ok) s = .next { s with dev := d } ∧
            (d.tile pt).run = some { r with cc := r.cc + 3, ending := true, endPc := r.pc, stall := none } ∧
            (∀ c, d.ctx c = s.dev.ctx c) ∧ (∀ t, t ≠ pt → d.tile t = s.dev.tile t) ∧ sameOptics s.dev d))) ∧
    (s.dev.wordAt i.val r w → wordBad w = none → wFlow w = 4 → r.branch = none → r.stall = none →
      s.dev.waitCond i.val r w = .inr false →
      ∃ d : Dev, Machine.exec (.flowWait i .ok) s = .next { s with dev := d } ∧
        d.tile pt = { (s.dev.tile pt).after 1 with run := some { r with cc := r.cc + 1, stall := some 1 } } ∧
        d.rawF .SEQ_STALL_CNT 0 i.val 0 = up1 (s.dev.rawF .SEQ_STALL_CNT 0 i.val 0) ∧
        sameRegsBut [.SEQ_STALL_CNT] s.dev d ∧ (∀ t, t ≠ pt → d.tile t = s.dev.tile t) ∧
        d = { s.dev with tiles := d.tiles, regs := d.regs, hot := d.hot })

/-- FLOW_HALT, FLOW_RESERVED, KOP_RESERVED, AGOP_RESERVED, PUSH_RESERVED (R272, R273, R275, R277, R301, R302). Their
whole effect is the halt. -/
def Obligations.ReservedFormsHalt : Prop :=
  ∀ (s : State) (i : TileId) (r : RunSt) (w : BitVec 128), s.dev.wordAt i.val r w →
    (s.dev.ctx r.ctx).state = .open_ → (s.dev.ctx r.ctx).tile = i.val → (s.dev.ctx r.ctx).spilling = false →
    (s.dev.ctx r.ctx).restoring = false →
    (wordBad w = none → wFlow w = 7 → r.branch = none →
      ∃ d : Dev, Machine.exec (.flowHalt i .ok) s = .next { s with dev := d } ∧ haltedTo i.val r 0x1F s.dev d) ∧
    (8 ≤ wFlow w →
      ∃ d : Dev, Machine.exec (.flowReserved i .ok) s = .next { s with dev := d } ∧ haltedTo i.val r 0x01 s.dev d) ∧
    (wFlow w < 4 →
      (wKop w = 7 →
        ∃ d : Dev, Machine.exec (.kopReserved i .ok) s = .next { s with dev := d } ∧ haltedTo i.val r 0x02 s.dev d) ∧
      (wKop w ≠ 7 → wCop w ≠ 7 →
        (wAgsel w ≠ 0 → wAgop w = 3 →
          ∃ d : Dev, Machine.exec (.agopReserved i .ok) s = .next { s with dev := d } ∧ haltedTo i.val r 0x02 s.dev d) ∧
        (wAgsel w = 0 → 5 ≤ wPush w →
          ∃ d : Dev, Machine.exec (.pushReserved i .ok) s = .next { s with dev := d } ∧ haltedTo i.val r 0x02 s.dev d)))

/-- KOP_LDI, KOP_ADDI, KOP_ADD, KOP_SUB, KOP_MOV, KOP_LDH, COP_EQ, COP_NE, COP_LTU, COP_GEU, COP_LTS, COP_GES, COP_DONE,
AGOP_STEP, AGOP_RESTART, AGOP_LOAD (R273, R274, R280, R286, R287). -/
def Obligations.SlotsWriteTheirResults : Prop :=
  ∀ (s : State) (i : TileId) (r : RunSt) (w : BitVec 128) (c : Instr), s.dev.wordIssues i.val r w →
    (∀ v : BitVec 32,
      (c = .kopLdi i .ok ∧ wKop w = 1 ∧ v = (wImm w).signExtend 32) ∨
        (c = .kopAddi i .ok ∧ wKop w = 2 ∧ v = r.readK (wKdst w) + (wImm w).signExtend 32) ∨
        (c = .kopAdd i .ok ∧ wKop w = 3 ∧ v = r.readK (wKdst w) + r.readK (wKsrc w)) ∨
        (c = .kopSub i .ok ∧ wKop w = 4 ∧ v = r.readK (wKdst w) - r.readK (wKsrc w)) ∨
        (c = .kopMov i .ok ∧ wKop w = 5 ∧ v = r.readK (wKsrc w)) ∨
        (c = .kopLdh i .ok ∧ wKop w = 6 ∧ v = (wImm w) ++ (r.readK (wKdst w)).extractLsb' 0 16) →
      ∃ d : Dev, Machine.exec c s = .next { s with dev := d } ∧
        ranTo i.val { r with
          acted := some [1], stall := none
          k := updAt r.k (wKdst w) fun l => l.write 2 r.cc v } s.dev d ∧
        (∀ l : Lag (BitVec 32), (l.write 2 r.cc v).newest = v ∧ (l.write 2 r.cc v).read 2 (r.cc + 2) = v)) ∧
    (∀ (x y : BitVec 32) (v : Bool), x = r.readK (wCa w) →
      y = (if wCbi w = 1 then (wImm w).signExtend 32 else r.readK (wCb w)) →
      (c = .copEq i .ok ∧ wCop w = 1 ∧ v = decide (x = y)) ∨ (c = .copNe i .ok ∧ wCop w = 2 ∧ v = decide (x ≠ y)) ∨
        (c = .copLtu i .ok ∧ wCop w = 3 ∧ v = decide (x.toNat < y.toNat)) ∨
        (c = .copGeu i .ok ∧ wCop w = 4 ∧ v = decide (y.toNat ≤ x.toNat)) ∨
        (c = .copLts i .ok ∧ wCop w = 5 ∧ v = decide (x.toInt < y.toInt)) ∨
        (c = .copGes i .ok ∧ wCop w = 6 ∧ v = decide (y.toInt ≤ x.toInt)) ∨
        (c = .copDone i .ok ∧ wCop w = 7 ∧ v = (r.readG (wCa w)).wrap) →
      ∃ d : Dev, Machine.exec c s = .next { s with dev := d } ∧
        ranTo i.val { r with
          acted := some [2], stall := none
          c := updAt r.c (wCdst w) fun l => l.write 1 r.cc v } s.dev d) ∧
    (∀ g old : Gen, wAgsel w ≠ 0 → old = (r.gen (wAgsel w - 1)).newest →
      (c = .agopStep i .ok ∧ wAgop w = 0 ∧ g = old.step) ∨
        (c = .agopRestart i .ok ∧ wAgop w = 1 ∧ g = { old with i0 := 0, i1 := 0, i2 := 0, wrap := false }) ∨
        (c = .agopLoad i .ok ∧ wAgop w = 2 ∧
          g = { loaded := true, set := tblGet 0 (s.dev.tile (s.dev.phys i.val)).pset (wPset w), i0 := 0, i1 := 0, i2 := 0
                wrap := false }) →
      ∃ d : Dev, Machine.exec c s = .next { s with dev := d } ∧
        ranTo i.val { r with
          acted := some [3], stall := none
          g := updAt r.g (wAgsel w - 1) fun l => l.write 3 r.cc g } s.dev d)

/-- PUSH_SUM, PUSH_MOVE, PUSH_SORT, PUSH_SIFT, BARR, OFSNEXT (R276, R288, R289, R292, R293). -/
def Obligations.PushesBarrierAndRelease : Prop :=
  ∀ (s : State) (i : TileId) (pt : Nat) (r : RunSt) (w : BitVec 128), pt = s.dev.phys i.val →
    s.dev.wordIssues i.val r w →
    (∀ (c : Instr) (e tag : Nat) (tp : BitVec 256),
      (c = .pushSum i .ok ∧ e = 0) ∨ (c = .pushMove i .ok ∧ e = 1) ∨ (c = .pushSort i .ok ∧ e = 2) ∨
        (c = .pushSift i .ok ∧ e = 3) → wPush w = e + 1 → tag = pushTag (s.dev.tile pt) r w →
      tp = (s.dev.tile pt).tpl (wTpl w) →
      ∃ (d : Dev) (m : EngCmd), Machine.exec c s = .next { s with dev := d } ∧
        (d.tile pt).queue e = (s.dev.tile pt).queue e ++ [m] ∧
        (∀ e', e' ≠ e → (d.tile pt).queue e' = (s.dev.tile pt).queue e') ∧
        (d.tile pt).run = some { r with acted := some [4], stall := none, lastTag := tag } ∧
        m.serial = (s.dev.tile pt).serial ∧ m.unseen = 2 ∧ m.builtin = false ∧ m.pc = r.pc ∧ m.dead = false ∧
        m.raw.extractLsb' 248 8 = tp.extractLsb' 248 8 ∧ m.raw.extractLsb' 236 12 = BitVec.ofNat 12 r.ctx ∧
        m.raw.extractLsb' 220 16 = BitVec.ofNat 16 tag ∧ m.raw.extractLsb' 96 124 = tp.extractLsb' 96 124 ∧
        m.raw.extractLsb' 64 32 = s.dev.muxVal r w (wf w 51 49) (tp.extractLsb' 64 32) ∧
        m.raw.extractLsb' 32 32 = s.dev.muxVal r w (wf w 48 46) (tp.extractLsb' 32 32) ∧
        m.raw.extractLsb' 0 32 = s.dev.muxVal r w (wf w 45 43) (tp.extractLsb' 0 32) ∧
        (d.tile pt).serial = (s.dev.tile pt).serial + 1 ∧ (∀ t, t ≠ pt → d.tile t = s.dev.tile t) ∧
        d.ctxs = s.dev.ctxs ∧ sameOptics s.dev d ∧
        (s.dev.bit F.LOUPE_CTRL_EN = false →
          sameRegsBut [.SEQ_HAZ_CNT] s.dev d ∧
            d = { s.dev with tiles := d.tiles, regs := d.regs, hot := d.hot })) ∧
    (∀ b : Nat, wBar w = b →
      (wBarr w = true →
        ∃ d : Dev, Machine.exec (.barr i .ok) s = .next { s with dev := d } ∧
          tileTo i.val { s.dev.tile pt with
            arr := (s.dev.tile pt).arr ++ [(b, r.ctx, 2)]
            run := some { r with acted := some [5], stall := none, bar := some (b, s.dev.barEpoch b) } } s.dev d) ∧
      (∀ (b' ep : Nat) (x : BarSt), (∀ k, 1 ≤ k → k ≤ 6 → slotUsed w k = false) → wFlow w = 0 → r.branch = none →
        r.rel = [] → (s.dev.tile pt).arr = [(b', r.ctx, 1)] → r.bar = some (b', ep) → x = s.dev.bar b' →
        x.failed = false → s.dev.bit F.CORE_BAR_VALID b' = true → s.dev.bit F.CORE_BAR_LOCAL b' = true →
        (x.state = .idle → (∃ p, p ∈ s.dev.barChildren b') →
          ∃ d : Dev, Machine.exec (.flowNext i .ok) s = .next { s with dev := d } ∧ (d.tile pt).arr = [] ∧
            (d.tile pt).run = some { r with pc := r.pc + 1, cc := r.cc + 1, stall := none, bar := some (b', x.epoch) } ∧
            d.bar b' = { x with state := .gather, arrived := [256] } ∧ (∀ k, k ≠ b' → d.bar k = s.dev.bar k)) ∧
        (x.state = .releasing → 256 ∉ x.early →
          ∃ d : Dev, Machine.exec (.flowNext i .ok) s = .next { s with dev := d } ∧ (d.tile pt).arr = [] ∧
            (d.tile pt).run = some { r with
              pc := r.pc + 1, cc := r.cc + 1, stall := none, bar := some (b', (x.epoch + 1) % 65536) } ∧
            d.bar b' = { x with early := x.early ++ [256] } ∧ (∀ k, k ≠ b' → d.bar k = s.dev.bar k)))) ∧
    (wOfs w = true →
      ∃ d : Dev, Machine.exec (.ofsnext i .ok) s = .next { s with dev := d } ∧
        ranTo i.val { r with
          acted := some [6], stall := none
          rel := r.rel ++ [(r.cc + 2, (s.dev.ctx r.ctx).base + 1)] } s.dev d)

/-- IMG_HAVE_RX, IMG_REQ_RX, IMG_CHUNK_SEND, IMG_CHUNK_RX, IMG_REQ_TIMEOUT (R545-R547, R565). -/
def Obligations.BroadcastsMoveChunks : Prop :=
  ∀ s : State, s.dev.inReset = false →
    (∀ (p id n c : Nat) (f : Flit) (data : List (BitVec 8)), s.dev.core.fmRx = [(p, f)] →
      s.dev.d2dFailed 2 = false → id = plLe f.payload 4 4 →
      n = plLe f.payload 12 4 → c = plLe f.payload 8 4 → data = ((payloadBytes f.payload).drop 16).take 224 →
      (plByte f.payload 0 = 0x22 →
        (s.dev.hasImage id = false → s.dev.fd F.SEC_STAGE_STAT_STATE = 0 → s.dev.bcastTaking = false → p < 256 → n ≠ 0 →
          s.dev.maintRefusal 4 0 = none → s.dev.takesMgmt p →
          ∃ d : Dev, Machine.exec .imgHaveRx s = .next { s with dev := d } ∧ d.fd F.BOOT_BCAST_STAT_STATE = 1 ∧
            d.fd F.BOOT_BCAST_STAT_IMAGE_ID = id ∧ d.sys.bcast = { BcastSt.reset with port := p, nchunk := n } ∧
            (∃ k, k < 16 ∧ s.dev.maintBusy k = false ∧ d.maintBusy k = true ∧ d.maintAct k = 4) ∧
            framedTo p (frame 240 [(0, leBytes 1 0x21), (4, leBytes 4 id), (8, leBytes 4 0), (12, leBytes 4 n), (16, [])])
              s.dev d ∧ d.core.fmRx = [] ∧ sameOptics s.dev d ∧ sameCompute s.dev d ∧ sameHost s.dev d) ∧
        (s.dev.hasImage id = true →
          Machine.exec .imgHaveRx s = .next { s with dev := (s.dev.updCore fun k => { k with fmRx := [] }) })) ∧
      (plByte f.payload 0 = 0x21 → s.dev.fd F.BOOT_BCAST_STAT_STATE = 2 → id = s.dev.fd F.BOOT_BCAST_STAT_IMAGE_ID →
        p < 256 →
        ∃ d : Dev, Machine.exec .imgReqRx s = .next { s with dev := d } ∧
          tblGet none d.sys.bcast.sending p = some c ∧ d = { s.dev with
            core := { s.dev.core with fmRx := [] }
            sys := { s.dev.sys with bcast := { s.dev.sys.bcast with sending := d.sys.bcast.sending } } }) ∧
      (plByte f.payload 0 = 0x20 → s.dev.fd F.BOOT_BCAST_STAT_STATE = 1 →
        (id = s.dev.fd F.BOOT_BCAST_STAT_IMAGE_ID → c < s.dev.sys.bcast.nchunk →
          tblGet [] s.dev.sys.bcast.chunks c = [] → s.dev.sys.bcast.installing = false →
          (tblPut [] c data s.dev.sys.bcast.chunks).length < s.dev.sys.bcast.nchunk →
          ∃ d : Dev, Machine.exec .imgChunkRx s = .next { s with dev := d } ∧
            tblGet [] d.sys.bcast.chunks c = data ∧
            (∀ k, k ≠ c → tblGet [] d.sys.bcast.chunks k = tblGet [] s.dev.sys.bcast.chunks k) ∧
            sameRegsBut [.BOOT_BCAST_STAT] s.dev d ∧ d = { s.dev with
              core := { s.dev.core with fmRx := [] }, regs := d.regs
              sys := { s.dev.sys with bcast := { s.dev.sys.bcast with chunks := d.sys.bcast.chunks } } }) ∧
        (id ≠ s.dev.fd F.BOOT_BCAST_STAT_IMAGE_ID →
          ∃ d : Dev, Machine.exec .imgChunkRx s = .next { s with dev := d } ∧
            d.rawF .BOOT_BCAST_DUP_CNT 0 0 0 = up1 (s.dev.rawF .BOOT_BCAST_DUP_CNT 0 0 0) ∧
            sameRegsBut [.BOOT_BCAST_DUP_CNT] s.dev d ∧
            d = { s.dev with core := { s.dev.core with fmRx := [] }, regs := d.regs, hot := d.hot }))) ∧
    (∀ (p : Port) (c n : Nat), tblGet none s.dev.sys.bcast.sending p.val = some c →
      n = chunkCount s.dev.sys.bcast.image → c < n → tblGet 0 s.dev.sys.bcast.next p.val ≤ s.dev.cycle →
      s.dev.takesMgmt p.val →
      ∃ d : Dev, Machine.exec (.imgChunkSend p) s = .next { s with dev := d } ∧
        tblGet none d.sys.bcast.sending p.val = (if c + 1 < n then some (c + 1) else none) ∧
        d.sys.bcast.image = s.dev.sys.bcast.image ∧ tblGet 0 d.sys.bcast.next p.val = s.dev.cycle + 1900 ∧
        framedTo p.val (frame 240 [(0, leBytes 1 0x20), (4, leBytes 4 (imageId s.dev.sys.bcast.image)), (8, leBytes 4 c),
          (12, leBytes 4 n), (16, chunkOf s.dev.sys.bcast.image c)]) s.dev d ∧
        sameOptics s.dev d ∧ sameCompute s.dev d ∧ sameHost s.dev d) ∧
    ∀ c : Nat, s.dev.fd F.BOOT_BCAST_STAT_STATE = 1 → s.dev.sys.bcast.chunks ≠ [] → c < s.dev.sys.bcast.nchunk →
      tblGet [] s.dev.sys.bcast.chunks c = [] → (∀ k, k < c → tblGet [] s.dev.sys.bcast.chunks k ≠ []) →
      s.dev.takesMgmt s.dev.sys.bcast.port →
      ∃ d : Dev, Machine.exec .imgReqTimeout s = .next { s with dev := d } ∧
        framedTo s.dev.sys.bcast.port (frame 240 [(0, leBytes 1 0x21),
          (4, leBytes 4 (s.dev.fd F.BOOT_BCAST_STAT_IMAGE_ID)), (8, leBytes 4 c),
          (12, leBytes 4 s.dev.sys.bcast.nchunk), (16, [])]) s.dev d ∧ d.sys = s.dev.sys ∧
        sameOptics s.dev d ∧ sameCompute s.dev d ∧ sameHost s.dev d

/-- IMAGE_STAGE_IMAGE, IMAGE_STAGE_LICENCE, IMAGE_INSTALL_COMPLETE, RECOVERY_RESTART (R562-R565, R571, R572, R579). The
IMAGE_ID that a chunk before the last returns is open (log entry 5). -/
def Obligations.ImagesAndLicencesAreStaged : Prop :=
  ∀ s : State, s.dev.inReset = false →
    (∀ (fn : Fn) (r : RingNo) (x : Desc), s.dev.inHand fn.val r.val 0x11 = some x →
      (x.arg 33 1 = 0 → s.dev.sys.stage.desc = none →
        (s.dev.fd F.SEC_STAGE_STAT_STATE = 0 → bitAt (x.arg 32 1) 0 = true → bitAt (x.arg 32 1) 1 = false →
          x.arg 28 4 = 0 → s.dev.bcastTaking = false →
          ∃ (d : Dev) (v : Nat), Machine.exec (.imageStageImage fn r) s = .next { s with dev := d } ∧
            d.fd F.SEC_STAGE_STAT_STATE = 1 ∧ d.sys.stage.bytes = x.data ∧
            d.sys.flash = { s.dev.sys.flash with
              slots := updAt s.dev.sys.flash.slots (1 - s.dev.fd F.SEC_STAT_SLOT) fun _ => none } ∧
            completedTo x 0 0 (v % m32 + m32 * (1 - s.dev.fd F.SEC_STAT_SLOT)) s.dev d ∧
            sameRegsBut [.SEC_STAGE_STAT, .SEC_STAT] s.dev d ∧
            d = { s.dev with regs := d.regs, fns := d.fns, freeCount := d.freeCount, sys := d.sys }) ∧
        (s.dev.fd F.SEC_STAGE_STAT_STATE = 1 → bitAt (x.arg 32 1) 0 = false →
          x.arg 28 4 ≠ s.dev.sys.stage.bytes.length →
          ∃ d : Dev, Machine.exec (.imageStageImage fn r) s = .next { s with dev := d } ∧
            d.fd F.SEC_STAGE_STAT_STATE = 0 ∧ d.sys.stage.bytes = [] ∧ completedTo x 2 0xE3 0x72 s.dev d ∧
            d.sys.flash = s.dev.sys.flash ∧ sameRegsBut [.SEC_STAGE_STAT] s.dev d ∧
            d = { s.dev with regs := d.regs, fns := d.fns, sys := d.sys }) ∧
        (s.dev.fd F.SEC_STAGE_STAT_STATE = 2 →
          Machine.exec (.imageStageImage fn r) s = .next { s with dev := s.dev.complete x 2 0xE3 0x74 })) ∧
      (x.arg 33 1 = 1 →
        (x.arg 32 1 ≠ 3 ∨ x.arg 28 4 ≠ 0 ∨ licenceOk x.data = false → ∀ ok : Bool,
          ∃ d : Dev, Machine.exec (.imageStageLicence fn r ok) s = .next { s with dev := d } ∧
            d.rawF .SEC_SIG_FAIL_CNT 0 0 0 = up1 (s.dev.rawF .SEC_SIG_FAIL_CNT 0 0 0) ∧
            completedTo x 2 0xE3 0x75 s.dev d ∧ sameRegsBut [.SEC_SIG_FAIL_CNT] s.dev d ∧
            d = { s.dev with regs := d.regs, fns := d.fns, hot := d.hot }) ∧
        (∀ (cur : List (BitVec 8)) (k : Nat), x.arg 32 1 = 3 → x.arg 28 4 = 0 → licenceOk x.data = true →
          cur = s.dev.sys.boot.licence → k = (if cur ≠ [] ∧ at_ none s.dev.sys.flash.lics 0 = some cur then 1 else 0) →
          (cur ≠ [] → leAt x.data 8 4 ≤ leAt cur 8 4 → ∀ ok : Bool,
            Machine.exec (.imageStageLicence fn r ok) s = .next { s with dev := s.dev.complete x 2 0xE3 0x76 }) ∧
          (cur = [] ∨ leAt cur 8 4 < leAt x.data 8 4 → ∀ ok : Bool,
            ∃ d : Dev, Machine.exec (.imageStageLicence fn r ok) s = .next { s with dev := d } ∧
              d.sys.flash = { s.dev.sys.flash with
                lics := updAt s.dev.sys.flash.lics k fun _ => if ok then some x.data else none } ∧
              d.fd F.SEC_STAT_LIC_PEND = (if ok then 1 else 0) ∧
              (ok = true → completedTo x 0 0 0 s.dev d) ∧ (ok = false → completedTo x 2 0xE3 0x73 s.dev d) ∧
              sameRegsBut [.SEC_STAT] s.dev d ∧
              d = { s.dev with regs := d.regs, fns := d.fns, sys := { s.dev.sys with flash := d.sys.flash } })))) ∧
    (∀ (x : Desc) (img : List (BitVec 8)), s.dev.sys.stage.desc = some x → s.dev.sys.stage.bytes = img →
      (∃ d : Dev, Machine.exec (.imageInstallComplete false) s = .next { s with dev := d } ∧
        d.fd F.SEC_STAGE_STAT_STATE = 0 ∧ d.sys.stage.bytes = [] ∧ d.sys.stage.desc = none ∧
        completedTo x 2 0xE3 0x73 s.dev d ∧ d.sys.flash = s.dev.sys.flash ∧ sameRegsBut [.SEC_STAGE_STAT] s.dev d) ∧
      ∃ d : Dev, Machine.exec (.imageInstallComplete true) s = .next { s with dev := d } ∧ d.sys.stage.desc = none ∧
        (∀ dt, imageFault s.dev.sys.flash.svnFloor img = some dt →
          d.fd F.SEC_STAGE_STAT_STATE = 0 ∧ completedTo x 2 0xE3 dt s.dev d ∧ d.sys.flash = s.dev.sys.flash ∧
          d.rawF .SEC_SIG_FAIL_CNT 0 0 0 = up1 (s.dev.rawF .SEC_SIG_FAIL_CNT 0 0 0)) ∧
        (imageFault s.dev.sys.flash.svnFloor img = none →
          d.fd F.SEC_STAGE_STAT_STATE = 3 ∧ d.fd F.SEC_STAT_PEND = 1 ∧
          (∃ q, d.sys.flash = { s.dev.sys.flash with
            slots := updAt s.dev.sys.flash.slots (1 - s.dev.fd F.SEC_STAT_SLOT) fun _ =>
              some { iseq := q, bytes := img } }) ∧
          completedTo x 0 0 (imageId img + m32 * (1 - s.dev.fd F.SEC_STAT_SLOT)) s.dev d)) ∧
    (s.dev.sys.boot.restart = true →
      ∃ d : Dev, Machine.exec .recoveryRestart s = .next (State.mk s.pending { hbm := s.mem.hbm, tile := [] } d) ∧
        d.fd F.BOOT_STAT_STEP = 2 ∧ d.sys.boot.running = true ∧ d.sys.flash.slots = s.dev.sys.flash.slots ∧
        sameOptics Dev.reset d ∧ d.ctxs = [] ∧ d.tiles = []) ∧
    (s.dev.sys.boot.restart = false → Machine.exec .recoveryRestart s = .next s)

/-- SPDM_GET_VERSION, SPDM_GET_CAPABILITIES, SPDM_NEGOTIATE_ALGORITHMS, SPDM_GET_DIGESTS, SPDM_GET_CERTIFICATE,
SPDM_CHALLENGE, SPDM_GET_MEASUREMENTS, SPDM_UNSUPPORTED_REQUEST, SPDM_REQUEST_FRAGMENT (R568-R570). The codes of
requests and responses are those of DMTF DSP0274 (PRESUMED, log entry 7). -/
def Obligations.AttestationAnswersRequests : Prop :=
  ∀ s : State, s.dev.inReset = false →
    (s.dev.bit F.SEC_STAT_PUF_OK = true → ∀ (fn : Fn) (msg old : List (BitVec 8)) (c : Instr) (code resp : Nat)
        (content : List (BitVec 8)), s.dev.fnReach fn.val = true → spdmCode msg = code →
      old = (if code = 0x84 then [] else tblGet [] s.dev.sys.spdm.script fn.val) →
      ((c = .spdmGetVersion (some (fn, msg)) ∧ code = 0x84 ∧ resp = 0x04 ∧ content = [0x12, 0x13]) ∨
        (c = .spdmGetCapabilities (some (fn, msg)) ∧ code = 0xE1 ∧ resp = 0x61 ∧ content = spdmCaps) ∨
        (c = .spdmNegotiateAlgorithms (some (fn, msg)) ∧ code = 0xE3 ∧ resp = 0x63 ∧ content = spdmAlgs) ∨
        (c = .spdmGetDigests (some (fn, msg)) ∧ code = 0x81 ∧ resp = 0x01 ∧ content = digest Config.certChain) ∨
        (c = .spdmGetCertificate (some (fn, msg)) ∧ code = 0x82 ∧ resp = 0x02 ∧ content = Config.certChain) ∨
        (c = .spdmChallenge (some (fn, msg)) ∧ code = 0x83 ∧ resp = 0x03 ∧
          content = signed (old ++ msg) (digest Config.certChain)) ∨
        (c = .spdmGetMeasurements (some (fn, msg)) ∧ code = 0xE0 ∧ resp = 0x60 ∧
          content = signed (old ++ msg) s.dev.measurements) →
        ∃ d : Dev, Machine.exec c s = .next { s with dev := d } ∧
          d.out = s.dev.out ++ [.spdm fn.val (Config.spdmMessage resp msg content)] ∧
          tblGet [] d.sys.spdm.script fn.val = old ++ msg ++ Config.spdmMessage resp msg content ∧
          d = { s.dev with
            out := d.out
            sys := { s.dev.sys with spdm := { s.dev.sys.spdm with script := d.sys.spdm.script } } }) ∧
      (c = .spdmUnsupportedRequest (some (fn, msg)) ∧ code = 0 →
        ∃ d : Dev, Machine.exec c s = .next { s with dev := d } ∧
          d.out = s.dev.out ++ [.spdm fn.val (Config.spdmMessage 0x7F msg [])] ∧
          d.rawF .SEC_SPDM_ERR_CNT 0 0 0 = up1 (s.dev.rawF .SEC_SPDM_ERR_CNT 0 0 0) ∧
          sameRegsBut [.SEC_SPDM_ERR_CNT] s.dev d ∧ d = { s.dev with out := d.out, regs := d.regs, hot := d.hot })) ∧
    ∀ (p len src : Nat) (f : Flit), s.dev.core.fmRx = [(p, f)] → s.dev.d2dFailed 2 = false →
      plByte f.payload 0 = 0x30 → plLe f.payload 8 4 = 0 →
      len = plLe f.payload 12 4 → src = f.src.toNat →
      ∃ d : Dev, Machine.exec .spdmRequestFragment s = .next { s with dev := d } ∧
        (len ≤ 224 → d.sys.spdm.ready = (s.dev.sys.spdm.ready.filter fun e => e.1 ≠ src) ++
            [(src, ((payloadBytes f.payload).drop 16).take len)] ∧ tblGet (0, []) d.sys.spdm.parts src = (0, [])) ∧
        (224 < len → d.sys.spdm.ready = (s.dev.sys.spdm.ready.filter fun e => e.1 ≠ src) ∧
          tblGet (0, []) d.sys.spdm.parts src = (len, ((payloadBytes f.payload).drop 16).take 224)) ∧
        d.sys.spdm.script = s.dev.sys.spdm.script ∧
        d = { s.dev with
          core := { s.dev.core with fmRx := [] }, sys := { s.dev.sys with spdm := d.sys.spdm } }

/-- JOURNAL_PUT, JOURNAL_COMMIT_DURABLE, JOURNAL_COMPACTION, JOURNAL_COMPACTION_COMPLETE (R573-R576, R579). -/
def Obligations.TheJournalAppendsAndCompacts : Prop :=
  ∀ s : State, s.dev.inReset = false →
    (∀ (fn : Fn) (r : RingNo) (x : Desc), s.dev.inHand fn.val r.val 0x10 = some x → s.dev.maintSlot 5 = none →
      s.dev.sys.flash.open_ = [] →
      ((∃ e, e ∈ recs16 x.data (x.arg 28 1) ∧ entryOk e = false) →
        Machine.exec (.journalPut fn r) s = .next { s with dev := s.dev.complete x 2 0xE3 0x77 }) ∧
      ((∀ e, e ∈ recs16 x.data (x.arg 28 1) → entryOk e = true) → s.dev.sys.flash.live.length + x.arg 28 1 ≤ 16384 →
        ∃ (d : Dev) (g : JGroup), Machine.exec (.journalPut fn r) s = .next { s with dev := d } ∧
          d.sys.flash.open_ = [g] ∧ g.desc = some x ∧
          g.recs.map (fun e => (e.kind, e.func, e.key, e.value)) =
            (jrnlEntries x).map (fun e => (e.1, x.fn, e.2.1, e.2.2)) ∧
          d.sys.flash.live = s.dev.sys.flash.live ∧
          d = { s.dev with sys := { s.dev.sys with flash := d.sys.flash } })) ∧
    (∀ (g : JGroup) (rest : List JGroup), s.dev.sys.flash.open_ = g :: rest →
      (g.desc = none ∨ ∃ x : Desc, g.desc = some x ∧ ∀ e, e ∈ g.recs → e.kind ≠ 1) →
      ∃ (d : Dev) (c : JRec), Machine.exec .journalCommitDurable s = .next { s with dev := d } ∧
        d.sys.flash = { s.dev.sys.flash with open_ := rest, log := s.dev.sys.flash.log ++ g.recs ++ [c] } ∧
        c.kind = 5 ∧ c.value = g.recs.length ∧
        ((∀ e, e ∈ g.recs → e.kind ≠ 5) → (∀ y, s.dev.sys.flash.log.getLast? = some y → y.kind = 5) →
          d.sys.flash.live = g.recs.foldl addLive s.dev.sys.flash.live) ∧
        (∀ x : Desc, g.desc = some x → d.rawF .HOST_JSEQ x.fn x.ring 0 = x.seq ∧ completedTo x 0 0 0 s.dev d) ∧
        (g.desc = none → d.regs = s.dev.regs ∧ d.fns = s.dev.fns) ∧ sameRegsBut [.HOST_JSEQ] s.dev d ∧
        d = { s.dev with regs := d.regs, fns := d.fns, sys := { s.dev.sys with flash := d.sys.flash } }) ∧
    (∀ (l : List JRec) (e : JRec), addLive l e =
      (l.filter fun y => !(y.func == e.func && y.key == e.key)) ++ (if e.kind = 2 then [] else [e])) ∧
    (0x1800000 ≤ s.dev.sys.flash.used → s.dev.maintSlot 5 = none → s.dev.maintRefusal 5 0 = none →
      ∃ (d : Dev) (n : Nat), Machine.exec .journalCompaction s = .next { s with dev := d } ∧ n < 16 ∧
        s.dev.maintBusy n = false ∧ d.maintBusy n = true ∧ d.maintAct n = 5 ∧ d.sys.flash = s.dev.sys.flash ∧
        sameRegsBut [.FLT_MAINT_STAT] s.dev d ∧ sameOptics s.dev d ∧ sameCompute s.dev d ∧ sameHost s.dev d) ∧
    (s.dev.sys.flash.used < 0x1800000 → Machine.exec .journalCompaction s = .next s) ∧
    (∀ n, s.dev.maintSlot 5 = some n → (s.dev.maint n).cancels = [] →
      ∃ d : Dev, Machine.exec .journalCompactionComplete s = .next { s with dev := d } ∧
        d.sys.flash.live = s.dev.sys.flash.live ∧ d.sys.flash.bank = 1 - s.dev.sys.flash.bank ∧
        d.sys.flash.gen = (s.dev.sys.flash.gen + 1) % m32 ∧ d.sys.flash.open_ = s.dev.sys.flash.open_ ∧
        d.maintBusy n = false ∧ d.fd F.FLT_STATUS_MAINT_DONE = 1 ∧ sameOptics s.dev d ∧ sameCompute s.dev d) ∧
    (s.dev.maintSlot 5 = none → Machine.exec .journalCompactionComplete s = .next s)
end

