-- ==== Sys2Proof/Laws/Tbl.lean ====
section
/-! SUPPORT. The laws of the sparse tables: a read after a write, and the canonical form kept. -/

namespace Sys2Proof.Machine

theorem tblGet_tblErase_same {α : Type} (d : α) (t : Tbl α) (k : Nat) :
    tblGet d (tblErase k t) k = d := by
  induction t with
  | nil => rfl
  | cons e t ih =>
    obtain ⟨k', v⟩ := e
    by_cases h : k' = k <;> simp [tblErase, tblGet, h, ih]

theorem tblGet_tblErase_other {α : Type} (d : α) (t : Tbl α) (k j : Nat) (h : j ≠ k) :
    tblGet d (tblErase k t) j = tblGet d t j := by
  induction t with
  | nil => rfl
  | cons e t ih =>
    obtain ⟨k', v⟩ := e
    by_cases h1 : k' = k
    · subst h1
      simp [tblErase, tblGet, ih, Ne.symm h]
    · by_cases h2 : k' = j
      · subst h2; simp [tblErase, tblGet, h]
      · simp [tblErase, tblGet, h1, h2, ih]

theorem tblGet_tblInsert_same {α : Type} (d : α) (t : Tbl α) (k : Nat) (v : α) :
    tblGet d (tblInsert k v t) k = v := by
  induction t with
  | nil => simp [tblInsert, tblGet]
  | cons e t ih =>
    obtain ⟨k', v'⟩ := e
    by_cases h1 : k < k'
    · simp [tblInsert, tblGet, h1]
    · by_cases h2 : k = k'
      · simp [tblInsert, tblGet, h2]
      · simp [tblInsert, tblGet, h1, h2, ih, Ne.symm h2]

theorem tblGet_tblInsert_other {α : Type} (d : α) (t : Tbl α) (k j : Nat) (v : α) (h : j ≠ k) :
    tblGet d (tblInsert k v t) j = tblGet d t j := by
  induction t with
  | nil => simp [tblInsert, tblGet, Ne.symm h]
  | cons e t ih =>
    obtain ⟨k', v'⟩ := e
    by_cases h1 : k < k'
    · simp [tblInsert, tblGet, h1, Ne.symm h]
    · by_cases h2 : k = k'
      · subst h2
        simp [tblInsert, tblGet, Ne.symm h]
      · by_cases h3 : k' = j
        · subst h3; simp [tblInsert, tblGet, h1, h2]
        · simp [tblInsert, tblGet, h1, h2, h3, ih]

/-- What a table reads as after a write, at every key. -/
theorem tblGet_tblPut {α : Type} [DecidableEq α] (d : α) (t : Tbl α) (k j : Nat) (v : α) :
    tblGet d (tblPut d k v t) j = if j = k then v else tblGet d t j := by
  unfold tblPut
  by_cases h : j = k
  · subst h
    by_cases hv : v = d
    · simp [hv, tblGet_tblErase_same]
    · simp [hv, tblGet_tblInsert_same]
  · by_cases hv : v = d
    · simp [hv, h, tblGet_tblErase_other]
    · simp [hv, h, tblGet_tblInsert_other]

@[simp] theorem tblGet_tblPut_same {α : Type} [DecidableEq α] (d : α) (t : Tbl α) (k : Nat) (v : α) :
    tblGet d (tblPut d k v t) k = v := by simp [tblGet_tblPut]

theorem tblGet_tblPut_other {α : Type} [DecidableEq α] (d : α) (t : Tbl α) (k j : Nat) (v : α)
    (h : j ≠ k) : tblGet d (tblPut d k v t) j = tblGet d t j := by simp [tblGet_tblPut, h]

/-- The same for a read with a default of its own. -/
theorem tblGet_tblPut_ne {α : Type} [DecidableEq α] (d d' : α) (t : Tbl α) (k j : Nat) (v : α) (h : j ≠ k) :
    tblGet d' (tblPut d k v t) j = tblGet d' t j := by
  unfold tblPut
  split
  · exact tblGet_tblErase_other d' t k j h
  · exact tblGet_tblInsert_other d' t k j v h

theorem tblAbove_weaken {α : Type} (t : Tbl α) (a b : Nat) (h : a ≤ b) (ht : tblAbove b t = true) :
    tblAbove a t = true := by
  cases t with
  | nil => rfl
  | cons e t =>
    obtain ⟨k, v⟩ := e
    simp [tblAbove] at ht ⊢
    exact ⟨by omega, ht.2⟩

theorem tblAbove_filter {α : Type} (p : Nat × α → Bool) (t : Tbl α) (a : Nat)
    (ht : tblAbove a t = true) : tblAbove a (t.filter p) = true := by
  induction t generalizing a with
  | nil => rfl
  | cons e t ih =>
    obtain ⟨k, v⟩ := e
    simp [tblAbove] at ht
    by_cases hp : p (k, v) = true
    · simp [hp, tblAbove, ht.1, ih k ht.2]
    · simp [hp]
      exact ih a (tblAbove_weaken t a k (by omega) ht.2)

theorem tblRising_filter {α : Type} (p : Nat × α → Bool) (t : Tbl α)
    (ht : tblRising t = true) : tblRising (t.filter p) = true := by
  cases t with
  | nil => rfl
  | cons e t =>
    obtain ⟨k, v⟩ := e
    simp [tblRising] at ht
    by_cases hp : p (k, v) = true
    · simp [hp, tblRising]
      exact tblAbove_filter p t k ht
    · simp [hp]
      have := tblAbove_filter p t k ht
      revert this
      generalize t.filter p = u
      cases u with
      | nil => simp [tblRising]
      | cons e u => obtain ⟨k', v'⟩ := e; simp [tblAbove, tblRising]

theorem tblErase_eq_filter {α : Type} (k : Nat) (t : Tbl α) :
    tblErase k t = t.filter fun e => !(decide (e.1 = k)) := by
  induction t with
  | nil => rfl
  | cons e t ih =>
    obtain ⟨k', v⟩ := e
    by_cases h : k' = k <;> simp [tblErase, h, ih]

theorem tblAbove_tblInsert {α : Type} (k : Nat) (v : α) (t : Tbl α) (a : Nat) (ha : a < k)
    (ht : tblAbove a t = true) : tblAbove a (tblInsert k v t) = true := by
  induction t generalizing a with
  | nil => simp [tblInsert, tblAbove, ha]
  | cons e t ih =>
    obtain ⟨k', v'⟩ := e
    simp [tblAbove] at ht
    by_cases h1 : k < k'
    · simp [tblInsert, h1, tblAbove, ha, ht.2]
    · by_cases h2 : k = k'
      · subst h2; simp [tblInsert, tblAbove, ha, ht.2]
      · simp [tblInsert, h1, h2, tblAbove, ht.1]
        exact ih k' (by omega) ht.2

theorem tblRising_tblInsert {α : Type} (k : Nat) (v : α) (t : Tbl α)
    (ht : tblRising t = true) : tblRising (tblInsert k v t) = true := by
  cases t with
  | nil => simp [tblInsert, tblRising, tblAbove]
  | cons e t =>
    obtain ⟨k', v'⟩ := e
    simp [tblRising] at ht
    by_cases h1 : k < k'
    · simp [tblInsert, h1, tblRising, tblAbove, ht]
    · by_cases h2 : k = k'
      · subst h2; simp [tblInsert, tblRising, ht]
      · simp [tblInsert, h1, h2, tblRising]
        exact tblAbove_tblInsert k v t k' (by omega) ht

theorem all_tblInsert {α : Type} (p : α → Bool) (k : Nat) (v : α) (t : Tbl α) (hv : p v = true)
    (ht : (t.all fun e => p e.2) = true) : ((tblInsert k v t).all fun e => p e.2) = true := by
  induction t with
  | nil => simp [tblInsert, hv]
  | cons e t ih =>
    obtain ⟨k', v'⟩ := e
    simp only [List.all_cons, Bool.and_eq_true] at ht
    by_cases h1 : k < k'
    · simp only [tblInsert, h1, if_true, List.all_cons, hv, ht.1, Bool.true_and]; exact ht.2
    · by_cases h2 : k = k'
      · simp only [tblInsert, h2, if_true, if_false, List.all_cons, hv, Bool.true_and, Nat.lt_irrefl]
        exact ht.2
      · simp only [tblInsert, h1, h2, if_false, List.all_cons, ht.1, Bool.true_and]; exact ih ht.2

theorem all_filter_of_all {α : Type} (p q : α → Bool) (t : List α) (ht : t.all p = true) :
    (t.filter q).all p = true := by
  simp only [List.all_eq_true, List.mem_filter] at ht ⊢
  exact fun x hx => ht x hx.1

/-- Every write keeps the canonical form. -/
theorem tblWf_tblPut {α : Type} [DecidableEq α] (d : α) (k : Nat) (v : α) (t : Tbl α)
    (ht : tblWf d t = true) : tblWf d (tblPut d k v t) = true := by
  simp only [tblWf, Bool.and_eq_true] at ht ⊢
  unfold tblPut
  by_cases hv : v = d
  · simp only [hv, if_true, tblErase_eq_filter]
    exact ⟨tblRising_filter _ t ht.1, all_filter_of_all _ _ t ht.2⟩
  · simp only [hv, if_false]
    exact ⟨tblRising_tblInsert k v t ht.1,
      all_tblInsert (fun x => !(decide (x = d))) k v t (by simp [hv]) ht.2⟩

/-- Dropping entries keeps the canonical form. -/
theorem tblWf_tblDrop {α : Type} [DecidableEq α] (d : α) (p : Nat → Bool) (t : Tbl α)
    (ht : tblWf d t = true) : tblWf d (tblDrop p t) = true := by
  simp only [tblWf, Bool.and_eq_true, tblDrop] at ht ⊢
  exact ⟨tblRising_filter _ t ht.1, all_filter_of_all _ _ t ht.2⟩

/-- A mapped table reads as the mapped value, where the map keeps the default. -/
theorem tblGet_tblMap {α : Type} [DecidableEq α] (d : α) (f : Nat → α → α) (t : Tbl α) (k : Nat) (hd : f k d = d) :
    tblGet d (tblMap d f t) k = f k (tblGet d t k) := by
  induction t with
  | nil => simp [tblMap, tblGet, hd]
  | cons e t ih =>
    show tblGet d (tblPut d e.1 (f e.1 e.2) (tblMap d f t)) k = _
    obtain ⟨k', v⟩ := e
    by_cases h : k = k'
    · subst h; rw [tblGet_tblPut]; simp [tblGet]
    · rw [tblGet_tblPut_other _ _ _ _ _ h, ih]
      simp [tblGet, Ne.symm h]

end Sys2Proof.Machine
end

