-- ==== Sys2Proof/Laws/Mem.lean ====
section
/-! SUPPORT. The laws of the memories: a byte after a write, and the canonical form that every memory operation keeps. -/

namespace Sys2Proof.Machine

/-- A byte of a cell list after a write: the byte written, or what it was. -/
theorem cellsWrite_get (bs : List (BitVec 8)) (t : List Host.Cell) (a x : Nat) :
    tblGet 0 (cellsWrite t a bs) x = if a ≤ x ∧ x < a + bs.length then bs.getD (x - a) 0 else tblGet 0 t x := by
  induction bs generalizing t a with
  | nil => exact (if_neg fun h => Nat.not_lt.mpr h.1 h.2).symm
  | cons b bs ih =>
    rw [cellsWrite, ih]
    by_cases h : x = a
    · subst h
      have h1 : ¬ x + 1 ≤ x := by omega
      simp [h1]
    · rw [tblGet_tblPut_other _ _ _ _ _ h]
      by_cases h2 : a + 1 ≤ x ∧ x < a + 1 + bs.length
      · have h3 : a ≤ x ∧ x < a + (b :: bs).length := by simp; omega
        have h4 : x - a = x - (a + 1) + 1 := by omega
        rw [if_pos h2, if_pos h3, h4]; rfl
      · have h3 : ¬ (a ≤ x ∧ x < a + (b :: bs).length) := by simp; omega
        rw [if_neg h2, if_neg h3]

theorem cellsWrite_wf (bs : List (BitVec 8)) (t : List Host.Cell) (a : Nat) (h : tblWf 0 t = true) :
    tblWf 0 (cellsWrite t a bs) = true := by
  induction bs generalizing t a with
  | nil => exact h
  | cons b bs ih => exact ih _ _ (tblWf_tblPut 0 a b t h)

/-- A byte of HBM after a write of HBM. -/
theorem Mem.hbmWrite_hbmByte (m : Mem) (a x : Nat) (bs : List (BitVec 8)) :
    (m.hbmWrite a bs).hbmByte x = if a ≤ x ∧ x < a + bs.length then bs.getD (x - a) 0 else m.hbmByte x :=
  cellsWrite_get bs m.hbm a x

/-- Tile memory stays as it is. -/
@[simp] theorem Mem.hbmWrite_tileByte (m : Mem) (a t x : Nat) (bs : List (BitVec 8)) :
    (m.hbmWrite a bs).tileByte t x = m.tileByte t x := rfl

/-- A byte of tile memory after a write of a tile. -/
theorem Mem.tileWrite_tileByte (m : Mem) (t a u x : Nat) (bs : List (BitVec 8)) :
    (m.tileWrite t a bs).tileByte u x =
      if u = t ∧ a ≤ x ∧ x < a + bs.length then bs.getD (x - a) 0 else m.tileByte u x := by
  simp only [Mem.tileWrite, Mem.tileByte, Mem.tileCells, tblGet_tblPut]
  by_cases h : u = t
  · subst h; simp only [if_true, true_and]; exact cellsWrite_get bs _ a x
  · simp [h]

@[simp] theorem Mem.tileWrite_hbmByte (m : Mem) (t a x : Nat) (bs : List (BitVec 8)) :
    (m.tileWrite t a bs).hbmByte x = m.hbmByte x := rfl

/-! The canonical form -/

theorem tblWf_tblGet (m : Tbl (List Host.Cell)) (t : Nat) (h : (m.all fun e => tblWf 0 e.2) = true) :
    tblWf 0 (tblGet [] m t) = true := by
  induction m with
  | nil => rfl
  | cons e m ih =>
    obtain ⟨k, v⟩ := e
    simp only [List.all_cons, Bool.and_eq_true] at h
    simp only [tblGet]
    split
    · exact h.1
    · exact ih h.2

theorem Mem.wf_iff (m : Mem) : m.wf = true ↔
    tblWf 0 m.hbm = true ∧ tblWf [] m.tile = true ∧ (m.tile.all fun e => tblWf 0 e.2) = true := by
  simp [Mem.wf, and_assoc]

theorem Mem.wf_tileCells (m : Mem) (t : Nat) (h : m.wf = true) : tblWf 0 (m.tileCells t) = true :=
  tblWf_tblGet m.tile t ((Mem.wf_iff m).1 h).2.2

/-- A tile's cells replaced by others in canonical form. -/
theorem Mem.wf_putTile (m : Mem) (t : Nat) (cs : List Host.Cell) (h : m.wf = true) (hc : tblWf 0 cs = true) :
    Mem.wf { m with tile := tblPut [] t cs m.tile } = true := by
  obtain ⟨h1, h2, h3⟩ := (Mem.wf_iff m).1 h
  refine (Mem.wf_iff _).2 ⟨h1, tblWf_tblPut _ _ _ _ h2, ?_⟩
  show ((tblPut [] t cs m.tile).all fun e => tblWf 0 e.2) = true
  unfold tblPut
  split
  · rw [tblErase_eq_filter]; exact all_filter_of_all _ _ _ h3
  · exact all_tblInsert (fun x => tblWf 0 x) t cs m.tile hc h3

theorem Mem.wf_hbmWrite (m : Mem) (a : Nat) (bs : List (BitVec 8)) (h : m.wf = true) :
    (m.hbmWrite a bs).wf = true := by
  obtain ⟨h1, h2⟩ := (Mem.wf_iff m).1 h
  exact (Mem.wf_iff _).2 ⟨cellsWrite_wf bs m.hbm a h1, h2⟩

theorem Mem.wf_tileWrite (m : Mem) (t a : Nat) (bs : List (BitVec 8)) (h : m.wf = true) :
    (m.tileWrite t a bs).wf = true :=
  m.wf_putTile t _ h (cellsWrite_wf bs _ a (m.wf_tileCells t h))

/-- Bytes of HBM dropped read zero again. -/
theorem Mem.wf_hbmDrop (m : Mem) (p : Nat → Bool) (h : m.wf = true) :
    Mem.wf { m with hbm := tblDrop p m.hbm } = true := by
  obtain ⟨h1, h2⟩ := (Mem.wf_iff m).1 h
  exact (Mem.wf_iff _).2 ⟨tblWf_tblDrop 0 p m.hbm h1, h2⟩

theorem tblWf_foldl_put (l : List Host.Cell) (g : Host.Cell → Nat) (t : List Host.Cell) (h : tblWf 0 t = true) :
    tblWf 0 (l.foldl (fun t e => tblPut 0 (g e) e.2 t) t) = true := by
  induction l generalizing t with
  | nil => exact h
  | cons e l ih => exact ih _ (tblWf_tblPut 0 _ _ t h)

/-- A slot loaded from an image keeps the form. -/
theorem slotLoad_wf (m : Mem) (t s : Nat) (img : List Host.Cell) (h : m.wf = true) :
    (slotLoad m t s img).wf = true := by
  refine m.wf_putTile t _ h (tblWf_foldl_put img (fun e => 0x8000 * s + e.1) _ ?_)
  exact tblWf_tblDrop 0 _ _ (m.wf_tileCells t h)

end Sys2Proof.Machine
end

