-- ==== Sys2Proof/Laws/State.lean ====
section
/-! SUPPORT. One lemma per field and per instance for each update of the device, all by unfolding: no proof unfolds a
 record update. -/

namespace Sys2Proof.Machine

/-! updPort -/

@[simp] theorem Dev.updPort_cycle (d : Dev) (p : Nat) (f : PortSt → PortSt) : (d.updPort p f).cycle = d.cycle := rfl
@[simp] theorem Dev.updPort_freeCount (d : Dev) (p : Nat) (f : PortSt → PortSt) : (d.updPort p f).freeCount = d.freeCount := rfl
@[simp] theorem Dev.updPort_out (d : Dev) (p : Nat) (f : PortSt → PortSt) : (d.updPort p f).out = d.out := rfl
@[simp] theorem Dev.updPort_regs (d : Dev) (p : Nat) (f : PortSt → PortSt) : (d.updPort p f).regs = d.regs := rfl
@[simp] theorem Dev.updPort_hot (d : Dev) (p : Nat) (f : PortSt → PortSt) : (d.updPort p f).hot = d.hot := rfl
@[simp] theorem Dev.updPort_d2d (d : Dev) (p : Nat) (f : PortSt → PortSt) : (d.updPort p f).d2d = d.d2d := rfl
@[simp] theorem Dev.updPort_fibres (d : Dev) (p : Nat) (f : PortSt → PortSt) : (d.updPort p f).fibres = d.fibres := rfl
@[simp] theorem Dev.updPort_els (d : Dev) (p : Nat) (f : PortSt → PortSt) : (d.updPort p f).els = d.els := rfl
@[simp] theorem Dev.updPort_links (d : Dev) (p : Nat) (f : PortSt → PortSt) : (d.updPort p f).links = d.links := rfl
@[simp] theorem Dev.updPort_core (d : Dev) (p : Nat) (f : PortSt → PortSt) : (d.updPort p f).core = d.core := rfl
@[simp] theorem Dev.updPort_queues (d : Dev) (p : Nat) (f : PortSt → PortSt) : (d.updPort p f).queues = d.queues := rfl
@[simp] theorem Dev.updPort_capt (d : Dev) (p : Nat) (f : PortSt → PortSt) : (d.updPort p f).capt = d.capt := rfl
@[simp] theorem Dev.updPort_ctxs (d : Dev) (p : Nat) (f : PortSt → PortSt) : (d.updPort p f).ctxs = d.ctxs := rfl
@[simp] theorem Dev.updPort_tiles (d : Dev) (p : Nat) (f : PortSt → PortSt) : (d.updPort p f).tiles = d.tiles := rfl
@[simp] theorem Dev.updPort_time (d : Dev) (p : Nat) (f : PortSt → PortSt) : (d.updPort p f).time = d.time := rfl
@[simp] theorem Dev.updPort_bars (d : Dev) (p : Nat) (f : PortSt → PortSt) : (d.updPort p f).bars = d.bars := rfl
@[simp] theorem Dev.updPort_fns (d : Dev) (p : Nat) (f : PortSt → PortSt) : (d.updPort p f).fns = d.fns := rfl
@[simp] theorem Dev.updPort_accOrder (d : Dev) (p : Nat) (f : PortSt → PortSt) : (d.updPort p f).accOrder = d.accOrder := rfl
@[simp] theorem Dev.updPort_qmr (d : Dev) (p : Nat) (f : PortSt → PortSt) : (d.updPort p f).qmr = d.qmr := rfl
@[simp] theorem Dev.updPort_flt (d : Dev) (p : Nat) (f : PortSt → PortSt) : (d.updPort p f).flt = d.flt := rfl
@[simp] theorem Dev.updPort_hbm (d : Dev) (p : Nat) (f : PortSt → PortSt) : (d.updPort p f).hbm = d.hbm := rfl
@[simp] theorem Dev.updPort_sys (d : Dev) (p : Nat) (f : PortSt → PortSt) : (d.updPort p f).sys = d.sys := rfl
@[simp] theorem Dev.updPort_link_at (d : Dev) (p : Nat) (f : PortSt → PortSt) (q : Nat) : (d.updPort p f).link q = d.link q := rfl
@[simp] theorem Dev.updPort_fibre_at (d : Dev) (p : Nat) (f : PortSt → PortSt) (q : Nat) : (d.updPort p f).fibre q = d.fibre q := rfl
@[simp] theorem Dev.updPort_elsOf_at (d : Dev) (p : Nat) (f : PortSt → PortSt) (q : Nat) : (d.updPort p f).elsOf q = d.elsOf q := rfl
@[simp] theorem Dev.updPort_queue_at (d : Dev) (p : Nat) (f : PortSt → PortSt) (q : Nat) : (d.updPort p f).queue q = d.queue q := rfl
@[simp] theorem Dev.updPort_ctx_at (d : Dev) (p : Nat) (f : PortSt → PortSt) (q : Nat) : (d.updPort p f).ctx q = d.ctx q := rfl
@[simp] theorem Dev.updPort_tile_at (d : Dev) (p : Nat) (f : PortSt → PortSt) (q : Nat) : (d.updPort p f).tile q = d.tile q := rfl
@[simp] theorem Dev.updPort_bar_at (d : Dev) (p : Nat) (f : PortSt → PortSt) (q : Nat) : (d.updPort p f).bar q = d.bar q := rfl
@[simp] theorem Dev.updPort_fn_at (d : Dev) (p : Nat) (f : PortSt → PortSt) (q : Nat) : (d.updPort p f).fn q = d.fn q := rfl
@[simp] theorem Dev.updPort_rawF (d : Dev) (p : Nat) (f : PortSt → PortSt) (r : RegName) (x y z : Nat) :
    (d.updPort p f).rawF r x y z = d.rawF r x y z := rfl
@[simp] theorem Dev.updPort_fdF (d : Dev) (p : Nat) (f : PortSt → PortSt) (g : Fld) (x y z : Nat) :
    (d.updPort p f).fdF g x y z = d.fdF g x y z := rfl
@[simp] theorem Dev.updPort_fd (d : Dev) (p : Nat) (f : PortSt → PortSt) (g : Fld) (x y : Nat) : (d.updPort p f).fd g x y = d.fd g x y := rfl
@[simp] theorem Dev.updPort_bit (d : Dev) (p : Nat) (f : PortSt → PortSt) (g : Fld) (x y : Nat) : (d.updPort p f).bit g x y = d.bit g x y := rfl
theorem Dev.updPort_port (d : Dev) (p : Nat) (f : PortSt → PortSt) (q : Nat) :
    (d.updPort p f).port q = if q = p then f (d.port p) else d.port q := by
  simp [Dev.updPort, Dev.port, tblGet_tblPut]
@[simp] theorem Dev.updPort_port_same (d : Dev) (p : Nat) (f : PortSt → PortSt) : (d.updPort p f).port p = f (d.port p) := by
  simp [Dev.updPort_port]
theorem Dev.updPort_port_other (d : Dev) (p : Nat) (f : PortSt → PortSt) (q : Nat) (hq : q ≠ p) : (d.updPort p f).port q = d.port q := by
  simp [Dev.updPort_port, hq]

/-! updLink -/

@[simp] theorem Dev.updLink_cycle (d : Dev) (p : Nat) (f : LinkSt → LinkSt) : (d.updLink p f).cycle = d.cycle := rfl
@[simp] theorem Dev.updLink_freeCount (d : Dev) (p : Nat) (f : LinkSt → LinkSt) : (d.updLink p f).freeCount = d.freeCount := rfl
@[simp] theorem Dev.updLink_out (d : Dev) (p : Nat) (f : LinkSt → LinkSt) : (d.updLink p f).out = d.out := rfl
@[simp] theorem Dev.updLink_regs (d : Dev) (p : Nat) (f : LinkSt → LinkSt) : (d.updLink p f).regs = d.regs := rfl
@[simp] theorem Dev.updLink_hot (d : Dev) (p : Nat) (f : LinkSt → LinkSt) : (d.updLink p f).hot = d.hot := rfl
@[simp] theorem Dev.updLink_d2d (d : Dev) (p : Nat) (f : LinkSt → LinkSt) : (d.updLink p f).d2d = d.d2d := rfl
@[simp] theorem Dev.updLink_ports (d : Dev) (p : Nat) (f : LinkSt → LinkSt) : (d.updLink p f).ports = d.ports := rfl
@[simp] theorem Dev.updLink_fibres (d : Dev) (p : Nat) (f : LinkSt → LinkSt) : (d.updLink p f).fibres = d.fibres := rfl
@[simp] theorem Dev.updLink_els (d : Dev) (p : Nat) (f : LinkSt → LinkSt) : (d.updLink p f).els = d.els := rfl
@[simp] theorem Dev.updLink_core (d : Dev) (p : Nat) (f : LinkSt → LinkSt) : (d.updLink p f).core = d.core := rfl
@[simp] theorem Dev.updLink_queues (d : Dev) (p : Nat) (f : LinkSt → LinkSt) : (d.updLink p f).queues = d.queues := rfl
@[simp] theorem Dev.updLink_capt (d : Dev) (p : Nat) (f : LinkSt → LinkSt) : (d.updLink p f).capt = d.capt := rfl
@[simp] theorem Dev.updLink_ctxs (d : Dev) (p : Nat) (f : LinkSt → LinkSt) : (d.updLink p f).ctxs = d.ctxs := rfl
@[simp] theorem Dev.updLink_tiles (d : Dev) (p : Nat) (f : LinkSt → LinkSt) : (d.updLink p f).tiles = d.tiles := rfl
@[simp] theorem Dev.updLink_time (d : Dev) (p : Nat) (f : LinkSt → LinkSt) : (d.updLink p f).time = d.time := rfl
@[simp] theorem Dev.updLink_bars (d : Dev) (p : Nat) (f : LinkSt → LinkSt) : (d.updLink p f).bars = d.bars := rfl
@[simp] theorem Dev.updLink_fns (d : Dev) (p : Nat) (f : LinkSt → LinkSt) : (d.updLink p f).fns = d.fns := rfl
@[simp] theorem Dev.updLink_accOrder (d : Dev) (p : Nat) (f : LinkSt → LinkSt) : (d.updLink p f).accOrder = d.accOrder := rfl
@[simp] theorem Dev.updLink_qmr (d : Dev) (p : Nat) (f : LinkSt → LinkSt) : (d.updLink p f).qmr = d.qmr := rfl
@[simp] theorem Dev.updLink_flt (d : Dev) (p : Nat) (f : LinkSt → LinkSt) : (d.updLink p f).flt = d.flt := rfl
@[simp] theorem Dev.updLink_hbm (d : Dev) (p : Nat) (f : LinkSt → LinkSt) : (d.updLink p f).hbm = d.hbm := rfl
@[simp] theorem Dev.updLink_sys (d : Dev) (p : Nat) (f : LinkSt → LinkSt) : (d.updLink p f).sys = d.sys := rfl
@[simp] theorem Dev.updLink_port_at (d : Dev) (p : Nat) (f : LinkSt → LinkSt) (q : Nat) : (d.updLink p f).port q = d.port q := rfl
@[simp] theorem Dev.updLink_fibre_at (d : Dev) (p : Nat) (f : LinkSt → LinkSt) (q : Nat) : (d.updLink p f).fibre q = d.fibre q := rfl
@[simp] theorem Dev.updLink_elsOf_at (d : Dev) (p : Nat) (f : LinkSt → LinkSt) (q : Nat) : (d.updLink p f).elsOf q = d.elsOf q := rfl
@[simp] theorem Dev.updLink_queue_at (d : Dev) (p : Nat) (f : LinkSt → LinkSt) (q : Nat) : (d.updLink p f).queue q = d.queue q := rfl
@[simp] theorem Dev.updLink_ctx_at (d : Dev) (p : Nat) (f : LinkSt → LinkSt) (q : Nat) : (d.updLink p f).ctx q = d.ctx q := rfl
@[simp] theorem Dev.updLink_tile_at (d : Dev) (p : Nat) (f : LinkSt → LinkSt) (q : Nat) : (d.updLink p f).tile q = d.tile q := rfl
@[simp] theorem Dev.updLink_bar_at (d : Dev) (p : Nat) (f : LinkSt → LinkSt) (q : Nat) : (d.updLink p f).bar q = d.bar q := rfl
@[simp] theorem Dev.updLink_fn_at (d : Dev) (p : Nat) (f : LinkSt → LinkSt) (q : Nat) : (d.updLink p f).fn q = d.fn q := rfl
@[simp] theorem Dev.updLink_rawF (d : Dev) (p : Nat) (f : LinkSt → LinkSt) (r : RegName) (x y z : Nat) :
    (d.updLink p f).rawF r x y z = d.rawF r x y z := rfl
@[simp] theorem Dev.updLink_fdF (d : Dev) (p : Nat) (f : LinkSt → LinkSt) (g : Fld) (x y z : Nat) :
    (d.updLink p f).fdF g x y z = d.fdF g x y z := rfl
@[simp] theorem Dev.updLink_fd (d : Dev) (p : Nat) (f : LinkSt → LinkSt) (g : Fld) (x y : Nat) : (d.updLink p f).fd g x y = d.fd g x y := rfl
@[simp] theorem Dev.updLink_bit (d : Dev) (p : Nat) (f : LinkSt → LinkSt) (g : Fld) (x y : Nat) : (d.updLink p f).bit g x y = d.bit g x y := rfl
theorem Dev.updLink_link (d : Dev) (p : Nat) (f : LinkSt → LinkSt) (q : Nat) :
    (d.updLink p f).link q = if q = p then f (d.link p) else d.link q := by
  simp [Dev.updLink, Dev.link, tblGet_tblPut]
@[simp] theorem Dev.updLink_link_same (d : Dev) (p : Nat) (f : LinkSt → LinkSt) : (d.updLink p f).link p = f (d.link p) := by
  simp [Dev.updLink_link]
theorem Dev.updLink_link_other (d : Dev) (p : Nat) (f : LinkSt → LinkSt) (q : Nat) (hq : q ≠ p) : (d.updLink p f).link q = d.link q := by
  simp [Dev.updLink_link, hq]

/-! updFibre -/

@[simp] theorem Dev.updFibre_cycle (d : Dev) (m : Nat) (f : FibreSt → FibreSt) : (d.updFibre m f).cycle = d.cycle := rfl
@[simp] theorem Dev.updFibre_freeCount (d : Dev) (m : Nat) (f : FibreSt → FibreSt) : (d.updFibre m f).freeCount = d.freeCount := rfl
@[simp] theorem Dev.updFibre_out (d : Dev) (m : Nat) (f : FibreSt → FibreSt) : (d.updFibre m f).out = d.out := rfl
@[simp] theorem Dev.updFibre_regs (d : Dev) (m : Nat) (f : FibreSt → FibreSt) : (d.updFibre m f).regs = d.regs := rfl
@[simp] theorem Dev.updFibre_hot (d : Dev) (m : Nat) (f : FibreSt → FibreSt) : (d.updFibre m f).hot = d.hot := rfl
@[simp] theorem Dev.updFibre_d2d (d : Dev) (m : Nat) (f : FibreSt → FibreSt) : (d.updFibre m f).d2d = d.d2d := rfl
@[simp] theorem Dev.updFibre_ports (d : Dev) (m : Nat) (f : FibreSt → FibreSt) : (d.updFibre m f).ports = d.ports := rfl
@[simp] theorem Dev.updFibre_els (d : Dev) (m : Nat) (f : FibreSt → FibreSt) : (d.updFibre m f).els = d.els := rfl
@[simp] theorem Dev.updFibre_links (d : Dev) (m : Nat) (f : FibreSt → FibreSt) : (d.updFibre m f).links = d.links := rfl
@[simp] theorem Dev.updFibre_core (d : Dev) (m : Nat) (f : FibreSt → FibreSt) : (d.updFibre m f).core = d.core := rfl
@[simp] theorem Dev.updFibre_queues (d : Dev) (m : Nat) (f : FibreSt → FibreSt) : (d.updFibre m f).queues = d.queues := rfl
@[simp] theorem Dev.updFibre_capt (d : Dev) (m : Nat) (f : FibreSt → FibreSt) : (d.updFibre m f).capt = d.capt := rfl
@[simp] theorem Dev.updFibre_ctxs (d : Dev) (m : Nat) (f : FibreSt → FibreSt) : (d.updFibre m f).ctxs = d.ctxs := rfl
@[simp] theorem Dev.updFibre_tiles (d : Dev) (m : Nat) (f : FibreSt → FibreSt) : (d.updFibre m f).tiles = d.tiles := rfl
@[simp] theorem Dev.updFibre_time (d : Dev) (m : Nat) (f : FibreSt → FibreSt) : (d.updFibre m f).time = d.time := rfl
@[simp] theorem Dev.updFibre_bars (d : Dev) (m : Nat) (f : FibreSt → FibreSt) : (d.updFibre m f).bars = d.bars := rfl
@[simp] theorem Dev.updFibre_fns (d : Dev) (m : Nat) (f : FibreSt → FibreSt) : (d.updFibre m f).fns = d.fns := rfl
@[simp] theorem Dev.updFibre_accOrder (d : Dev) (m : Nat) (f : FibreSt → FibreSt) : (d.updFibre m f).accOrder = d.accOrder := rfl
@[simp] theorem Dev.updFibre_qmr (d : Dev) (m : Nat) (f : FibreSt → FibreSt) : (d.updFibre m f).qmr = d.qmr := rfl
@[simp] theorem Dev.updFibre_flt (d : Dev) (m : Nat) (f : FibreSt → FibreSt) : (d.updFibre m f).flt = d.flt := rfl
@[simp] theorem Dev.updFibre_hbm (d : Dev) (m : Nat) (f : FibreSt → FibreSt) : (d.updFibre m f).hbm = d.hbm := rfl
@[simp] theorem Dev.updFibre_sys (d : Dev) (m : Nat) (f : FibreSt → FibreSt) : (d.updFibre m f).sys = d.sys := rfl
@[simp] theorem Dev.updFibre_port_at (d : Dev) (m : Nat) (f : FibreSt → FibreSt) (q : Nat) : (d.updFibre m f).port q = d.port q := rfl
@[simp] theorem Dev.updFibre_link_at (d : Dev) (m : Nat) (f : FibreSt → FibreSt) (q : Nat) : (d.updFibre m f).link q = d.link q := rfl
@[simp] theorem Dev.updFibre_elsOf_at (d : Dev) (m : Nat) (f : FibreSt → FibreSt) (q : Nat) : (d.updFibre m f).elsOf q = d.elsOf q := rfl
@[simp] theorem Dev.updFibre_queue_at (d : Dev) (m : Nat) (f : FibreSt → FibreSt) (q : Nat) : (d.updFibre m f).queue q = d.queue q := rfl
@[simp] theorem Dev.updFibre_ctx_at (d : Dev) (m : Nat) (f : FibreSt → FibreSt) (q : Nat) : (d.updFibre m f).ctx q = d.ctx q := rfl
@[simp] theorem Dev.updFibre_tile_at (d : Dev) (m : Nat) (f : FibreSt → FibreSt) (q : Nat) : (d.updFibre m f).tile q = d.tile q := rfl
@[simp] theorem Dev.updFibre_bar_at (d : Dev) (m : Nat) (f : FibreSt → FibreSt) (q : Nat) : (d.updFibre m f).bar q = d.bar q := rfl
@[simp] theorem Dev.updFibre_fn_at (d : Dev) (m : Nat) (f : FibreSt → FibreSt) (q : Nat) : (d.updFibre m f).fn q = d.fn q := rfl
@[simp] theorem Dev.updFibre_rawF (d : Dev) (m : Nat) (f : FibreSt → FibreSt) (r : RegName) (x y z : Nat) :
    (d.updFibre m f).rawF r x y z = d.rawF r x y z := rfl
@[simp] theorem Dev.updFibre_fdF (d : Dev) (m : Nat) (f : FibreSt → FibreSt) (g : Fld) (x y z : Nat) :
    (d.updFibre m f).fdF g x y z = d.fdF g x y z := rfl
@[simp] theorem Dev.updFibre_fd (d : Dev) (m : Nat) (f : FibreSt → FibreSt) (g : Fld) (x y : Nat) : (d.updFibre m f).fd g x y = d.fd g x y := rfl
@[simp] theorem Dev.updFibre_bit (d : Dev) (m : Nat) (f : FibreSt → FibreSt) (g : Fld) (x y : Nat) : (d.updFibre m f).bit g x y = d.bit g x y := rfl
theorem Dev.updFibre_fibre (d : Dev) (m : Nat) (f : FibreSt → FibreSt) (q : Nat) :
    (d.updFibre m f).fibre q = if q = m then f (d.fibre m) else d.fibre q := by
  simp [Dev.updFibre, Dev.fibre, tblGet_tblPut]
@[simp] theorem Dev.updFibre_fibre_same (d : Dev) (m : Nat) (f : FibreSt → FibreSt) : (d.updFibre m f).fibre m = f (d.fibre m) := by
  simp [Dev.updFibre_fibre]
theorem Dev.updFibre_fibre_other (d : Dev) (m : Nat) (f : FibreSt → FibreSt) (q : Nat) (hq : q ≠ m) : (d.updFibre m f).fibre q = d.fibre q := by
  simp [Dev.updFibre_fibre, hq]

/-! updEls -/

@[simp] theorem Dev.updEls_cycle (d : Dev) (k : Nat) (f : ElsSt → ElsSt) : (d.updEls k f).cycle = d.cycle := rfl
@[simp] theorem Dev.updEls_freeCount (d : Dev) (k : Nat) (f : ElsSt → ElsSt) : (d.updEls k f).freeCount = d.freeCount := rfl
@[simp] theorem Dev.updEls_out (d : Dev) (k : Nat) (f : ElsSt → ElsSt) : (d.updEls k f).out = d.out := rfl
@[simp] theorem Dev.updEls_regs (d : Dev) (k : Nat) (f : ElsSt → ElsSt) : (d.updEls k f).regs = d.regs := rfl
@[simp] theorem Dev.updEls_hot (d : Dev) (k : Nat) (f : ElsSt → ElsSt) : (d.updEls k f).hot = d.hot := rfl
@[simp] theorem Dev.updEls_d2d (d : Dev) (k : Nat) (f : ElsSt → ElsSt) : (d.updEls k f).d2d = d.d2d := rfl
@[simp] theorem Dev.updEls_ports (d : Dev) (k : Nat) (f : ElsSt → ElsSt) : (d.updEls k f).ports = d.ports := rfl
@[simp] theorem Dev.updEls_fibres (d : Dev) (k : Nat) (f : ElsSt → ElsSt) : (d.updEls k f).fibres = d.fibres := rfl
@[simp] theorem Dev.updEls_links (d : Dev) (k : Nat) (f : ElsSt → ElsSt) : (d.updEls k f).links = d.links := rfl
@[simp] theorem Dev.updEls_core (d : Dev) (k : Nat) (f : ElsSt → ElsSt) : (d.updEls k f).core = d.core := rfl
@[simp] theorem Dev.updEls_queues (d : Dev) (k : Nat) (f : ElsSt → ElsSt) : (d.updEls k f).queues = d.queues := rfl
@[simp] theorem Dev.updEls_capt (d : Dev) (k : Nat) (f : ElsSt → ElsSt) : (d.updEls k f).capt = d.capt := rfl
@[simp] theorem Dev.updEls_ctxs (d : Dev) (k : Nat) (f : ElsSt → ElsSt) : (d.updEls k f).ctxs = d.ctxs := rfl
@[simp] theorem Dev.updEls_tiles (d : Dev) (k : Nat) (f : ElsSt → ElsSt) : (d.updEls k f).tiles = d.tiles := rfl
@[simp] theorem Dev.updEls_time (d : Dev) (k : Nat) (f : ElsSt → ElsSt) : (d.updEls k f).time = d.time := rfl
@[simp] theorem Dev.updEls_bars (d : Dev) (k : Nat) (f : ElsSt → ElsSt) : (d.updEls k f).bars = d.bars := rfl
@[simp] theorem Dev.updEls_fns (d : Dev) (k : Nat) (f : ElsSt → ElsSt) : (d.updEls k f).fns = d.fns := rfl
@[simp] theorem Dev.updEls_accOrder (d : Dev) (k : Nat) (f : ElsSt → ElsSt) : (d.updEls k f).accOrder = d.accOrder := rfl
@[simp] theorem Dev.updEls_qmr (d : Dev) (k : Nat) (f : ElsSt → ElsSt) : (d.updEls k f).qmr = d.qmr := rfl
@[simp] theorem Dev.updEls_flt (d : Dev) (k : Nat) (f : ElsSt → ElsSt) : (d.updEls k f).flt = d.flt := rfl
@[simp] theorem Dev.updEls_hbm (d : Dev) (k : Nat) (f : ElsSt → ElsSt) : (d.updEls k f).hbm = d.hbm := rfl
@[simp] theorem Dev.updEls_sys (d : Dev) (k : Nat) (f : ElsSt → ElsSt) : (d.updEls k f).sys = d.sys := rfl
@[simp] theorem Dev.updEls_port_at (d : Dev) (k : Nat) (f : ElsSt → ElsSt) (q : Nat) : (d.updEls k f).port q = d.port q := rfl
@[simp] theorem Dev.updEls_link_at (d : Dev) (k : Nat) (f : ElsSt → ElsSt) (q : Nat) : (d.updEls k f).link q = d.link q := rfl
@[simp] theorem Dev.updEls_fibre_at (d : Dev) (k : Nat) (f : ElsSt → ElsSt) (q : Nat) : (d.updEls k f).fibre q = d.fibre q := rfl
@[simp] theorem Dev.updEls_queue_at (d : Dev) (k : Nat) (f : ElsSt → ElsSt) (q : Nat) : (d.updEls k f).queue q = d.queue q := rfl
@[simp] theorem Dev.updEls_ctx_at (d : Dev) (k : Nat) (f : ElsSt → ElsSt) (q : Nat) : (d.updEls k f).ctx q = d.ctx q := rfl
@[simp] theorem Dev.updEls_tile_at (d : Dev) (k : Nat) (f : ElsSt → ElsSt) (q : Nat) : (d.updEls k f).tile q = d.tile q := rfl
@[simp] theorem Dev.updEls_bar_at (d : Dev) (k : Nat) (f : ElsSt → ElsSt) (q : Nat) : (d.updEls k f).bar q = d.bar q := rfl
@[simp] theorem Dev.updEls_fn_at (d : Dev) (k : Nat) (f : ElsSt → ElsSt) (q : Nat) : (d.updEls k f).fn q = d.fn q := rfl
@[simp] theorem Dev.updEls_rawF (d : Dev) (k : Nat) (f : ElsSt → ElsSt) (r : RegName) (x y z : Nat) :
    (d.updEls k f).rawF r x y z = d.rawF r x y z := rfl
@[simp] theorem Dev.updEls_fdF (d : Dev) (k : Nat) (f : ElsSt → ElsSt) (g : Fld) (x y z : Nat) :
    (d.updEls k f).fdF g x y z = d.fdF g x y z := rfl
@[simp] theorem Dev.updEls_fd (d : Dev) (k : Nat) (f : ElsSt → ElsSt) (g : Fld) (x y : Nat) : (d.updEls k f).fd g x y = d.fd g x y := rfl
@[simp] theorem Dev.updEls_bit (d : Dev) (k : Nat) (f : ElsSt → ElsSt) (g : Fld) (x y : Nat) : (d.updEls k f).bit g x y = d.bit g x y := rfl
theorem Dev.updEls_elsOf (d : Dev) (k : Nat) (f : ElsSt → ElsSt) (q : Nat) :
    (d.updEls k f).elsOf q = if q = k then f (d.elsOf k) else d.elsOf q := by
  simp [Dev.updEls, Dev.elsOf, tblGet_tblPut]
@[simp] theorem Dev.updEls_elsOf_same (d : Dev) (k : Nat) (f : ElsSt → ElsSt) : (d.updEls k f).elsOf k = f (d.elsOf k) := by
  simp [Dev.updEls_elsOf]
theorem Dev.updEls_elsOf_other (d : Dev) (k : Nat) (f : ElsSt → ElsSt) (q : Nat) (hq : q ≠ k) : (d.updEls k f).elsOf q = d.elsOf q := by
  simp [Dev.updEls_elsOf, hq]

/-! updQueue -/

@[simp] theorem Dev.updQueue_cycle (d : Dev) (p : Nat) (f : QueueSt → QueueSt) : (d.updQueue p f).cycle = d.cycle := rfl
@[simp] theorem Dev.updQueue_freeCount (d : Dev) (p : Nat) (f : QueueSt → QueueSt) : (d.updQueue p f).freeCount = d.freeCount := rfl
@[simp] theorem Dev.updQueue_out (d : Dev) (p : Nat) (f : QueueSt → QueueSt) : (d.updQueue p f).out = d.out := rfl
@[simp] theorem Dev.updQueue_regs (d : Dev) (p : Nat) (f : QueueSt → QueueSt) : (d.updQueue p f).regs = d.regs := rfl
@[simp] theorem Dev.updQueue_hot (d : Dev) (p : Nat) (f : QueueSt → QueueSt) : (d.updQueue p f).hot = d.hot := rfl
@[simp] theorem Dev.updQueue_d2d (d : Dev) (p : Nat) (f : QueueSt → QueueSt) : (d.updQueue p f).d2d = d.d2d := rfl
@[simp] theorem Dev.updQueue_ports (d : Dev) (p : Nat) (f : QueueSt → QueueSt) : (d.updQueue p f).ports = d.ports := rfl
@[simp] theorem Dev.updQueue_fibres (d : Dev) (p : Nat) (f : QueueSt → QueueSt) : (d.updQueue p f).fibres = d.fibres := rfl
@[simp] theorem Dev.updQueue_els (d : Dev) (p : Nat) (f : QueueSt → QueueSt) : (d.updQueue p f).els = d.els := rfl
@[simp] theorem Dev.updQueue_links (d : Dev) (p : Nat) (f : QueueSt → QueueSt) : (d.updQueue p f).links = d.links := rfl
@[simp] theorem Dev.updQueue_core (d : Dev) (p : Nat) (f : QueueSt → QueueSt) : (d.updQueue p f).core = d.core := rfl
@[simp] theorem Dev.updQueue_capt (d : Dev) (p : Nat) (f : QueueSt → QueueSt) : (d.updQueue p f).capt = d.capt := rfl
@[simp] theorem Dev.updQueue_ctxs (d : Dev) (p : Nat) (f : QueueSt → QueueSt) : (d.updQueue p f).ctxs = d.ctxs := rfl
@[simp] theorem Dev.updQueue_tiles (d : Dev) (p : Nat) (f : QueueSt → QueueSt) : (d.updQueue p f).tiles = d.tiles := rfl
@[simp] theorem Dev.updQueue_time (d : Dev) (p : Nat) (f : QueueSt → QueueSt) : (d.updQueue p f).time = d.time := rfl
@[simp] theorem Dev.updQueue_bars (d : Dev) (p : Nat) (f : QueueSt → QueueSt) : (d.updQueue p f).bars = d.bars := rfl
@[simp] theorem Dev.updQueue_fns (d : Dev) (p : Nat) (f : QueueSt → QueueSt) : (d.updQueue p f).fns = d.fns := rfl
@[simp] theorem Dev.updQueue_accOrder (d : Dev) (p : Nat) (f : QueueSt → QueueSt) : (d.updQueue p f).accOrder = d.accOrder := rfl
@[simp] theorem Dev.updQueue_qmr (d : Dev) (p : Nat) (f : QueueSt → QueueSt) : (d.updQueue p f).qmr = d.qmr := rfl
@[simp] theorem Dev.updQueue_flt (d : Dev) (p : Nat) (f : QueueSt → QueueSt) : (d.updQueue p f).flt = d.flt := rfl
@[simp] theorem Dev.updQueue_hbm (d : Dev) (p : Nat) (f : QueueSt → QueueSt) : (d.updQueue p f).hbm = d.hbm := rfl
@[simp] theorem Dev.updQueue_sys (d : Dev) (p : Nat) (f : QueueSt → QueueSt) : (d.updQueue p f).sys = d.sys := rfl
@[simp] theorem Dev.updQueue_port_at (d : Dev) (p : Nat) (f : QueueSt → QueueSt) (q : Nat) : (d.updQueue p f).port q = d.port q := rfl
@[simp] theorem Dev.updQueue_link_at (d : Dev) (p : Nat) (f : QueueSt → QueueSt) (q : Nat) : (d.updQueue p f).link q = d.link q := rfl
@[simp] theorem Dev.updQueue_fibre_at (d : Dev) (p : Nat) (f : QueueSt → QueueSt) (q : Nat) : (d.updQueue p f).fibre q = d.fibre q := rfl
@[simp] theorem Dev.updQueue_elsOf_at (d : Dev) (p : Nat) (f : QueueSt → QueueSt) (q : Nat) : (d.updQueue p f).elsOf q = d.elsOf q := rfl
@[simp] theorem Dev.updQueue_ctx_at (d : Dev) (p : Nat) (f : QueueSt → QueueSt) (q : Nat) : (d.updQueue p f).ctx q = d.ctx q := rfl
@[simp] theorem Dev.updQueue_tile_at (d : Dev) (p : Nat) (f : QueueSt → QueueSt) (q : Nat) : (d.updQueue p f).tile q = d.tile q := rfl
@[simp] theorem Dev.updQueue_bar_at (d : Dev) (p : Nat) (f : QueueSt → QueueSt) (q : Nat) : (d.updQueue p f).bar q = d.bar q := rfl
@[simp] theorem Dev.updQueue_fn_at (d : Dev) (p : Nat) (f : QueueSt → QueueSt) (q : Nat) : (d.updQueue p f).fn q = d.fn q := rfl
@[simp] theorem Dev.updQueue_rawF (d : Dev) (p : Nat) (f : QueueSt → QueueSt) (r : RegName) (x y z : Nat) :
    (d.updQueue p f).rawF r x y z = d.rawF r x y z := rfl
@[simp] theorem Dev.updQueue_fdF (d : Dev) (p : Nat) (f : QueueSt → QueueSt) (g : Fld) (x y z : Nat) :
    (d.updQueue p f).fdF g x y z = d.fdF g x y z := rfl
@[simp] theorem Dev.updQueue_fd (d : Dev) (p : Nat) (f : QueueSt → QueueSt) (g : Fld) (x y : Nat) : (d.updQueue p f).fd g x y = d.fd g x y := rfl
@[simp] theorem Dev.updQueue_bit (d : Dev) (p : Nat) (f : QueueSt → QueueSt) (g : Fld) (x y : Nat) : (d.updQueue p f).bit g x y = d.bit g x y := rfl
theorem Dev.updQueue_queue (d : Dev) (p : Nat) (f : QueueSt → QueueSt) (q : Nat) :
    (d.updQueue p f).queue q = if q = p then f (d.queue p) else d.queue q := by
  simp [Dev.updQueue, Dev.queue, tblGet_tblPut]
@[simp] theorem Dev.updQueue_queue_same (d : Dev) (p : Nat) (f : QueueSt → QueueSt) : (d.updQueue p f).queue p = f (d.queue p) := by
  simp [Dev.updQueue_queue]
theorem Dev.updQueue_queue_other (d : Dev) (p : Nat) (f : QueueSt → QueueSt) (q : Nat) (hq : q ≠ p) : (d.updQueue p f).queue q = d.queue q := by
  simp [Dev.updQueue_queue, hq]

/-! updCtx -/

@[simp] theorem Dev.updCtx_cycle (d : Dev) (c : Nat) (f : CtxSt → CtxSt) : (d.updCtx c f).cycle = d.cycle := rfl
@[simp] theorem Dev.updCtx_freeCount (d : Dev) (c : Nat) (f : CtxSt → CtxSt) : (d.updCtx c f).freeCount = d.freeCount := rfl
@[simp] theorem Dev.updCtx_out (d : Dev) (c : Nat) (f : CtxSt → CtxSt) : (d.updCtx c f).out = d.out := rfl
@[simp] theorem Dev.updCtx_regs (d : Dev) (c : Nat) (f : CtxSt → CtxSt) : (d.updCtx c f).regs = d.regs := rfl
@[simp] theorem Dev.updCtx_hot (d : Dev) (c : Nat) (f : CtxSt → CtxSt) : (d.updCtx c f).hot = d.hot := rfl
@[simp] theorem Dev.updCtx_d2d (d : Dev) (c : Nat) (f : CtxSt → CtxSt) : (d.updCtx c f).d2d = d.d2d := rfl
@[simp] theorem Dev.updCtx_ports (d : Dev) (c : Nat) (f : CtxSt → CtxSt) : (d.updCtx c f).ports = d.ports := rfl
@[simp] theorem Dev.updCtx_fibres (d : Dev) (c : Nat) (f : CtxSt → CtxSt) : (d.updCtx c f).fibres = d.fibres := rfl
@[simp] theorem Dev.updCtx_els (d : Dev) (c : Nat) (f : CtxSt → CtxSt) : (d.updCtx c f).els = d.els := rfl
@[simp] theorem Dev.updCtx_links (d : Dev) (c : Nat) (f : CtxSt → CtxSt) : (d.updCtx c f).links = d.links := rfl
@[simp] theorem Dev.updCtx_core (d : Dev) (c : Nat) (f : CtxSt → CtxSt) : (d.updCtx c f).core = d.core := rfl
@[simp] theorem Dev.updCtx_queues (d : Dev) (c : Nat) (f : CtxSt → CtxSt) : (d.updCtx c f).queues = d.queues := rfl
@[simp] theorem Dev.updCtx_capt (d : Dev) (c : Nat) (f : CtxSt → CtxSt) : (d.updCtx c f).capt = d.capt := rfl
@[simp] theorem Dev.updCtx_tiles (d : Dev) (c : Nat) (f : CtxSt → CtxSt) : (d.updCtx c f).tiles = d.tiles := rfl
@[simp] theorem Dev.updCtx_time (d : Dev) (c : Nat) (f : CtxSt → CtxSt) : (d.updCtx c f).time = d.time := rfl
@[simp] theorem Dev.updCtx_bars (d : Dev) (c : Nat) (f : CtxSt → CtxSt) : (d.updCtx c f).bars = d.bars := rfl
@[simp] theorem Dev.updCtx_fns (d : Dev) (c : Nat) (f : CtxSt → CtxSt) : (d.updCtx c f).fns = d.fns := rfl
@[simp] theorem Dev.updCtx_accOrder (d : Dev) (c : Nat) (f : CtxSt → CtxSt) : (d.updCtx c f).accOrder = d.accOrder := rfl
@[simp] theorem Dev.updCtx_qmr (d : Dev) (c : Nat) (f : CtxSt → CtxSt) : (d.updCtx c f).qmr = d.qmr := rfl
@[simp] theorem Dev.updCtx_flt (d : Dev) (c : Nat) (f : CtxSt → CtxSt) : (d.updCtx c f).flt = d.flt := rfl
@[simp] theorem Dev.updCtx_hbm (d : Dev) (c : Nat) (f : CtxSt → CtxSt) : (d.updCtx c f).hbm = d.hbm := rfl
@[simp] theorem Dev.updCtx_sys (d : Dev) (c : Nat) (f : CtxSt → CtxSt) : (d.updCtx c f).sys = d.sys := rfl
@[simp] theorem Dev.updCtx_port_at (d : Dev) (c : Nat) (f : CtxSt → CtxSt) (q : Nat) : (d.updCtx c f).port q = d.port q := rfl
@[simp] theorem Dev.updCtx_link_at (d : Dev) (c : Nat) (f : CtxSt → CtxSt) (q : Nat) : (d.updCtx c f).link q = d.link q := rfl
@[simp] theorem Dev.updCtx_fibre_at (d : Dev) (c : Nat) (f : CtxSt → CtxSt) (q : Nat) : (d.updCtx c f).fibre q = d.fibre q := rfl
@[simp] theorem Dev.updCtx_elsOf_at (d : Dev) (c : Nat) (f : CtxSt → CtxSt) (q : Nat) : (d.updCtx c f).elsOf q = d.elsOf q := rfl
@[simp] theorem Dev.updCtx_queue_at (d : Dev) (c : Nat) (f : CtxSt → CtxSt) (q : Nat) : (d.updCtx c f).queue q = d.queue q := rfl
@[simp] theorem Dev.updCtx_tile_at (d : Dev) (c : Nat) (f : CtxSt → CtxSt) (q : Nat) : (d.updCtx c f).tile q = d.tile q := rfl
@[simp] theorem Dev.updCtx_bar_at (d : Dev) (c : Nat) (f : CtxSt → CtxSt) (q : Nat) : (d.updCtx c f).bar q = d.bar q := rfl
@[simp] theorem Dev.updCtx_fn_at (d : Dev) (c : Nat) (f : CtxSt → CtxSt) (q : Nat) : (d.updCtx c f).fn q = d.fn q := rfl
@[simp] theorem Dev.updCtx_rawF (d : Dev) (c : Nat) (f : CtxSt → CtxSt) (r : RegName) (x y z : Nat) :
    (d.updCtx c f).rawF r x y z = d.rawF r x y z := rfl
@[simp] theorem Dev.updCtx_fdF (d : Dev) (c : Nat) (f : CtxSt → CtxSt) (g : Fld) (x y z : Nat) :
    (d.updCtx c f).fdF g x y z = d.fdF g x y z := rfl
@[simp] theorem Dev.updCtx_fd (d : Dev) (c : Nat) (f : CtxSt → CtxSt) (g : Fld) (x y : Nat) : (d.updCtx c f).fd g x y = d.fd g x y := rfl
@[simp] theorem Dev.updCtx_bit (d : Dev) (c : Nat) (f : CtxSt → CtxSt) (g : Fld) (x y : Nat) : (d.updCtx c f).bit g x y = d.bit g x y := rfl
theorem Dev.updCtx_ctx (d : Dev) (c : Nat) (f : CtxSt → CtxSt) (q : Nat) :
    (d.updCtx c f).ctx q = if q = c then f (d.ctx c) else d.ctx q := by
  simp [Dev.updCtx, Dev.ctx, tblGet_tblPut]
@[simp] theorem Dev.updCtx_ctx_same (d : Dev) (c : Nat) (f : CtxSt → CtxSt) : (d.updCtx c f).ctx c = f (d.ctx c) := by
  simp [Dev.updCtx_ctx]
theorem Dev.updCtx_ctx_other (d : Dev) (c : Nat) (f : CtxSt → CtxSt) (q : Nat) (hq : q ≠ c) : (d.updCtx c f).ctx q = d.ctx q := by
  simp [Dev.updCtx_ctx, hq]

/-! updTile -/

@[simp] theorem Dev.updTile_cycle (d : Dev) (t : Nat) (f : TileSt → TileSt) : (d.updTile t f).cycle = d.cycle := rfl
@[simp] theorem Dev.updTile_freeCount (d : Dev) (t : Nat) (f : TileSt → TileSt) : (d.updTile t f).freeCount = d.freeCount := rfl
@[simp] theorem Dev.updTile_out (d : Dev) (t : Nat) (f : TileSt → TileSt) : (d.updTile t f).out = d.out := rfl
@[simp] theorem Dev.updTile_regs (d : Dev) (t : Nat) (f : TileSt → TileSt) : (d.updTile t f).regs = d.regs := rfl
@[simp] theorem Dev.updTile_hot (d : Dev) (t : Nat) (f : TileSt → TileSt) : (d.updTile t f).hot = d.hot := rfl
@[simp] theorem Dev.updTile_d2d (d : Dev) (t : Nat) (f : TileSt → TileSt) : (d.updTile t f).d2d = d.d2d := rfl
@[simp] theorem Dev.updTile_ports (d : Dev) (t : Nat) (f : TileSt → TileSt) : (d.updTile t f).ports = d.ports := rfl
@[simp] theorem Dev.updTile_fibres (d : Dev) (t : Nat) (f : TileSt → TileSt) : (d.updTile t f).fibres = d.fibres := rfl
@[simp] theorem Dev.updTile_els (d : Dev) (t : Nat) (f : TileSt → TileSt) : (d.updTile t f).els = d.els := rfl
@[simp] theorem Dev.updTile_links (d : Dev) (t : Nat) (f : TileSt → TileSt) : (d.updTile t f).links = d.links := rfl
@[simp] theorem Dev.updTile_core (d : Dev) (t : Nat) (f : TileSt → TileSt) : (d.updTile t f).core = d.core := rfl
@[simp] theorem Dev.updTile_queues (d : Dev) (t : Nat) (f : TileSt → TileSt) : (d.updTile t f).queues = d.queues := rfl
@[simp] theorem Dev.updTile_capt (d : Dev) (t : Nat) (f : TileSt → TileSt) : (d.updTile t f).capt = d.capt := rfl
@[simp] theorem Dev.updTile_ctxs (d : Dev) (t : Nat) (f : TileSt → TileSt) : (d.updTile t f).ctxs = d.ctxs := rfl
@[simp] theorem Dev.updTile_time (d : Dev) (t : Nat) (f : TileSt → TileSt) : (d.updTile t f).time = d.time := rfl
@[simp] theorem Dev.updTile_bars (d : Dev) (t : Nat) (f : TileSt → TileSt) : (d.updTile t f).bars = d.bars := rfl
@[simp] theorem Dev.updTile_fns (d : Dev) (t : Nat) (f : TileSt → TileSt) : (d.updTile t f).fns = d.fns := rfl
@[simp] theorem Dev.updTile_accOrder (d : Dev) (t : Nat) (f : TileSt → TileSt) : (d.updTile t f).accOrder = d.accOrder := rfl
@[simp] theorem Dev.updTile_qmr (d : Dev) (t : Nat) (f : TileSt → TileSt) : (d.updTile t f).qmr = d.qmr := rfl
@[simp] theorem Dev.updTile_flt (d : Dev) (t : Nat) (f : TileSt → TileSt) : (d.updTile t f).flt = d.flt := rfl
@[simp] theorem Dev.updTile_hbm (d : Dev) (t : Nat) (f : TileSt → TileSt) : (d.updTile t f).hbm = d.hbm := rfl
@[simp] theorem Dev.updTile_sys (d : Dev) (t : Nat) (f : TileSt → TileSt) : (d.updTile t f).sys = d.sys := rfl
@[simp] theorem Dev.updTile_port_at (d : Dev) (t : Nat) (f : TileSt → TileSt) (q : Nat) : (d.updTile t f).port q = d.port q := rfl
@[simp] theorem Dev.updTile_link_at (d : Dev) (t : Nat) (f : TileSt → TileSt) (q : Nat) : (d.updTile t f).link q = d.link q := rfl
@[simp] theorem Dev.updTile_fibre_at (d : Dev) (t : Nat) (f : TileSt → TileSt) (q : Nat) : (d.updTile t f).fibre q = d.fibre q := rfl
@[simp] theorem Dev.updTile_elsOf_at (d : Dev) (t : Nat) (f : TileSt → TileSt) (q : Nat) : (d.updTile t f).elsOf q = d.elsOf q := rfl
@[simp] theorem Dev.updTile_queue_at (d : Dev) (t : Nat) (f : TileSt → TileSt) (q : Nat) : (d.updTile t f).queue q = d.queue q := rfl
@[simp] theorem Dev.updTile_ctx_at (d : Dev) (t : Nat) (f : TileSt → TileSt) (q : Nat) : (d.updTile t f).ctx q = d.ctx q := rfl
@[simp] theorem Dev.updTile_bar_at (d : Dev) (t : Nat) (f : TileSt → TileSt) (q : Nat) : (d.updTile t f).bar q = d.bar q := rfl
@[simp] theorem Dev.updTile_fn_at (d : Dev) (t : Nat) (f : TileSt → TileSt) (q : Nat) : (d.updTile t f).fn q = d.fn q := rfl
@[simp] theorem Dev.updTile_rawF (d : Dev) (t : Nat) (f : TileSt → TileSt) (r : RegName) (x y z : Nat) :
    (d.updTile t f).rawF r x y z = d.rawF r x y z := rfl
@[simp] theorem Dev.updTile_fdF (d : Dev) (t : Nat) (f : TileSt → TileSt) (g : Fld) (x y z : Nat) :
    (d.updTile t f).fdF g x y z = d.fdF g x y z := rfl
@[simp] theorem Dev.updTile_fd (d : Dev) (t : Nat) (f : TileSt → TileSt) (g : Fld) (x y : Nat) : (d.updTile t f).fd g x y = d.fd g x y := rfl
@[simp] theorem Dev.updTile_bit (d : Dev) (t : Nat) (f : TileSt → TileSt) (g : Fld) (x y : Nat) : (d.updTile t f).bit g x y = d.bit g x y := rfl
theorem Dev.updTile_tile (d : Dev) (t : Nat) (f : TileSt → TileSt) (q : Nat) :
    (d.updTile t f).tile q = if q = t then f (d.tile t) else d.tile q := by
  simp [Dev.updTile, Dev.tile, tblGet_tblPut]
@[simp] theorem Dev.updTile_tile_same (d : Dev) (t : Nat) (f : TileSt → TileSt) : (d.updTile t f).tile t = f (d.tile t) := by
  simp [Dev.updTile_tile]
theorem Dev.updTile_tile_other (d : Dev) (t : Nat) (f : TileSt → TileSt) (q : Nat) (hq : q ≠ t) : (d.updTile t f).tile q = d.tile q := by
  simp [Dev.updTile_tile, hq]

/-! updBar -/

@[simp] theorem Dev.updBar_cycle (d : Dev) (b : Nat) (f : BarSt → BarSt) : (d.updBar b f).cycle = d.cycle := rfl
@[simp] theorem Dev.updBar_freeCount (d : Dev) (b : Nat) (f : BarSt → BarSt) : (d.updBar b f).freeCount = d.freeCount := rfl
@[simp] theorem Dev.updBar_out (d : Dev) (b : Nat) (f : BarSt → BarSt) : (d.updBar b f).out = d.out := rfl
@[simp] theorem Dev.updBar_regs (d : Dev) (b : Nat) (f : BarSt → BarSt) : (d.updBar b f).regs = d.regs := rfl
@[simp] theorem Dev.updBar_hot (d : Dev) (b : Nat) (f : BarSt → BarSt) : (d.updBar b f).hot = d.hot := rfl
@[simp] theorem Dev.updBar_d2d (d : Dev) (b : Nat) (f : BarSt → BarSt) : (d.updBar b f).d2d = d.d2d := rfl
@[simp] theorem Dev.updBar_ports (d : Dev) (b : Nat) (f : BarSt → BarSt) : (d.updBar b f).ports = d.ports := rfl
@[simp] theorem Dev.updBar_fibres (d : Dev) (b : Nat) (f : BarSt → BarSt) : (d.updBar b f).fibres = d.fibres := rfl
@[simp] theorem Dev.updBar_els (d : Dev) (b : Nat) (f : BarSt → BarSt) : (d.updBar b f).els = d.els := rfl
@[simp] theorem Dev.updBar_links (d : Dev) (b : Nat) (f : BarSt → BarSt) : (d.updBar b f).links = d.links := rfl
@[simp] theorem Dev.updBar_core (d : Dev) (b : Nat) (f : BarSt → BarSt) : (d.updBar b f).core = d.core := rfl
@[simp] theorem Dev.updBar_queues (d : Dev) (b : Nat) (f : BarSt → BarSt) : (d.updBar b f).queues = d.queues := rfl
@[simp] theorem Dev.updBar_capt (d : Dev) (b : Nat) (f : BarSt → BarSt) : (d.updBar b f).capt = d.capt := rfl
@[simp] theorem Dev.updBar_ctxs (d : Dev) (b : Nat) (f : BarSt → BarSt) : (d.updBar b f).ctxs = d.ctxs := rfl
@[simp] theorem Dev.updBar_tiles (d : Dev) (b : Nat) (f : BarSt → BarSt) : (d.updBar b f).tiles = d.tiles := rfl
@[simp] theorem Dev.updBar_time (d : Dev) (b : Nat) (f : BarSt → BarSt) : (d.updBar b f).time = d.time := rfl
@[simp] theorem Dev.updBar_fns (d : Dev) (b : Nat) (f : BarSt → BarSt) : (d.updBar b f).fns = d.fns := rfl
@[simp] theorem Dev.updBar_accOrder (d : Dev) (b : Nat) (f : BarSt → BarSt) : (d.updBar b f).accOrder = d.accOrder := rfl
@[simp] theorem Dev.updBar_qmr (d : Dev) (b : Nat) (f : BarSt → BarSt) : (d.updBar b f).qmr = d.qmr := rfl
@[simp] theorem Dev.updBar_flt (d : Dev) (b : Nat) (f : BarSt → BarSt) : (d.updBar b f).flt = d.flt := rfl
@[simp] theorem Dev.updBar_hbm (d : Dev) (b : Nat) (f : BarSt → BarSt) : (d.updBar b f).hbm = d.hbm := rfl
@[simp] theorem Dev.updBar_sys (d : Dev) (b : Nat) (f : BarSt → BarSt) : (d.updBar b f).sys = d.sys := rfl
@[simp] theorem Dev.updBar_port_at (d : Dev) (b : Nat) (f : BarSt → BarSt) (q : Nat) : (d.updBar b f).port q = d.port q := rfl
@[simp] theorem Dev.updBar_link_at (d : Dev) (b : Nat) (f : BarSt → BarSt) (q : Nat) : (d.updBar b f).link q = d.link q := rfl
@[simp] theorem Dev.updBar_fibre_at (d : Dev) (b : Nat) (f : BarSt → BarSt) (q : Nat) : (d.updBar b f).fibre q = d.fibre q := rfl
@[simp] theorem Dev.updBar_elsOf_at (d : Dev) (b : Nat) (f : BarSt → BarSt) (q : Nat) : (d.updBar b f).elsOf q = d.elsOf q := rfl
@[simp] theorem Dev.updBar_queue_at (d : Dev) (b : Nat) (f : BarSt → BarSt) (q : Nat) : (d.updBar b f).queue q = d.queue q := rfl
@[simp] theorem Dev.updBar_ctx_at (d : Dev) (b : Nat) (f : BarSt → BarSt) (q : Nat) : (d.updBar b f).ctx q = d.ctx q := rfl
@[simp] theorem Dev.updBar_tile_at (d : Dev) (b : Nat) (f : BarSt → BarSt) (q : Nat) : (d.updBar b f).tile q = d.tile q := rfl
@[simp] theorem Dev.updBar_fn_at (d : Dev) (b : Nat) (f : BarSt → BarSt) (q : Nat) : (d.updBar b f).fn q = d.fn q := rfl
@[simp] theorem Dev.updBar_rawF (d : Dev) (b : Nat) (f : BarSt → BarSt) (r : RegName) (x y z : Nat) :
    (d.updBar b f).rawF r x y z = d.rawF r x y z := rfl
@[simp] theorem Dev.updBar_fdF (d : Dev) (b : Nat) (f : BarSt → BarSt) (g : Fld) (x y z : Nat) :
    (d.updBar b f).fdF g x y z = d.fdF g x y z := rfl
@[simp] theorem Dev.updBar_fd (d : Dev) (b : Nat) (f : BarSt → BarSt) (g : Fld) (x y : Nat) : (d.updBar b f).fd g x y = d.fd g x y := rfl
@[simp] theorem Dev.updBar_bit (d : Dev) (b : Nat) (f : BarSt → BarSt) (g : Fld) (x y : Nat) : (d.updBar b f).bit g x y = d.bit g x y := rfl
theorem Dev.updBar_bar (d : Dev) (b : Nat) (f : BarSt → BarSt) (q : Nat) :
    (d.updBar b f).bar q = if q = b then f (d.bar b) else d.bar q := by
  simp [Dev.updBar, Dev.bar, tblGet_tblPut]
@[simp] theorem Dev.updBar_bar_same (d : Dev) (b : Nat) (f : BarSt → BarSt) : (d.updBar b f).bar b = f (d.bar b) := by
  simp [Dev.updBar_bar]
theorem Dev.updBar_bar_other (d : Dev) (b : Nat) (f : BarSt → BarSt) (q : Nat) (hq : q ≠ b) : (d.updBar b f).bar q = d.bar q := by
  simp [Dev.updBar_bar, hq]

/-! updFn -/

@[simp] theorem Dev.updFn_cycle (d : Dev) (h : Nat) (f : FnSt → FnSt) : (d.updFn h f).cycle = d.cycle := rfl
@[simp] theorem Dev.updFn_freeCount (d : Dev) (h : Nat) (f : FnSt → FnSt) : (d.updFn h f).freeCount = d.freeCount := rfl
@[simp] theorem Dev.updFn_out (d : Dev) (h : Nat) (f : FnSt → FnSt) : (d.updFn h f).out = d.out := rfl
@[simp] theorem Dev.updFn_regs (d : Dev) (h : Nat) (f : FnSt → FnSt) : (d.updFn h f).regs = d.regs := rfl
@[simp] theorem Dev.updFn_hot (d : Dev) (h : Nat) (f : FnSt → FnSt) : (d.updFn h f).hot = d.hot := rfl
@[simp] theorem Dev.updFn_d2d (d : Dev) (h : Nat) (f : FnSt → FnSt) : (d.updFn h f).d2d = d.d2d := rfl
@[simp] theorem Dev.updFn_ports (d : Dev) (h : Nat) (f : FnSt → FnSt) : (d.updFn h f).ports = d.ports := rfl
@[simp] theorem Dev.updFn_fibres (d : Dev) (h : Nat) (f : FnSt → FnSt) : (d.updFn h f).fibres = d.fibres := rfl
@[simp] theorem Dev.updFn_els (d : Dev) (h : Nat) (f : FnSt → FnSt) : (d.updFn h f).els = d.els := rfl
@[simp] theorem Dev.updFn_links (d : Dev) (h : Nat) (f : FnSt → FnSt) : (d.updFn h f).links = d.links := rfl
@[simp] theorem Dev.updFn_core (d : Dev) (h : Nat) (f : FnSt → FnSt) : (d.updFn h f).core = d.core := rfl
@[simp] theorem Dev.updFn_queues (d : Dev) (h : Nat) (f : FnSt → FnSt) : (d.updFn h f).queues = d.queues := rfl
@[simp] theorem Dev.updFn_capt (d : Dev) (h : Nat) (f : FnSt → FnSt) : (d.updFn h f).capt = d.capt := rfl
@[simp] theorem Dev.updFn_ctxs (d : Dev) (h : Nat) (f : FnSt → FnSt) : (d.updFn h f).ctxs = d.ctxs := rfl
@[simp] theorem Dev.updFn_tiles (d : Dev) (h : Nat) (f : FnSt → FnSt) : (d.updFn h f).tiles = d.tiles := rfl
@[simp] theorem Dev.updFn_time (d : Dev) (h : Nat) (f : FnSt → FnSt) : (d.updFn h f).time = d.time := rfl
@[simp] theorem Dev.updFn_bars (d : Dev) (h : Nat) (f : FnSt → FnSt) : (d.updFn h f).bars = d.bars := rfl
@[simp] theorem Dev.updFn_accOrder (d : Dev) (h : Nat) (f : FnSt → FnSt) : (d.updFn h f).accOrder = d.accOrder := rfl
@[simp] theorem Dev.updFn_qmr (d : Dev) (h : Nat) (f : FnSt → FnSt) : (d.updFn h f).qmr = d.qmr := rfl
@[simp] theorem Dev.updFn_flt (d : Dev) (h : Nat) (f : FnSt → FnSt) : (d.updFn h f).flt = d.flt := rfl
@[simp] theorem Dev.updFn_hbm (d : Dev) (h : Nat) (f : FnSt → FnSt) : (d.updFn h f).hbm = d.hbm := rfl
@[simp] theorem Dev.updFn_sys (d : Dev) (h : Nat) (f : FnSt → FnSt) : (d.updFn h f).sys = d.sys := rfl
@[simp] theorem Dev.updFn_port_at (d : Dev) (h : Nat) (f : FnSt → FnSt) (q : Nat) : (d.updFn h f).port q = d.port q := rfl
@[simp] theorem Dev.updFn_link_at (d : Dev) (h : Nat) (f : FnSt → FnSt) (q : Nat) : (d.updFn h f).link q = d.link q := rfl
@[simp] theorem Dev.updFn_fibre_at (d : Dev) (h : Nat) (f : FnSt → FnSt) (q : Nat) : (d.updFn h f).fibre q = d.fibre q := rfl
@[simp] theorem Dev.updFn_elsOf_at (d : Dev) (h : Nat) (f : FnSt → FnSt) (q : Nat) : (d.updFn h f).elsOf q = d.elsOf q := rfl
@[simp] theorem Dev.updFn_queue_at (d : Dev) (h : Nat) (f : FnSt → FnSt) (q : Nat) : (d.updFn h f).queue q = d.queue q := rfl
@[simp] theorem Dev.updFn_ctx_at (d : Dev) (h : Nat) (f : FnSt → FnSt) (q : Nat) : (d.updFn h f).ctx q = d.ctx q := rfl
@[simp] theorem Dev.updFn_tile_at (d : Dev) (h : Nat) (f : FnSt → FnSt) (q : Nat) : (d.updFn h f).tile q = d.tile q := rfl
@[simp] theorem Dev.updFn_bar_at (d : Dev) (h : Nat) (f : FnSt → FnSt) (q : Nat) : (d.updFn h f).bar q = d.bar q := rfl
@[simp] theorem Dev.updFn_rawF (d : Dev) (h : Nat) (f : FnSt → FnSt) (r : RegName) (x y z : Nat) :
    (d.updFn h f).rawF r x y z = d.rawF r x y z := rfl
@[simp] theorem Dev.updFn_fdF (d : Dev) (h : Nat) (f : FnSt → FnSt) (g : Fld) (x y z : Nat) :
    (d.updFn h f).fdF g x y z = d.fdF g x y z := rfl
@[simp] theorem Dev.updFn_fd (d : Dev) (h : Nat) (f : FnSt → FnSt) (g : Fld) (x y : Nat) : (d.updFn h f).fd g x y = d.fd g x y := rfl
@[simp] theorem Dev.updFn_bit (d : Dev) (h : Nat) (f : FnSt → FnSt) (g : Fld) (x y : Nat) : (d.updFn h f).bit g x y = d.bit g x y := rfl
theorem Dev.updFn_fn (d : Dev) (h : Nat) (f : FnSt → FnSt) (q : Nat) :
    (d.updFn h f).fn q = if q = h then f (d.fn h) else d.fn q := by
  simp [Dev.updFn, Dev.fn, tblGet_tblPut]
@[simp] theorem Dev.updFn_fn_same (d : Dev) (h : Nat) (f : FnSt → FnSt) : (d.updFn h f).fn h = f (d.fn h) := by
  simp [Dev.updFn_fn]
theorem Dev.updFn_fn_other (d : Dev) (h : Nat) (f : FnSt → FnSt) (q : Nat) (hq : q ≠ h) : (d.updFn h f).fn q = d.fn q := by
  simp [Dev.updFn_fn, hq]

/-! updCore -/

@[simp] theorem Dev.updCore_cycle (d : Dev) (f : CoreSt → CoreSt) : (d.updCore f).cycle = d.cycle := rfl
@[simp] theorem Dev.updCore_freeCount (d : Dev) (f : CoreSt → CoreSt) : (d.updCore f).freeCount = d.freeCount := rfl
@[simp] theorem Dev.updCore_out (d : Dev) (f : CoreSt → CoreSt) : (d.updCore f).out = d.out := rfl
@[simp] theorem Dev.updCore_regs (d : Dev) (f : CoreSt → CoreSt) : (d.updCore f).regs = d.regs := rfl
@[simp] theorem Dev.updCore_hot (d : Dev) (f : CoreSt → CoreSt) : (d.updCore f).hot = d.hot := rfl
@[simp] theorem Dev.updCore_d2d (d : Dev) (f : CoreSt → CoreSt) : (d.updCore f).d2d = d.d2d := rfl
@[simp] theorem Dev.updCore_ports (d : Dev) (f : CoreSt → CoreSt) : (d.updCore f).ports = d.ports := rfl
@[simp] theorem Dev.updCore_fibres (d : Dev) (f : CoreSt → CoreSt) : (d.updCore f).fibres = d.fibres := rfl
@[simp] theorem Dev.updCore_els (d : Dev) (f : CoreSt → CoreSt) : (d.updCore f).els = d.els := rfl
@[simp] theorem Dev.updCore_links (d : Dev) (f : CoreSt → CoreSt) : (d.updCore f).links = d.links := rfl
@[simp] theorem Dev.updCore_queues (d : Dev) (f : CoreSt → CoreSt) : (d.updCore f).queues = d.queues := rfl
@[simp] theorem Dev.updCore_capt (d : Dev) (f : CoreSt → CoreSt) : (d.updCore f).capt = d.capt := rfl
@[simp] theorem Dev.updCore_ctxs (d : Dev) (f : CoreSt → CoreSt) : (d.updCore f).ctxs = d.ctxs := rfl
@[simp] theorem Dev.updCore_tiles (d : Dev) (f : CoreSt → CoreSt) : (d.updCore f).tiles = d.tiles := rfl
@[simp] theorem Dev.updCore_time (d : Dev) (f : CoreSt → CoreSt) : (d.updCore f).time = d.time := rfl
@[simp] theorem Dev.updCore_bars (d : Dev) (f : CoreSt → CoreSt) : (d.updCore f).bars = d.bars := rfl
@[simp] theorem Dev.updCore_fns (d : Dev) (f : CoreSt → CoreSt) : (d.updCore f).fns = d.fns := rfl
@[simp] theorem Dev.updCore_accOrder (d : Dev) (f : CoreSt → CoreSt) : (d.updCore f).accOrder = d.accOrder := rfl
@[simp] theorem Dev.updCore_qmr (d : Dev) (f : CoreSt → CoreSt) : (d.updCore f).qmr = d.qmr := rfl
@[simp] theorem Dev.updCore_flt (d : Dev) (f : CoreSt → CoreSt) : (d.updCore f).flt = d.flt := rfl
@[simp] theorem Dev.updCore_hbm (d : Dev) (f : CoreSt → CoreSt) : (d.updCore f).hbm = d.hbm := rfl
@[simp] theorem Dev.updCore_sys (d : Dev) (f : CoreSt → CoreSt) : (d.updCore f).sys = d.sys := rfl
@[simp] theorem Dev.updCore_port_at (d : Dev) (f : CoreSt → CoreSt) (q : Nat) : (d.updCore f).port q = d.port q := rfl
@[simp] theorem Dev.updCore_link_at (d : Dev) (f : CoreSt → CoreSt) (q : Nat) : (d.updCore f).link q = d.link q := rfl
@[simp] theorem Dev.updCore_fibre_at (d : Dev) (f : CoreSt → CoreSt) (q : Nat) : (d.updCore f).fibre q = d.fibre q := rfl
@[simp] theorem Dev.updCore_elsOf_at (d : Dev) (f : CoreSt → CoreSt) (q : Nat) : (d.updCore f).elsOf q = d.elsOf q := rfl
@[simp] theorem Dev.updCore_queue_at (d : Dev) (f : CoreSt → CoreSt) (q : Nat) : (d.updCore f).queue q = d.queue q := rfl
@[simp] theorem Dev.updCore_ctx_at (d : Dev) (f : CoreSt → CoreSt) (q : Nat) : (d.updCore f).ctx q = d.ctx q := rfl
@[simp] theorem Dev.updCore_tile_at (d : Dev) (f : CoreSt → CoreSt) (q : Nat) : (d.updCore f).tile q = d.tile q := rfl
@[simp] theorem Dev.updCore_bar_at (d : Dev) (f : CoreSt → CoreSt) (q : Nat) : (d.updCore f).bar q = d.bar q := rfl
@[simp] theorem Dev.updCore_fn_at (d : Dev) (f : CoreSt → CoreSt) (q : Nat) : (d.updCore f).fn q = d.fn q := rfl
@[simp] theorem Dev.updCore_rawF (d : Dev) (f : CoreSt → CoreSt) (r : RegName) (x y z : Nat) :
    (d.updCore f).rawF r x y z = d.rawF r x y z := rfl
@[simp] theorem Dev.updCore_fdF (d : Dev) (f : CoreSt → CoreSt) (g : Fld) (x y z : Nat) :
    (d.updCore f).fdF g x y z = d.fdF g x y z := rfl
@[simp] theorem Dev.updCore_fd (d : Dev) (f : CoreSt → CoreSt) (g : Fld) (x y : Nat) : (d.updCore f).fd g x y = d.fd g x y := rfl
@[simp] theorem Dev.updCore_bit (d : Dev) (f : CoreSt → CoreSt) (g : Fld) (x y : Nat) : (d.updCore f).bit g x y = d.bit g x y := rfl
@[simp] theorem Dev.updCore_core (d : Dev) (f : CoreSt → CoreSt) : (d.updCore f).core = f d.core := rfl

/-! updCapt -/

@[simp] theorem Dev.updCapt_cycle (d : Dev) (f : CaptSt → CaptSt) : (d.updCapt f).cycle = d.cycle := rfl
@[simp] theorem Dev.updCapt_freeCount (d : Dev) (f : CaptSt → CaptSt) : (d.updCapt f).freeCount = d.freeCount := rfl
@[simp] theorem Dev.updCapt_out (d : Dev) (f : CaptSt → CaptSt) : (d.updCapt f).out = d.out := rfl
@[simp] theorem Dev.updCapt_regs (d : Dev) (f : CaptSt → CaptSt) : (d.updCapt f).regs = d.regs := rfl
@[simp] theorem Dev.updCapt_hot (d : Dev) (f : CaptSt → CaptSt) : (d.updCapt f).hot = d.hot := rfl
@[simp] theorem Dev.updCapt_d2d (d : Dev) (f : CaptSt → CaptSt) : (d.updCapt f).d2d = d.d2d := rfl
@[simp] theorem Dev.updCapt_ports (d : Dev) (f : CaptSt → CaptSt) : (d.updCapt f).ports = d.ports := rfl
@[simp] theorem Dev.updCapt_fibres (d : Dev) (f : CaptSt → CaptSt) : (d.updCapt f).fibres = d.fibres := rfl
@[simp] theorem Dev.updCapt_els (d : Dev) (f : CaptSt → CaptSt) : (d.updCapt f).els = d.els := rfl
@[simp] theorem Dev.updCapt_links (d : Dev) (f : CaptSt → CaptSt) : (d.updCapt f).links = d.links := rfl
@[simp] theorem Dev.updCapt_core (d : Dev) (f : CaptSt → CaptSt) : (d.updCapt f).core = d.core := rfl
@[simp] theorem Dev.updCapt_queues (d : Dev) (f : CaptSt → CaptSt) : (d.updCapt f).queues = d.queues := rfl
@[simp] theorem Dev.updCapt_ctxs (d : Dev) (f : CaptSt → CaptSt) : (d.updCapt f).ctxs = d.ctxs := rfl
@[simp] theorem Dev.updCapt_tiles (d : Dev) (f : CaptSt → CaptSt) : (d.updCapt f).tiles = d.tiles := rfl
@[simp] theorem Dev.updCapt_time (d : Dev) (f : CaptSt → CaptSt) : (d.updCapt f).time = d.time := rfl
@[simp] theorem Dev.updCapt_bars (d : Dev) (f : CaptSt → CaptSt) : (d.updCapt f).bars = d.bars := rfl
@[simp] theorem Dev.updCapt_fns (d : Dev) (f : CaptSt → CaptSt) : (d.updCapt f).fns = d.fns := rfl
@[simp] theorem Dev.updCapt_accOrder (d : Dev) (f : CaptSt → CaptSt) : (d.updCapt f).accOrder = d.accOrder := rfl
@[simp] theorem Dev.updCapt_qmr (d : Dev) (f : CaptSt → CaptSt) : (d.updCapt f).qmr = d.qmr := rfl
@[simp] theorem Dev.updCapt_flt (d : Dev) (f : CaptSt → CaptSt) : (d.updCapt f).flt = d.flt := rfl
@[simp] theorem Dev.updCapt_hbm (d : Dev) (f : CaptSt → CaptSt) : (d.updCapt f).hbm = d.hbm := rfl
@[simp] theorem Dev.updCapt_sys (d : Dev) (f : CaptSt → CaptSt) : (d.updCapt f).sys = d.sys := rfl
@[simp] theorem Dev.updCapt_port_at (d : Dev) (f : CaptSt → CaptSt) (q : Nat) : (d.updCapt f).port q = d.port q := rfl
@[simp] theorem Dev.updCapt_link_at (d : Dev) (f : CaptSt → CaptSt) (q : Nat) : (d.updCapt f).link q = d.link q := rfl
@[simp] theorem Dev.updCapt_fibre_at (d : Dev) (f : CaptSt → CaptSt) (q : Nat) : (d.updCapt f).fibre q = d.fibre q := rfl
@[simp] theorem Dev.updCapt_elsOf_at (d : Dev) (f : CaptSt → CaptSt) (q : Nat) : (d.updCapt f).elsOf q = d.elsOf q := rfl
@[simp] theorem Dev.updCapt_queue_at (d : Dev) (f : CaptSt → CaptSt) (q : Nat) : (d.updCapt f).queue q = d.queue q := rfl
@[simp] theorem Dev.updCapt_ctx_at (d : Dev) (f : CaptSt → CaptSt) (q : Nat) : (d.updCapt f).ctx q = d.ctx q := rfl
@[simp] theorem Dev.updCapt_tile_at (d : Dev) (f : CaptSt → CaptSt) (q : Nat) : (d.updCapt f).tile q = d.tile q := rfl
@[simp] theorem Dev.updCapt_bar_at (d : Dev) (f : CaptSt → CaptSt) (q : Nat) : (d.updCapt f).bar q = d.bar q := rfl
@[simp] theorem Dev.updCapt_fn_at (d : Dev) (f : CaptSt → CaptSt) (q : Nat) : (d.updCapt f).fn q = d.fn q := rfl
@[simp] theorem Dev.updCapt_rawF (d : Dev) (f : CaptSt → CaptSt) (r : RegName) (x y z : Nat) :
    (d.updCapt f).rawF r x y z = d.rawF r x y z := rfl
@[simp] theorem Dev.updCapt_fdF (d : Dev) (f : CaptSt → CaptSt) (g : Fld) (x y z : Nat) :
    (d.updCapt f).fdF g x y z = d.fdF g x y z := rfl
@[simp] theorem Dev.updCapt_fd (d : Dev) (f : CaptSt → CaptSt) (g : Fld) (x y : Nat) : (d.updCapt f).fd g x y = d.fd g x y := rfl
@[simp] theorem Dev.updCapt_bit (d : Dev) (f : CaptSt → CaptSt) (g : Fld) (x y : Nat) : (d.updCapt f).bit g x y = d.bit g x y := rfl
@[simp] theorem Dev.updCapt_capt (d : Dev) (f : CaptSt → CaptSt) : (d.updCapt f).capt = f d.capt := rfl

/-! updSys -/

@[simp] theorem Dev.updSys_cycle (d : Dev) (f : SysSt → SysSt) : (d.updSys f).cycle = d.cycle := rfl
@[simp] theorem Dev.updSys_freeCount (d : Dev) (f : SysSt → SysSt) : (d.updSys f).freeCount = d.freeCount := rfl
@[simp] theorem Dev.updSys_out (d : Dev) (f : SysSt → SysSt) : (d.updSys f).out = d.out := rfl
@[simp] theorem Dev.updSys_regs (d : Dev) (f : SysSt → SysSt) : (d.updSys f).regs = d.regs := rfl
@[simp] theorem Dev.updSys_hot (d : Dev) (f : SysSt → SysSt) : (d.updSys f).hot = d.hot := rfl
@[simp] theorem Dev.updSys_d2d (d : Dev) (f : SysSt → SysSt) : (d.updSys f).d2d = d.d2d := rfl
@[simp] theorem Dev.updSys_ports (d : Dev) (f : SysSt → SysSt) : (d.updSys f).ports = d.ports := rfl
@[simp] theorem Dev.updSys_fibres (d : Dev) (f : SysSt → SysSt) : (d.updSys f).fibres = d.fibres := rfl
@[simp] theorem Dev.updSys_els (d : Dev) (f : SysSt → SysSt) : (d.updSys f).els = d.els := rfl
@[simp] theorem Dev.updSys_links (d : Dev) (f : SysSt → SysSt) : (d.updSys f).links = d.links := rfl
@[simp] theorem Dev.updSys_core (d : Dev) (f : SysSt → SysSt) : (d.updSys f).core = d.core := rfl
@[simp] theorem Dev.updSys_queues (d : Dev) (f : SysSt → SysSt) : (d.updSys f).queues = d.queues := rfl
@[simp] theorem Dev.updSys_capt (d : Dev) (f : SysSt → SysSt) : (d.updSys f).capt = d.capt := rfl
@[simp] theorem Dev.updSys_ctxs (d : Dev) (f : SysSt → SysSt) : (d.updSys f).ctxs = d.ctxs := rfl
@[simp] theorem Dev.updSys_tiles (d : Dev) (f : SysSt → SysSt) : (d.updSys f).tiles = d.tiles := rfl
@[simp] theorem Dev.updSys_time (d : Dev) (f : SysSt → SysSt) : (d.updSys f).time = d.time := rfl
@[simp] theorem Dev.updSys_bars (d : Dev) (f : SysSt → SysSt) : (d.updSys f).bars = d.bars := rfl
@[simp] theorem Dev.updSys_fns (d : Dev) (f : SysSt → SysSt) : (d.updSys f).fns = d.fns := rfl
@[simp] theorem Dev.updSys_accOrder (d : Dev) (f : SysSt → SysSt) : (d.updSys f).accOrder = d.accOrder := rfl
@[simp] theorem Dev.updSys_qmr (d : Dev) (f : SysSt → SysSt) : (d.updSys f).qmr = d.qmr := rfl
@[simp] theorem Dev.updSys_flt (d : Dev) (f : SysSt → SysSt) : (d.updSys f).flt = d.flt := rfl
@[simp] theorem Dev.updSys_hbm (d : Dev) (f : SysSt → SysSt) : (d.updSys f).hbm = d.hbm := rfl
@[simp] theorem Dev.updSys_port_at (d : Dev) (f : SysSt → SysSt) (q : Nat) : (d.updSys f).port q = d.port q := rfl
@[simp] theorem Dev.updSys_link_at (d : Dev) (f : SysSt → SysSt) (q : Nat) : (d.updSys f).link q = d.link q := rfl
@[simp] theorem Dev.updSys_fibre_at (d : Dev) (f : SysSt → SysSt) (q : Nat) : (d.updSys f).fibre q = d.fibre q := rfl
@[simp] theorem Dev.updSys_elsOf_at (d : Dev) (f : SysSt → SysSt) (q : Nat) : (d.updSys f).elsOf q = d.elsOf q := rfl
@[simp] theorem Dev.updSys_queue_at (d : Dev) (f : SysSt → SysSt) (q : Nat) : (d.updSys f).queue q = d.queue q := rfl
@[simp] theorem Dev.updSys_ctx_at (d : Dev) (f : SysSt → SysSt) (q : Nat) : (d.updSys f).ctx q = d.ctx q := rfl
@[simp] theorem Dev.updSys_tile_at (d : Dev) (f : SysSt → SysSt) (q : Nat) : (d.updSys f).tile q = d.tile q := rfl
@[simp] theorem Dev.updSys_bar_at (d : Dev) (f : SysSt → SysSt) (q : Nat) : (d.updSys f).bar q = d.bar q := rfl
@[simp] theorem Dev.updSys_fn_at (d : Dev) (f : SysSt → SysSt) (q : Nat) : (d.updSys f).fn q = d.fn q := rfl
@[simp] theorem Dev.updSys_rawF (d : Dev) (f : SysSt → SysSt) (r : RegName) (x y z : Nat) :
    (d.updSys f).rawF r x y z = d.rawF r x y z := rfl
@[simp] theorem Dev.updSys_fdF (d : Dev) (f : SysSt → SysSt) (g : Fld) (x y z : Nat) :
    (d.updSys f).fdF g x y z = d.fdF g x y z := rfl
@[simp] theorem Dev.updSys_fd (d : Dev) (f : SysSt → SysSt) (g : Fld) (x y : Nat) : (d.updSys f).fd g x y = d.fd g x y := rfl
@[simp] theorem Dev.updSys_bit (d : Dev) (f : SysSt → SysSt) (g : Fld) (x y : Nat) : (d.updSys f).bit g x y = d.bit g x y := rfl
@[simp] theorem Dev.updSys_sys (d : Dev) (f : SysSt → SysSt) : (d.updSys f).sys = f d.sys := rfl

/-! setRawF -/

@[simp] theorem Dev.setRawF_cycle (d : Dev) (r : RegName) (a b c v : Nat) : (d.setRawF r a b c v).cycle = d.cycle := rfl
@[simp] theorem Dev.setRawF_freeCount (d : Dev) (r : RegName) (a b c v : Nat) : (d.setRawF r a b c v).freeCount = d.freeCount := rfl
@[simp] theorem Dev.setRawF_out (d : Dev) (r : RegName) (a b c v : Nat) : (d.setRawF r a b c v).out = d.out := rfl
@[simp] theorem Dev.setRawF_hot (d : Dev) (r : RegName) (a b c v : Nat) : (d.setRawF r a b c v).hot = d.hot := rfl
@[simp] theorem Dev.setRawF_d2d (d : Dev) (r : RegName) (a b c v : Nat) : (d.setRawF r a b c v).d2d = d.d2d := rfl
@[simp] theorem Dev.setRawF_ports (d : Dev) (r : RegName) (a b c v : Nat) : (d.setRawF r a b c v).ports = d.ports := rfl
@[simp] theorem Dev.setRawF_fibres (d : Dev) (r : RegName) (a b c v : Nat) : (d.setRawF r a b c v).fibres = d.fibres := rfl
@[simp] theorem Dev.setRawF_els (d : Dev) (r : RegName) (a b c v : Nat) : (d.setRawF r a b c v).els = d.els := rfl
@[simp] theorem Dev.setRawF_links (d : Dev) (r : RegName) (a b c v : Nat) : (d.setRawF r a b c v).links = d.links := rfl
@[simp] theorem Dev.setRawF_core (d : Dev) (r : RegName) (a b c v : Nat) : (d.setRawF r a b c v).core = d.core := rfl
@[simp] theorem Dev.setRawF_queues (d : Dev) (r : RegName) (a b c v : Nat) : (d.setRawF r a b c v).queues = d.queues := rfl
@[simp] theorem Dev.setRawF_capt (d : Dev) (r : RegName) (a b c v : Nat) : (d.setRawF r a b c v).capt = d.capt := rfl
@[simp] theorem Dev.setRawF_ctxs (d : Dev) (r : RegName) (a b c v : Nat) : (d.setRawF r a b c v).ctxs = d.ctxs := rfl
@[simp] theorem Dev.setRawF_tiles (d : Dev) (r : RegName) (a b c v : Nat) : (d.setRawF r a b c v).tiles = d.tiles := rfl
@[simp] theorem Dev.setRawF_time (d : Dev) (r : RegName) (a b c v : Nat) : (d.setRawF r a b c v).time = d.time := rfl
@[simp] theorem Dev.setRawF_bars (d : Dev) (r : RegName) (a b c v : Nat) : (d.setRawF r a b c v).bars = d.bars := rfl
@[simp] theorem Dev.setRawF_fns (d : Dev) (r : RegName) (a b c v : Nat) : (d.setRawF r a b c v).fns = d.fns := rfl
@[simp] theorem Dev.setRawF_accOrder (d : Dev) (r : RegName) (a b c v : Nat) : (d.setRawF r a b c v).accOrder = d.accOrder := rfl
@[simp] theorem Dev.setRawF_qmr (d : Dev) (r : RegName) (a b c v : Nat) : (d.setRawF r a b c v).qmr = d.qmr := rfl
@[simp] theorem Dev.setRawF_flt (d : Dev) (r : RegName) (a b c v : Nat) : (d.setRawF r a b c v).flt = d.flt := rfl
@[simp] theorem Dev.setRawF_hbm (d : Dev) (r : RegName) (a b c v : Nat) : (d.setRawF r a b c v).hbm = d.hbm := rfl
@[simp] theorem Dev.setRawF_sys (d : Dev) (r : RegName) (a b c v : Nat) : (d.setRawF r a b c v).sys = d.sys := rfl
@[simp] theorem Dev.setRawF_port_at (d : Dev) (r : RegName) (a b c v : Nat) (q : Nat) : (d.setRawF r a b c v).port q = d.port q := rfl
@[simp] theorem Dev.setRawF_link_at (d : Dev) (r : RegName) (a b c v : Nat) (q : Nat) : (d.setRawF r a b c v).link q = d.link q := rfl
@[simp] theorem Dev.setRawF_fibre_at (d : Dev) (r : RegName) (a b c v : Nat) (q : Nat) : (d.setRawF r a b c v).fibre q = d.fibre q := rfl
@[simp] theorem Dev.setRawF_elsOf_at (d : Dev) (r : RegName) (a b c v : Nat) (q : Nat) : (d.setRawF r a b c v).elsOf q = d.elsOf q := rfl
@[simp] theorem Dev.setRawF_queue_at (d : Dev) (r : RegName) (a b c v : Nat) (q : Nat) : (d.setRawF r a b c v).queue q = d.queue q := rfl
@[simp] theorem Dev.setRawF_ctx_at (d : Dev) (r : RegName) (a b c v : Nat) (q : Nat) : (d.setRawF r a b c v).ctx q = d.ctx q := rfl
@[simp] theorem Dev.setRawF_tile_at (d : Dev) (r : RegName) (a b c v : Nat) (q : Nat) : (d.setRawF r a b c v).tile q = d.tile q := rfl
@[simp] theorem Dev.setRawF_bar_at (d : Dev) (r : RegName) (a b c v : Nat) (q : Nat) : (d.setRawF r a b c v).bar q = d.bar q := rfl
@[simp] theorem Dev.setRawF_fn_at (d : Dev) (r : RegName) (a b c v : Nat) (q : Nat) : (d.setRawF r a b c v).fn q = d.fn q := rfl

/-! fdSetF -/

@[simp] theorem Dev.fdSetF_cycle (d : Dev) (g : Fld) (a b c v : Nat) : (d.fdSetF g a b c v).cycle = d.cycle := rfl
@[simp] theorem Dev.fdSetF_freeCount (d : Dev) (g : Fld) (a b c v : Nat) : (d.fdSetF g a b c v).freeCount = d.freeCount := rfl
@[simp] theorem Dev.fdSetF_out (d : Dev) (g : Fld) (a b c v : Nat) : (d.fdSetF g a b c v).out = d.out := rfl
@[simp] theorem Dev.fdSetF_hot (d : Dev) (g : Fld) (a b c v : Nat) : (d.fdSetF g a b c v).hot = d.hot := rfl
@[simp] theorem Dev.fdSetF_d2d (d : Dev) (g : Fld) (a b c v : Nat) : (d.fdSetF g a b c v).d2d = d.d2d := rfl
@[simp] theorem Dev.fdSetF_ports (d : Dev) (g : Fld) (a b c v : Nat) : (d.fdSetF g a b c v).ports = d.ports := rfl
@[simp] theorem Dev.fdSetF_fibres (d : Dev) (g : Fld) (a b c v : Nat) : (d.fdSetF g a b c v).fibres = d.fibres := rfl
@[simp] theorem Dev.fdSetF_els (d : Dev) (g : Fld) (a b c v : Nat) : (d.fdSetF g a b c v).els = d.els := rfl
@[simp] theorem Dev.fdSetF_links (d : Dev) (g : Fld) (a b c v : Nat) : (d.fdSetF g a b c v).links = d.links := rfl
@[simp] theorem Dev.fdSetF_core (d : Dev) (g : Fld) (a b c v : Nat) : (d.fdSetF g a b c v).core = d.core := rfl
@[simp] theorem Dev.fdSetF_queues (d : Dev) (g : Fld) (a b c v : Nat) : (d.fdSetF g a b c v).queues = d.queues := rfl
@[simp] theorem Dev.fdSetF_capt (d : Dev) (g : Fld) (a b c v : Nat) : (d.fdSetF g a b c v).capt = d.capt := rfl
@[simp] theorem Dev.fdSetF_ctxs (d : Dev) (g : Fld) (a b c v : Nat) : (d.fdSetF g a b c v).ctxs = d.ctxs := rfl
@[simp] theorem Dev.fdSetF_tiles (d : Dev) (g : Fld) (a b c v : Nat) : (d.fdSetF g a b c v).tiles = d.tiles := rfl
@[simp] theorem Dev.fdSetF_time (d : Dev) (g : Fld) (a b c v : Nat) : (d.fdSetF g a b c v).time = d.time := rfl
@[simp] theorem Dev.fdSetF_bars (d : Dev) (g : Fld) (a b c v : Nat) : (d.fdSetF g a b c v).bars = d.bars := rfl
@[simp] theorem Dev.fdSetF_fns (d : Dev) (g : Fld) (a b c v : Nat) : (d.fdSetF g a b c v).fns = d.fns := rfl
@[simp] theorem Dev.fdSetF_accOrder (d : Dev) (g : Fld) (a b c v : Nat) : (d.fdSetF g a b c v).accOrder = d.accOrder := rfl
@[simp] theorem Dev.fdSetF_qmr (d : Dev) (g : Fld) (a b c v : Nat) : (d.fdSetF g a b c v).qmr = d.qmr := rfl
@[simp] theorem Dev.fdSetF_flt (d : Dev) (g : Fld) (a b c v : Nat) : (d.fdSetF g a b c v).flt = d.flt := rfl
@[simp] theorem Dev.fdSetF_hbm (d : Dev) (g : Fld) (a b c v : Nat) : (d.fdSetF g a b c v).hbm = d.hbm := rfl
@[simp] theorem Dev.fdSetF_sys (d : Dev) (g : Fld) (a b c v : Nat) : (d.fdSetF g a b c v).sys = d.sys := rfl
@[simp] theorem Dev.fdSetF_port_at (d : Dev) (g : Fld) (a b c v : Nat) (q : Nat) : (d.fdSetF g a b c v).port q = d.port q := rfl
@[simp] theorem Dev.fdSetF_link_at (d : Dev) (g : Fld) (a b c v : Nat) (q : Nat) : (d.fdSetF g a b c v).link q = d.link q := rfl
@[simp] theorem Dev.fdSetF_fibre_at (d : Dev) (g : Fld) (a b c v : Nat) (q : Nat) : (d.fdSetF g a b c v).fibre q = d.fibre q := rfl
@[simp] theorem Dev.fdSetF_elsOf_at (d : Dev) (g : Fld) (a b c v : Nat) (q : Nat) : (d.fdSetF g a b c v).elsOf q = d.elsOf q := rfl
@[simp] theorem Dev.fdSetF_queue_at (d : Dev) (g : Fld) (a b c v : Nat) (q : Nat) : (d.fdSetF g a b c v).queue q = d.queue q := rfl
@[simp] theorem Dev.fdSetF_ctx_at (d : Dev) (g : Fld) (a b c v : Nat) (q : Nat) : (d.fdSetF g a b c v).ctx q = d.ctx q := rfl
@[simp] theorem Dev.fdSetF_tile_at (d : Dev) (g : Fld) (a b c v : Nat) (q : Nat) : (d.fdSetF g a b c v).tile q = d.tile q := rfl
@[simp] theorem Dev.fdSetF_bar_at (d : Dev) (g : Fld) (a b c v : Nat) (q : Nat) : (d.fdSetF g a b c v).bar q = d.bar q := rfl
@[simp] theorem Dev.fdSetF_fn_at (d : Dev) (g : Fld) (a b c v : Nat) (q : Nat) : (d.fdSetF g a b c v).fn q = d.fn q := rfl

/-! fdSet -/

@[simp] theorem Dev.fdSet_cycle (d : Dev) (g : Fld) (a b v : Nat) : (d.fdSet g a b v).cycle = d.cycle := rfl
@[simp] theorem Dev.fdSet_freeCount (d : Dev) (g : Fld) (a b v : Nat) : (d.fdSet g a b v).freeCount = d.freeCount := rfl
@[simp] theorem Dev.fdSet_out (d : Dev) (g : Fld) (a b v : Nat) : (d.fdSet g a b v).out = d.out := rfl
@[simp] theorem Dev.fdSet_hot (d : Dev) (g : Fld) (a b v : Nat) : (d.fdSet g a b v).hot = d.hot := rfl
@[simp] theorem Dev.fdSet_d2d (d : Dev) (g : Fld) (a b v : Nat) : (d.fdSet g a b v).d2d = d.d2d := rfl
@[simp] theorem Dev.fdSet_ports (d : Dev) (g : Fld) (a b v : Nat) : (d.fdSet g a b v).ports = d.ports := rfl
@[simp] theorem Dev.fdSet_fibres (d : Dev) (g : Fld) (a b v : Nat) : (d.fdSet g a b v).fibres = d.fibres := rfl
@[simp] theorem Dev.fdSet_els (d : Dev) (g : Fld) (a b v : Nat) : (d.fdSet g a b v).els = d.els := rfl
@[simp] theorem Dev.fdSet_links (d : Dev) (g : Fld) (a b v : Nat) : (d.fdSet g a b v).links = d.links := rfl
@[simp] theorem Dev.fdSet_core (d : Dev) (g : Fld) (a b v : Nat) : (d.fdSet g a b v).core = d.core := rfl
@[simp] theorem Dev.fdSet_queues (d : Dev) (g : Fld) (a b v : Nat) : (d.fdSet g a b v).queues = d.queues := rfl
@[simp] theorem Dev.fdSet_capt (d : Dev) (g : Fld) (a b v : Nat) : (d.fdSet g a b v).capt = d.capt := rfl
@[simp] theorem Dev.fdSet_ctxs (d : Dev) (g : Fld) (a b v : Nat) : (d.fdSet g a b v).ctxs = d.ctxs := rfl
@[simp] theorem Dev.fdSet_tiles (d : Dev) (g : Fld) (a b v : Nat) : (d.fdSet g a b v).tiles = d.tiles := rfl
@[simp] theorem Dev.fdSet_time (d : Dev) (g : Fld) (a b v : Nat) : (d.fdSet g a b v).time = d.time := rfl
@[simp] theorem Dev.fdSet_bars (d : Dev) (g : Fld) (a b v : Nat) : (d.fdSet g a b v).bars = d.bars := rfl
@[simp] theorem Dev.fdSet_fns (d : Dev) (g : Fld) (a b v : Nat) : (d.fdSet g a b v).fns = d.fns := rfl
@[simp] theorem Dev.fdSet_accOrder (d : Dev) (g : Fld) (a b v : Nat) : (d.fdSet g a b v).accOrder = d.accOrder := rfl
@[simp] theorem Dev.fdSet_qmr (d : Dev) (g : Fld) (a b v : Nat) : (d.fdSet g a b v).qmr = d.qmr := rfl
@[simp] theorem Dev.fdSet_flt (d : Dev) (g : Fld) (a b v : Nat) : (d.fdSet g a b v).flt = d.flt := rfl
@[simp] theorem Dev.fdSet_hbm (d : Dev) (g : Fld) (a b v : Nat) : (d.fdSet g a b v).hbm = d.hbm := rfl
@[simp] theorem Dev.fdSet_sys (d : Dev) (g : Fld) (a b v : Nat) : (d.fdSet g a b v).sys = d.sys := rfl
@[simp] theorem Dev.fdSet_port_at (d : Dev) (g : Fld) (a b v : Nat) (q : Nat) : (d.fdSet g a b v).port q = d.port q := rfl
@[simp] theorem Dev.fdSet_link_at (d : Dev) (g : Fld) (a b v : Nat) (q : Nat) : (d.fdSet g a b v).link q = d.link q := rfl
@[simp] theorem Dev.fdSet_fibre_at (d : Dev) (g : Fld) (a b v : Nat) (q : Nat) : (d.fdSet g a b v).fibre q = d.fibre q := rfl
@[simp] theorem Dev.fdSet_elsOf_at (d : Dev) (g : Fld) (a b v : Nat) (q : Nat) : (d.fdSet g a b v).elsOf q = d.elsOf q := rfl
@[simp] theorem Dev.fdSet_queue_at (d : Dev) (g : Fld) (a b v : Nat) (q : Nat) : (d.fdSet g a b v).queue q = d.queue q := rfl
@[simp] theorem Dev.fdSet_ctx_at (d : Dev) (g : Fld) (a b v : Nat) (q : Nat) : (d.fdSet g a b v).ctx q = d.ctx q := rfl
@[simp] theorem Dev.fdSet_tile_at (d : Dev) (g : Fld) (a b v : Nat) (q : Nat) : (d.fdSet g a b v).tile q = d.tile q := rfl
@[simp] theorem Dev.fdSet_bar_at (d : Dev) (g : Fld) (a b v : Nat) (q : Nat) : (d.fdSet g a b v).bar q = d.bar q := rfl
@[simp] theorem Dev.fdSet_fn_at (d : Dev) (g : Fld) (a b v : Nat) (q : Nat) : (d.fdSet g a b v).fn q = d.fn q := rfl

/-! countN -/

@[simp] theorem Dev.countN_cycle (d : Dev) (r : RegName) (a b n : Nat) : (d.countN r a b n).cycle = d.cycle := rfl
@[simp] theorem Dev.countN_freeCount (d : Dev) (r : RegName) (a b n : Nat) : (d.countN r a b n).freeCount = d.freeCount := rfl
@[simp] theorem Dev.countN_out (d : Dev) (r : RegName) (a b n : Nat) : (d.countN r a b n).out = d.out := rfl
@[simp] theorem Dev.countN_d2d (d : Dev) (r : RegName) (a b n : Nat) : (d.countN r a b n).d2d = d.d2d := rfl
@[simp] theorem Dev.countN_ports (d : Dev) (r : RegName) (a b n : Nat) : (d.countN r a b n).ports = d.ports := rfl
@[simp] theorem Dev.countN_fibres (d : Dev) (r : RegName) (a b n : Nat) : (d.countN r a b n).fibres = d.fibres := rfl
@[simp] theorem Dev.countN_els (d : Dev) (r : RegName) (a b n : Nat) : (d.countN r a b n).els = d.els := rfl
@[simp] theorem Dev.countN_links (d : Dev) (r : RegName) (a b n : Nat) : (d.countN r a b n).links = d.links := rfl
@[simp] theorem Dev.countN_core (d : Dev) (r : RegName) (a b n : Nat) : (d.countN r a b n).core = d.core := rfl
@[simp] theorem Dev.countN_queues (d : Dev) (r : RegName) (a b n : Nat) : (d.countN r a b n).queues = d.queues := rfl
@[simp] theorem Dev.countN_capt (d : Dev) (r : RegName) (a b n : Nat) : (d.countN r a b n).capt = d.capt := rfl
@[simp] theorem Dev.countN_ctxs (d : Dev) (r : RegName) (a b n : Nat) : (d.countN r a b n).ctxs = d.ctxs := rfl
@[simp] theorem Dev.countN_tiles (d : Dev) (r : RegName) (a b n : Nat) : (d.countN r a b n).tiles = d.tiles := rfl
@[simp] theorem Dev.countN_time (d : Dev) (r : RegName) (a b n : Nat) : (d.countN r a b n).time = d.time := rfl
@[simp] theorem Dev.countN_bars (d : Dev) (r : RegName) (a b n : Nat) : (d.countN r a b n).bars = d.bars := rfl
@[simp] theorem Dev.countN_fns (d : Dev) (r : RegName) (a b n : Nat) : (d.countN r a b n).fns = d.fns := rfl
@[simp] theorem Dev.countN_accOrder (d : Dev) (r : RegName) (a b n : Nat) : (d.countN r a b n).accOrder = d.accOrder := rfl
@[simp] theorem Dev.countN_qmr (d : Dev) (r : RegName) (a b n : Nat) : (d.countN r a b n).qmr = d.qmr := rfl
@[simp] theorem Dev.countN_flt (d : Dev) (r : RegName) (a b n : Nat) : (d.countN r a b n).flt = d.flt := rfl
@[simp] theorem Dev.countN_hbm (d : Dev) (r : RegName) (a b n : Nat) : (d.countN r a b n).hbm = d.hbm := rfl
@[simp] theorem Dev.countN_sys (d : Dev) (r : RegName) (a b n : Nat) : (d.countN r a b n).sys = d.sys := rfl
@[simp] theorem Dev.countN_port_at (d : Dev) (r : RegName) (a b n : Nat) (q : Nat) : (d.countN r a b n).port q = d.port q := rfl
@[simp] theorem Dev.countN_link_at (d : Dev) (r : RegName) (a b n : Nat) (q : Nat) : (d.countN r a b n).link q = d.link q := rfl
@[simp] theorem Dev.countN_fibre_at (d : Dev) (r : RegName) (a b n : Nat) (q : Nat) : (d.countN r a b n).fibre q = d.fibre q := rfl
@[simp] theorem Dev.countN_elsOf_at (d : Dev) (r : RegName) (a b n : Nat) (q : Nat) : (d.countN r a b n).elsOf q = d.elsOf q := rfl
@[simp] theorem Dev.countN_queue_at (d : Dev) (r : RegName) (a b n : Nat) (q : Nat) : (d.countN r a b n).queue q = d.queue q := rfl
@[simp] theorem Dev.countN_ctx_at (d : Dev) (r : RegName) (a b n : Nat) (q : Nat) : (d.countN r a b n).ctx q = d.ctx q := rfl
@[simp] theorem Dev.countN_tile_at (d : Dev) (r : RegName) (a b n : Nat) (q : Nat) : (d.countN r a b n).tile q = d.tile q := rfl
@[simp] theorem Dev.countN_bar_at (d : Dev) (r : RegName) (a b n : Nat) (q : Nat) : (d.countN r a b n).bar q = d.bar q := rfl
@[simp] theorem Dev.countN_fn_at (d : Dev) (r : RegName) (a b n : Nat) (q : Nat) : (d.countN r a b n).fn q = d.fn q := rfl

/-! count -/

@[simp] theorem Dev.count_cycle (d : Dev) (r : RegName) (a b : Nat) : (d.count r a b).cycle = d.cycle := rfl
@[simp] theorem Dev.count_freeCount (d : Dev) (r : RegName) (a b : Nat) : (d.count r a b).freeCount = d.freeCount := rfl
@[simp] theorem Dev.count_out (d : Dev) (r : RegName) (a b : Nat) : (d.count r a b).out = d.out := rfl
@[simp] theorem Dev.count_d2d (d : Dev) (r : RegName) (a b : Nat) : (d.count r a b).d2d = d.d2d := rfl
@[simp] theorem Dev.count_ports (d : Dev) (r : RegName) (a b : Nat) : (d.count r a b).ports = d.ports := rfl
@[simp] theorem Dev.count_fibres (d : Dev) (r : RegName) (a b : Nat) : (d.count r a b).fibres = d.fibres := rfl
@[simp] theorem Dev.count_els (d : Dev) (r : RegName) (a b : Nat) : (d.count r a b).els = d.els := rfl
@[simp] theorem Dev.count_links (d : Dev) (r : RegName) (a b : Nat) : (d.count r a b).links = d.links := rfl
@[simp] theorem Dev.count_core (d : Dev) (r : RegName) (a b : Nat) : (d.count r a b).core = d.core := rfl
@[simp] theorem Dev.count_queues (d : Dev) (r : RegName) (a b : Nat) : (d.count r a b).queues = d.queues := rfl
@[simp] theorem Dev.count_capt (d : Dev) (r : RegName) (a b : Nat) : (d.count r a b).capt = d.capt := rfl
@[simp] theorem Dev.count_ctxs (d : Dev) (r : RegName) (a b : Nat) : (d.count r a b).ctxs = d.ctxs := rfl
@[simp] theorem Dev.count_tiles (d : Dev) (r : RegName) (a b : Nat) : (d.count r a b).tiles = d.tiles := rfl
@[simp] theorem Dev.count_time (d : Dev) (r : RegName) (a b : Nat) : (d.count r a b).time = d.time := rfl
@[simp] theorem Dev.count_bars (d : Dev) (r : RegName) (a b : Nat) : (d.count r a b).bars = d.bars := rfl
@[simp] theorem Dev.count_fns (d : Dev) (r : RegName) (a b : Nat) : (d.count r a b).fns = d.fns := rfl
@[simp] theorem Dev.count_accOrder (d : Dev) (r : RegName) (a b : Nat) : (d.count r a b).accOrder = d.accOrder := rfl
@[simp] theorem Dev.count_qmr (d : Dev) (r : RegName) (a b : Nat) : (d.count r a b).qmr = d.qmr := rfl
@[simp] theorem Dev.count_flt (d : Dev) (r : RegName) (a b : Nat) : (d.count r a b).flt = d.flt := rfl
@[simp] theorem Dev.count_hbm (d : Dev) (r : RegName) (a b : Nat) : (d.count r a b).hbm = d.hbm := rfl
@[simp] theorem Dev.count_sys (d : Dev) (r : RegName) (a b : Nat) : (d.count r a b).sys = d.sys := rfl
@[simp] theorem Dev.count_port_at (d : Dev) (r : RegName) (a b : Nat) (q : Nat) : (d.count r a b).port q = d.port q := rfl
@[simp] theorem Dev.count_link_at (d : Dev) (r : RegName) (a b : Nat) (q : Nat) : (d.count r a b).link q = d.link q := rfl
@[simp] theorem Dev.count_fibre_at (d : Dev) (r : RegName) (a b : Nat) (q : Nat) : (d.count r a b).fibre q = d.fibre q := rfl
@[simp] theorem Dev.count_elsOf_at (d : Dev) (r : RegName) (a b : Nat) (q : Nat) : (d.count r a b).elsOf q = d.elsOf q := rfl
@[simp] theorem Dev.count_queue_at (d : Dev) (r : RegName) (a b : Nat) (q : Nat) : (d.count r a b).queue q = d.queue q := rfl
@[simp] theorem Dev.count_ctx_at (d : Dev) (r : RegName) (a b : Nat) (q : Nat) : (d.count r a b).ctx q = d.ctx q := rfl
@[simp] theorem Dev.count_tile_at (d : Dev) (r : RegName) (a b : Nat) (q : Nat) : (d.count r a b).tile q = d.tile q := rfl
@[simp] theorem Dev.count_bar_at (d : Dev) (r : RegName) (a b : Nat) (q : Nat) : (d.count r a b).bar q = d.bar q := rfl
@[simp] theorem Dev.count_fn_at (d : Dev) (r : RegName) (a b : Nat) (q : Nat) : (d.count r a b).fn q = d.fn q := rfl

/-! countF -/

@[simp] theorem Dev.countF_cycle (d : Dev) (r : RegName) (a b : Nat) : (d.countF r a b).cycle = d.cycle := rfl
@[simp] theorem Dev.countF_freeCount (d : Dev) (r : RegName) (a b : Nat) : (d.countF r a b).freeCount = d.freeCount := rfl
@[simp] theorem Dev.countF_out (d : Dev) (r : RegName) (a b : Nat) : (d.countF r a b).out = d.out := rfl
@[simp] theorem Dev.countF_d2d (d : Dev) (r : RegName) (a b : Nat) : (d.countF r a b).d2d = d.d2d := rfl
@[simp] theorem Dev.countF_ports (d : Dev) (r : RegName) (a b : Nat) : (d.countF r a b).ports = d.ports := rfl
@[simp] theorem Dev.countF_fibres (d : Dev) (r : RegName) (a b : Nat) : (d.countF r a b).fibres = d.fibres := rfl
@[simp] theorem Dev.countF_els (d : Dev) (r : RegName) (a b : Nat) : (d.countF r a b).els = d.els := rfl
@[simp] theorem Dev.countF_links (d : Dev) (r : RegName) (a b : Nat) : (d.countF r a b).links = d.links := rfl
@[simp] theorem Dev.countF_core (d : Dev) (r : RegName) (a b : Nat) : (d.countF r a b).core = d.core := rfl
@[simp] theorem Dev.countF_queues (d : Dev) (r : RegName) (a b : Nat) : (d.countF r a b).queues = d.queues := rfl
@[simp] theorem Dev.countF_capt (d : Dev) (r : RegName) (a b : Nat) : (d.countF r a b).capt = d.capt := rfl
@[simp] theorem Dev.countF_ctxs (d : Dev) (r : RegName) (a b : Nat) : (d.countF r a b).ctxs = d.ctxs := rfl
@[simp] theorem Dev.countF_tiles (d : Dev) (r : RegName) (a b : Nat) : (d.countF r a b).tiles = d.tiles := rfl
@[simp] theorem Dev.countF_time (d : Dev) (r : RegName) (a b : Nat) : (d.countF r a b).time = d.time := rfl
@[simp] theorem Dev.countF_bars (d : Dev) (r : RegName) (a b : Nat) : (d.countF r a b).bars = d.bars := rfl
@[simp] theorem Dev.countF_fns (d : Dev) (r : RegName) (a b : Nat) : (d.countF r a b).fns = d.fns := rfl
@[simp] theorem Dev.countF_accOrder (d : Dev) (r : RegName) (a b : Nat) : (d.countF r a b).accOrder = d.accOrder := rfl
@[simp] theorem Dev.countF_qmr (d : Dev) (r : RegName) (a b : Nat) : (d.countF r a b).qmr = d.qmr := rfl
@[simp] theorem Dev.countF_flt (d : Dev) (r : RegName) (a b : Nat) : (d.countF r a b).flt = d.flt := rfl
@[simp] theorem Dev.countF_hbm (d : Dev) (r : RegName) (a b : Nat) : (d.countF r a b).hbm = d.hbm := rfl
@[simp] theorem Dev.countF_sys (d : Dev) (r : RegName) (a b : Nat) : (d.countF r a b).sys = d.sys := rfl
@[simp] theorem Dev.countF_port_at (d : Dev) (r : RegName) (a b : Nat) (q : Nat) : (d.countF r a b).port q = d.port q := rfl
@[simp] theorem Dev.countF_link_at (d : Dev) (r : RegName) (a b : Nat) (q : Nat) : (d.countF r a b).link q = d.link q := rfl
@[simp] theorem Dev.countF_fibre_at (d : Dev) (r : RegName) (a b : Nat) (q : Nat) : (d.countF r a b).fibre q = d.fibre q := rfl
@[simp] theorem Dev.countF_elsOf_at (d : Dev) (r : RegName) (a b : Nat) (q : Nat) : (d.countF r a b).elsOf q = d.elsOf q := rfl
@[simp] theorem Dev.countF_queue_at (d : Dev) (r : RegName) (a b : Nat) (q : Nat) : (d.countF r a b).queue q = d.queue q := rfl
@[simp] theorem Dev.countF_ctx_at (d : Dev) (r : RegName) (a b : Nat) (q : Nat) : (d.countF r a b).ctx q = d.ctx q := rfl
@[simp] theorem Dev.countF_tile_at (d : Dev) (r : RegName) (a b : Nat) (q : Nat) : (d.countF r a b).tile q = d.tile q := rfl
@[simp] theorem Dev.countF_bar_at (d : Dev) (r : RegName) (a b : Nat) (q : Nat) : (d.countF r a b).bar q = d.bar q := rfl
@[simp] theorem Dev.countF_fn_at (d : Dev) (r : RegName) (a b : Nat) (q : Nat) : (d.countF r a b).fn q = d.fn q := rfl

/-! countFN -/

@[simp] theorem Dev.countFN_cycle (d : Dev) (r : RegName) (a b c n : Nat) : (d.countFN r a b c n).cycle = d.cycle := rfl
@[simp] theorem Dev.countFN_freeCount (d : Dev) (r : RegName) (a b c n : Nat) : (d.countFN r a b c n).freeCount = d.freeCount := rfl
@[simp] theorem Dev.countFN_out (d : Dev) (r : RegName) (a b c n : Nat) : (d.countFN r a b c n).out = d.out := rfl
@[simp] theorem Dev.countFN_d2d (d : Dev) (r : RegName) (a b c n : Nat) : (d.countFN r a b c n).d2d = d.d2d := rfl
@[simp] theorem Dev.countFN_ports (d : Dev) (r : RegName) (a b c n : Nat) : (d.countFN r a b c n).ports = d.ports := rfl
@[simp] theorem Dev.countFN_fibres (d : Dev) (r : RegName) (a b c n : Nat) : (d.countFN r a b c n).fibres = d.fibres := rfl
@[simp] theorem Dev.countFN_els (d : Dev) (r : RegName) (a b c n : Nat) : (d.countFN r a b c n).els = d.els := rfl
@[simp] theorem Dev.countFN_links (d : Dev) (r : RegName) (a b c n : Nat) : (d.countFN r a b c n).links = d.links := rfl
@[simp] theorem Dev.countFN_core (d : Dev) (r : RegName) (a b c n : Nat) : (d.countFN r a b c n).core = d.core := rfl
@[simp] theorem Dev.countFN_queues (d : Dev) (r : RegName) (a b c n : Nat) : (d.countFN r a b c n).queues = d.queues := rfl
@[simp] theorem Dev.countFN_capt (d : Dev) (r : RegName) (a b c n : Nat) : (d.countFN r a b c n).capt = d.capt := rfl
@[simp] theorem Dev.countFN_ctxs (d : Dev) (r : RegName) (a b c n : Nat) : (d.countFN r a b c n).ctxs = d.ctxs := rfl
@[simp] theorem Dev.countFN_tiles (d : Dev) (r : RegName) (a b c n : Nat) : (d.countFN r a b c n).tiles = d.tiles := rfl
@[simp] theorem Dev.countFN_time (d : Dev) (r : RegName) (a b c n : Nat) : (d.countFN r a b c n).time = d.time := rfl
@[simp] theorem Dev.countFN_bars (d : Dev) (r : RegName) (a b c n : Nat) : (d.countFN r a b c n).bars = d.bars := rfl
@[simp] theorem Dev.countFN_fns (d : Dev) (r : RegName) (a b c n : Nat) : (d.countFN r a b c n).fns = d.fns := rfl
@[simp] theorem Dev.countFN_accOrder (d : Dev) (r : RegName) (a b c n : Nat) : (d.countFN r a b c n).accOrder = d.accOrder := rfl
@[simp] theorem Dev.countFN_qmr (d : Dev) (r : RegName) (a b c n : Nat) : (d.countFN r a b c n).qmr = d.qmr := rfl
@[simp] theorem Dev.countFN_flt (d : Dev) (r : RegName) (a b c n : Nat) : (d.countFN r a b c n).flt = d.flt := rfl
@[simp] theorem Dev.countFN_hbm (d : Dev) (r : RegName) (a b c n : Nat) : (d.countFN r a b c n).hbm = d.hbm := rfl
@[simp] theorem Dev.countFN_sys (d : Dev) (r : RegName) (a b c n : Nat) : (d.countFN r a b c n).sys = d.sys := rfl
@[simp] theorem Dev.countFN_port_at (d : Dev) (r : RegName) (a b c n : Nat) (q : Nat) : (d.countFN r a b c n).port q = d.port q := rfl
@[simp] theorem Dev.countFN_link_at (d : Dev) (r : RegName) (a b c n : Nat) (q : Nat) : (d.countFN r a b c n).link q = d.link q := rfl
@[simp] theorem Dev.countFN_fibre_at (d : Dev) (r : RegName) (a b c n : Nat) (q : Nat) : (d.countFN r a b c n).fibre q = d.fibre q := rfl
@[simp] theorem Dev.countFN_elsOf_at (d : Dev) (r : RegName) (a b c n : Nat) (q : Nat) : (d.countFN r a b c n).elsOf q = d.elsOf q := rfl
@[simp] theorem Dev.countFN_queue_at (d : Dev) (r : RegName) (a b c n : Nat) (q : Nat) : (d.countFN r a b c n).queue q = d.queue q := rfl
@[simp] theorem Dev.countFN_ctx_at (d : Dev) (r : RegName) (a b c n : Nat) (q : Nat) : (d.countFN r a b c n).ctx q = d.ctx q := rfl
@[simp] theorem Dev.countFN_tile_at (d : Dev) (r : RegName) (a b c n : Nat) (q : Nat) : (d.countFN r a b c n).tile q = d.tile q := rfl
@[simp] theorem Dev.countFN_bar_at (d : Dev) (r : RegName) (a b c n : Nat) (q : Nat) : (d.countFN r a b c n).bar q = d.bar q := rfl
@[simp] theorem Dev.countFN_fn_at (d : Dev) (r : RegName) (a b c n : Nat) (q : Nat) : (d.countFN r a b c n).fn q = d.fn q := rfl

/-! flagOr -/

@[simp] theorem Dev.flagOr_cycle (d : Dev) (g : Fld) (a b v : Nat) : (d.flagOr g a b v).cycle = d.cycle := rfl
@[simp] theorem Dev.flagOr_freeCount (d : Dev) (g : Fld) (a b v : Nat) : (d.flagOr g a b v).freeCount = d.freeCount := rfl
@[simp] theorem Dev.flagOr_out (d : Dev) (g : Fld) (a b v : Nat) : (d.flagOr g a b v).out = d.out := rfl
@[simp] theorem Dev.flagOr_d2d (d : Dev) (g : Fld) (a b v : Nat) : (d.flagOr g a b v).d2d = d.d2d := rfl
@[simp] theorem Dev.flagOr_ports (d : Dev) (g : Fld) (a b v : Nat) : (d.flagOr g a b v).ports = d.ports := rfl
@[simp] theorem Dev.flagOr_fibres (d : Dev) (g : Fld) (a b v : Nat) : (d.flagOr g a b v).fibres = d.fibres := rfl
@[simp] theorem Dev.flagOr_els (d : Dev) (g : Fld) (a b v : Nat) : (d.flagOr g a b v).els = d.els := rfl
@[simp] theorem Dev.flagOr_links (d : Dev) (g : Fld) (a b v : Nat) : (d.flagOr g a b v).links = d.links := rfl
@[simp] theorem Dev.flagOr_core (d : Dev) (g : Fld) (a b v : Nat) : (d.flagOr g a b v).core = d.core := rfl
@[simp] theorem Dev.flagOr_queues (d : Dev) (g : Fld) (a b v : Nat) : (d.flagOr g a b v).queues = d.queues := rfl
@[simp] theorem Dev.flagOr_capt (d : Dev) (g : Fld) (a b v : Nat) : (d.flagOr g a b v).capt = d.capt := rfl
@[simp] theorem Dev.flagOr_ctxs (d : Dev) (g : Fld) (a b v : Nat) : (d.flagOr g a b v).ctxs = d.ctxs := rfl
@[simp] theorem Dev.flagOr_tiles (d : Dev) (g : Fld) (a b v : Nat) : (d.flagOr g a b v).tiles = d.tiles := rfl
@[simp] theorem Dev.flagOr_time (d : Dev) (g : Fld) (a b v : Nat) : (d.flagOr g a b v).time = d.time := rfl
@[simp] theorem Dev.flagOr_bars (d : Dev) (g : Fld) (a b v : Nat) : (d.flagOr g a b v).bars = d.bars := rfl
@[simp] theorem Dev.flagOr_fns (d : Dev) (g : Fld) (a b v : Nat) : (d.flagOr g a b v).fns = d.fns := rfl
@[simp] theorem Dev.flagOr_accOrder (d : Dev) (g : Fld) (a b v : Nat) : (d.flagOr g a b v).accOrder = d.accOrder := rfl
@[simp] theorem Dev.flagOr_qmr (d : Dev) (g : Fld) (a b v : Nat) : (d.flagOr g a b v).qmr = d.qmr := rfl
@[simp] theorem Dev.flagOr_flt (d : Dev) (g : Fld) (a b v : Nat) : (d.flagOr g a b v).flt = d.flt := rfl
@[simp] theorem Dev.flagOr_hbm (d : Dev) (g : Fld) (a b v : Nat) : (d.flagOr g a b v).hbm = d.hbm := rfl
@[simp] theorem Dev.flagOr_sys (d : Dev) (g : Fld) (a b v : Nat) : (d.flagOr g a b v).sys = d.sys := rfl
@[simp] theorem Dev.flagOr_port_at (d : Dev) (g : Fld) (a b v : Nat) (q : Nat) : (d.flagOr g a b v).port q = d.port q := rfl
@[simp] theorem Dev.flagOr_link_at (d : Dev) (g : Fld) (a b v : Nat) (q : Nat) : (d.flagOr g a b v).link q = d.link q := rfl
@[simp] theorem Dev.flagOr_fibre_at (d : Dev) (g : Fld) (a b v : Nat) (q : Nat) : (d.flagOr g a b v).fibre q = d.fibre q := rfl
@[simp] theorem Dev.flagOr_elsOf_at (d : Dev) (g : Fld) (a b v : Nat) (q : Nat) : (d.flagOr g a b v).elsOf q = d.elsOf q := rfl
@[simp] theorem Dev.flagOr_queue_at (d : Dev) (g : Fld) (a b v : Nat) (q : Nat) : (d.flagOr g a b v).queue q = d.queue q := rfl
@[simp] theorem Dev.flagOr_ctx_at (d : Dev) (g : Fld) (a b v : Nat) (q : Nat) : (d.flagOr g a b v).ctx q = d.ctx q := rfl
@[simp] theorem Dev.flagOr_tile_at (d : Dev) (g : Fld) (a b v : Nat) (q : Nat) : (d.flagOr g a b v).tile q = d.tile q := rfl
@[simp] theorem Dev.flagOr_bar_at (d : Dev) (g : Fld) (a b v : Nat) (q : Nat) : (d.flagOr g a b v).bar q = d.bar q := rfl
@[simp] theorem Dev.flagOr_fn_at (d : Dev) (g : Fld) (a b v : Nat) (q : Nat) : (d.flagOr g a b v).fn q = d.fn q := rfl

/-! heatFlag -/

@[simp] theorem Dev.heatFlag_cycle (d : Dev) (e : Fld) (a b v : Nat) : (d.heatFlag e a b v).cycle = d.cycle := rfl
@[simp] theorem Dev.heatFlag_freeCount (d : Dev) (e : Fld) (a b v : Nat) : (d.heatFlag e a b v).freeCount = d.freeCount := rfl
@[simp] theorem Dev.heatFlag_out (d : Dev) (e : Fld) (a b v : Nat) : (d.heatFlag e a b v).out = d.out := rfl
@[simp] theorem Dev.heatFlag_regs (d : Dev) (e : Fld) (a b v : Nat) : (d.heatFlag e a b v).regs = d.regs := rfl
@[simp] theorem Dev.heatFlag_d2d (d : Dev) (e : Fld) (a b v : Nat) : (d.heatFlag e a b v).d2d = d.d2d := rfl
@[simp] theorem Dev.heatFlag_ports (d : Dev) (e : Fld) (a b v : Nat) : (d.heatFlag e a b v).ports = d.ports := rfl
@[simp] theorem Dev.heatFlag_fibres (d : Dev) (e : Fld) (a b v : Nat) : (d.heatFlag e a b v).fibres = d.fibres := rfl
@[simp] theorem Dev.heatFlag_els (d : Dev) (e : Fld) (a b v : Nat) : (d.heatFlag e a b v).els = d.els := rfl
@[simp] theorem Dev.heatFlag_links (d : Dev) (e : Fld) (a b v : Nat) : (d.heatFlag e a b v).links = d.links := rfl
@[simp] theorem Dev.heatFlag_core (d : Dev) (e : Fld) (a b v : Nat) : (d.heatFlag e a b v).core = d.core := rfl
@[simp] theorem Dev.heatFlag_queues (d : Dev) (e : Fld) (a b v : Nat) : (d.heatFlag e a b v).queues = d.queues := rfl
@[simp] theorem Dev.heatFlag_capt (d : Dev) (e : Fld) (a b v : Nat) : (d.heatFlag e a b v).capt = d.capt := rfl
@[simp] theorem Dev.heatFlag_ctxs (d : Dev) (e : Fld) (a b v : Nat) : (d.heatFlag e a b v).ctxs = d.ctxs := rfl
@[simp] theorem Dev.heatFlag_tiles (d : Dev) (e : Fld) (a b v : Nat) : (d.heatFlag e a b v).tiles = d.tiles := rfl
@[simp] theorem Dev.heatFlag_time (d : Dev) (e : Fld) (a b v : Nat) : (d.heatFlag e a b v).time = d.time := rfl
@[simp] theorem Dev.heatFlag_bars (d : Dev) (e : Fld) (a b v : Nat) : (d.heatFlag e a b v).bars = d.bars := rfl
@[simp] theorem Dev.heatFlag_fns (d : Dev) (e : Fld) (a b v : Nat) : (d.heatFlag e a b v).fns = d.fns := rfl
@[simp] theorem Dev.heatFlag_accOrder (d : Dev) (e : Fld) (a b v : Nat) : (d.heatFlag e a b v).accOrder = d.accOrder := rfl
@[simp] theorem Dev.heatFlag_qmr (d : Dev) (e : Fld) (a b v : Nat) : (d.heatFlag e a b v).qmr = d.qmr := rfl
@[simp] theorem Dev.heatFlag_flt (d : Dev) (e : Fld) (a b v : Nat) : (d.heatFlag e a b v).flt = d.flt := rfl
@[simp] theorem Dev.heatFlag_hbm (d : Dev) (e : Fld) (a b v : Nat) : (d.heatFlag e a b v).hbm = d.hbm := rfl
@[simp] theorem Dev.heatFlag_sys (d : Dev) (e : Fld) (a b v : Nat) : (d.heatFlag e a b v).sys = d.sys := rfl
@[simp] theorem Dev.heatFlag_port_at (d : Dev) (e : Fld) (a b v : Nat) (q : Nat) : (d.heatFlag e a b v).port q = d.port q := rfl
@[simp] theorem Dev.heatFlag_link_at (d : Dev) (e : Fld) (a b v : Nat) (q : Nat) : (d.heatFlag e a b v).link q = d.link q := rfl
@[simp] theorem Dev.heatFlag_fibre_at (d : Dev) (e : Fld) (a b v : Nat) (q : Nat) : (d.heatFlag e a b v).fibre q = d.fibre q := rfl
@[simp] theorem Dev.heatFlag_elsOf_at (d : Dev) (e : Fld) (a b v : Nat) (q : Nat) : (d.heatFlag e a b v).elsOf q = d.elsOf q := rfl
@[simp] theorem Dev.heatFlag_queue_at (d : Dev) (e : Fld) (a b v : Nat) (q : Nat) : (d.heatFlag e a b v).queue q = d.queue q := rfl
@[simp] theorem Dev.heatFlag_ctx_at (d : Dev) (e : Fld) (a b v : Nat) (q : Nat) : (d.heatFlag e a b v).ctx q = d.ctx q := rfl
@[simp] theorem Dev.heatFlag_tile_at (d : Dev) (e : Fld) (a b v : Nat) (q : Nat) : (d.heatFlag e a b v).tile q = d.tile q := rfl
@[simp] theorem Dev.heatFlag_bar_at (d : Dev) (e : Fld) (a b v : Nat) (q : Nat) : (d.heatFlag e a b v).bar q = d.bar q := rfl
@[simp] theorem Dev.heatFlag_fn_at (d : Dev) (e : Fld) (a b v : Nat) (q : Nat) : (d.heatFlag e a b v).fn q = d.fn q := rfl
@[simp] theorem Dev.heatFlag_rawF (d : Dev) (e : Fld) (a b v : Nat) (r : RegName) (x y z : Nat) :
    (d.heatFlag e a b v).rawF r x y z = d.rawF r x y z := rfl
@[simp] theorem Dev.heatFlag_fdF (d : Dev) (e : Fld) (a b v : Nat) (g : Fld) (x y z : Nat) :
    (d.heatFlag e a b v).fdF g x y z = d.fdF g x y z := rfl
@[simp] theorem Dev.heatFlag_fd (d : Dev) (e : Fld) (a b v : Nat) (g : Fld) (x y : Nat) : (d.heatFlag e a b v).fd g x y = d.fd g x y := rfl
@[simp] theorem Dev.heatFlag_bit (d : Dev) (e : Fld) (a b v : Nat) (g : Fld) (x y : Nat) : (d.heatFlag e a b v).bit g x y = d.bit g x y := rfl

/-! setHot -/

@[simp] theorem Dev.setHot_cycle (d : Dev) (k : Nat) (v : Nat × Nat) : (d.setHot k v).cycle = d.cycle := rfl
@[simp] theorem Dev.setHot_freeCount (d : Dev) (k : Nat) (v : Nat × Nat) : (d.setHot k v).freeCount = d.freeCount := rfl
@[simp] theorem Dev.setHot_out (d : Dev) (k : Nat) (v : Nat × Nat) : (d.setHot k v).out = d.out := rfl
@[simp] theorem Dev.setHot_regs (d : Dev) (k : Nat) (v : Nat × Nat) : (d.setHot k v).regs = d.regs := rfl
@[simp] theorem Dev.setHot_d2d (d : Dev) (k : Nat) (v : Nat × Nat) : (d.setHot k v).d2d = d.d2d := rfl
@[simp] theorem Dev.setHot_ports (d : Dev) (k : Nat) (v : Nat × Nat) : (d.setHot k v).ports = d.ports := rfl
@[simp] theorem Dev.setHot_fibres (d : Dev) (k : Nat) (v : Nat × Nat) : (d.setHot k v).fibres = d.fibres := rfl
@[simp] theorem Dev.setHot_els (d : Dev) (k : Nat) (v : Nat × Nat) : (d.setHot k v).els = d.els := rfl
@[simp] theorem Dev.setHot_links (d : Dev) (k : Nat) (v : Nat × Nat) : (d.setHot k v).links = d.links := rfl
@[simp] theorem Dev.setHot_core (d : Dev) (k : Nat) (v : Nat × Nat) : (d.setHot k v).core = d.core := rfl
@[simp] theorem Dev.setHot_queues (d : Dev) (k : Nat) (v : Nat × Nat) : (d.setHot k v).queues = d.queues := rfl
@[simp] theorem Dev.setHot_capt (d : Dev) (k : Nat) (v : Nat × Nat) : (d.setHot k v).capt = d.capt := rfl
@[simp] theorem Dev.setHot_ctxs (d : Dev) (k : Nat) (v : Nat × Nat) : (d.setHot k v).ctxs = d.ctxs := rfl
@[simp] theorem Dev.setHot_tiles (d : Dev) (k : Nat) (v : Nat × Nat) : (d.setHot k v).tiles = d.tiles := rfl
@[simp] theorem Dev.setHot_time (d : Dev) (k : Nat) (v : Nat × Nat) : (d.setHot k v).time = d.time := rfl
@[simp] theorem Dev.setHot_bars (d : Dev) (k : Nat) (v : Nat × Nat) : (d.setHot k v).bars = d.bars := rfl
@[simp] theorem Dev.setHot_fns (d : Dev) (k : Nat) (v : Nat × Nat) : (d.setHot k v).fns = d.fns := rfl
@[simp] theorem Dev.setHot_accOrder (d : Dev) (k : Nat) (v : Nat × Nat) : (d.setHot k v).accOrder = d.accOrder := rfl
@[simp] theorem Dev.setHot_qmr (d : Dev) (k : Nat) (v : Nat × Nat) : (d.setHot k v).qmr = d.qmr := rfl
@[simp] theorem Dev.setHot_flt (d : Dev) (k : Nat) (v : Nat × Nat) : (d.setHot k v).flt = d.flt := rfl
@[simp] theorem Dev.setHot_hbm (d : Dev) (k : Nat) (v : Nat × Nat) : (d.setHot k v).hbm = d.hbm := rfl
@[simp] theorem Dev.setHot_sys (d : Dev) (k : Nat) (v : Nat × Nat) : (d.setHot k v).sys = d.sys := rfl
@[simp] theorem Dev.setHot_port_at (d : Dev) (k : Nat) (v : Nat × Nat) (q : Nat) : (d.setHot k v).port q = d.port q := rfl
@[simp] theorem Dev.setHot_link_at (d : Dev) (k : Nat) (v : Nat × Nat) (q : Nat) : (d.setHot k v).link q = d.link q := rfl
@[simp] theorem Dev.setHot_fibre_at (d : Dev) (k : Nat) (v : Nat × Nat) (q : Nat) : (d.setHot k v).fibre q = d.fibre q := rfl
@[simp] theorem Dev.setHot_elsOf_at (d : Dev) (k : Nat) (v : Nat × Nat) (q : Nat) : (d.setHot k v).elsOf q = d.elsOf q := rfl
@[simp] theorem Dev.setHot_queue_at (d : Dev) (k : Nat) (v : Nat × Nat) (q : Nat) : (d.setHot k v).queue q = d.queue q := rfl
@[simp] theorem Dev.setHot_ctx_at (d : Dev) (k : Nat) (v : Nat × Nat) (q : Nat) : (d.setHot k v).ctx q = d.ctx q := rfl
@[simp] theorem Dev.setHot_tile_at (d : Dev) (k : Nat) (v : Nat × Nat) (q : Nat) : (d.setHot k v).tile q = d.tile q := rfl
@[simp] theorem Dev.setHot_bar_at (d : Dev) (k : Nat) (v : Nat × Nat) (q : Nat) : (d.setHot k v).bar q = d.bar q := rfl
@[simp] theorem Dev.setHot_fn_at (d : Dev) (k : Nat) (v : Nat × Nat) (q : Nat) : (d.setHot k v).fn q = d.fn q := rfl
@[simp] theorem Dev.setHot_rawF (d : Dev) (k : Nat) (v : Nat × Nat) (r : RegName) (x y z : Nat) :
    (d.setHot k v).rawF r x y z = d.rawF r x y z := rfl
@[simp] theorem Dev.setHot_fdF (d : Dev) (k : Nat) (v : Nat × Nat) (g : Fld) (x y z : Nat) :
    (d.setHot k v).fdF g x y z = d.fdF g x y z := rfl
@[simp] theorem Dev.setHot_fd (d : Dev) (k : Nat) (v : Nat × Nat) (g : Fld) (x y : Nat) : (d.setHot k v).fd g x y = d.fd g x y := rfl
@[simp] theorem Dev.setHot_bit (d : Dev) (k : Nat) (v : Nat × Nat) (g : Fld) (x y : Nat) : (d.setHot k v).bit g x y = d.bit g x y := rfl

/-! emit -/

@[simp] theorem Dev.emit_cycle (d : Dev) (o : Output) : (d.emit o).cycle = d.cycle := rfl
@[simp] theorem Dev.emit_freeCount (d : Dev) (o : Output) : (d.emit o).freeCount = d.freeCount := rfl
@[simp] theorem Dev.emit_regs (d : Dev) (o : Output) : (d.emit o).regs = d.regs := rfl
@[simp] theorem Dev.emit_hot (d : Dev) (o : Output) : (d.emit o).hot = d.hot := rfl
@[simp] theorem Dev.emit_d2d (d : Dev) (o : Output) : (d.emit o).d2d = d.d2d := rfl
@[simp] theorem Dev.emit_ports (d : Dev) (o : Output) : (d.emit o).ports = d.ports := rfl
@[simp] theorem Dev.emit_fibres (d : Dev) (o : Output) : (d.emit o).fibres = d.fibres := rfl
@[simp] theorem Dev.emit_els (d : Dev) (o : Output) : (d.emit o).els = d.els := rfl
@[simp] theorem Dev.emit_links (d : Dev) (o : Output) : (d.emit o).links = d.links := rfl
@[simp] theorem Dev.emit_core (d : Dev) (o : Output) : (d.emit o).core = d.core := rfl
@[simp] theorem Dev.emit_queues (d : Dev) (o : Output) : (d.emit o).queues = d.queues := rfl
@[simp] theorem Dev.emit_capt (d : Dev) (o : Output) : (d.emit o).capt = d.capt := rfl
@[simp] theorem Dev.emit_ctxs (d : Dev) (o : Output) : (d.emit o).ctxs = d.ctxs := rfl
@[simp] theorem Dev.emit_tiles (d : Dev) (o : Output) : (d.emit o).tiles = d.tiles := rfl
@[simp] theorem Dev.emit_time (d : Dev) (o : Output) : (d.emit o).time = d.time := rfl
@[simp] theorem Dev.emit_bars (d : Dev) (o : Output) : (d.emit o).bars = d.bars := rfl
@[simp] theorem Dev.emit_fns (d : Dev) (o : Output) : (d.emit o).fns = d.fns := rfl
@[simp] theorem Dev.emit_accOrder (d : Dev) (o : Output) : (d.emit o).accOrder = d.accOrder := rfl
@[simp] theorem Dev.emit_qmr (d : Dev) (o : Output) : (d.emit o).qmr = d.qmr := rfl
@[simp] theorem Dev.emit_flt (d : Dev) (o : Output) : (d.emit o).flt = d.flt := rfl
@[simp] theorem Dev.emit_hbm (d : Dev) (o : Output) : (d.emit o).hbm = d.hbm := rfl
@[simp] theorem Dev.emit_sys (d : Dev) (o : Output) : (d.emit o).sys = d.sys := rfl
@[simp] theorem Dev.emit_port_at (d : Dev) (o : Output) (q : Nat) : (d.emit o).port q = d.port q := rfl
@[simp] theorem Dev.emit_link_at (d : Dev) (o : Output) (q : Nat) : (d.emit o).link q = d.link q := rfl
@[simp] theorem Dev.emit_fibre_at (d : Dev) (o : Output) (q : Nat) : (d.emit o).fibre q = d.fibre q := rfl
@[simp] theorem Dev.emit_elsOf_at (d : Dev) (o : Output) (q : Nat) : (d.emit o).elsOf q = d.elsOf q := rfl
@[simp] theorem Dev.emit_queue_at (d : Dev) (o : Output) (q : Nat) : (d.emit o).queue q = d.queue q := rfl
@[simp] theorem Dev.emit_ctx_at (d : Dev) (o : Output) (q : Nat) : (d.emit o).ctx q = d.ctx q := rfl
@[simp] theorem Dev.emit_tile_at (d : Dev) (o : Output) (q : Nat) : (d.emit o).tile q = d.tile q := rfl
@[simp] theorem Dev.emit_bar_at (d : Dev) (o : Output) (q : Nat) : (d.emit o).bar q = d.bar q := rfl
@[simp] theorem Dev.emit_fn_at (d : Dev) (o : Output) (q : Nat) : (d.emit o).fn q = d.fn q := rfl
@[simp] theorem Dev.emit_rawF (d : Dev) (o : Output) (r : RegName) (x y z : Nat) :
    (d.emit o).rawF r x y z = d.rawF r x y z := rfl
@[simp] theorem Dev.emit_fdF (d : Dev) (o : Output) (g : Fld) (x y z : Nat) :
    (d.emit o).fdF g x y z = d.fdF g x y z := rfl
@[simp] theorem Dev.emit_fd (d : Dev) (o : Output) (g : Fld) (x y : Nat) : (d.emit o).fd g x y = d.fd g x y := rfl
@[simp] theorem Dev.emit_bit (d : Dev) (o : Output) (g : Fld) (x y : Nat) : (d.emit o).bit g x y = d.bit g x y := rfl
@[simp] theorem Dev.emit_out (d : Dev) (o : Output) : (d.emit o).out = d.out ++ [o] := rfl

@[simp] theorem Dev.updPwr_sys (d : Dev) (f : PwrSt → PwrSt) : (d.updPwr f).sys = { d.sys with pwr := f d.sys.pwr } := rfl
@[simp] theorem Dev.updPwr_cycle (d : Dev) (f : PwrSt → PwrSt) : (d.updPwr f).cycle = d.cycle := rfl
@[simp] theorem Dev.updPwr_freeCount (d : Dev) (f : PwrSt → PwrSt) : (d.updPwr f).freeCount = d.freeCount := rfl
@[simp] theorem Dev.updPwr_out (d : Dev) (f : PwrSt → PwrSt) : (d.updPwr f).out = d.out := rfl
@[simp] theorem Dev.updPwr_regs (d : Dev) (f : PwrSt → PwrSt) : (d.updPwr f).regs = d.regs := rfl
@[simp] theorem Dev.updPwr_hot (d : Dev) (f : PwrSt → PwrSt) : (d.updPwr f).hot = d.hot := rfl
@[simp] theorem Dev.updPwr_d2d (d : Dev) (f : PwrSt → PwrSt) : (d.updPwr f).d2d = d.d2d := rfl
@[simp] theorem Dev.updPwr_ports (d : Dev) (f : PwrSt → PwrSt) : (d.updPwr f).ports = d.ports := rfl
@[simp] theorem Dev.updPwr_fibres (d : Dev) (f : PwrSt → PwrSt) : (d.updPwr f).fibres = d.fibres := rfl
@[simp] theorem Dev.updPwr_els (d : Dev) (f : PwrSt → PwrSt) : (d.updPwr f).els = d.els := rfl
@[simp] theorem Dev.updPwr_links (d : Dev) (f : PwrSt → PwrSt) : (d.updPwr f).links = d.links := rfl
@[simp] theorem Dev.updPwr_core (d : Dev) (f : PwrSt → PwrSt) : (d.updPwr f).core = d.core := rfl
@[simp] theorem Dev.updPwr_queues (d : Dev) (f : PwrSt → PwrSt) : (d.updPwr f).queues = d.queues := rfl
@[simp] theorem Dev.updPwr_capt (d : Dev) (f : PwrSt → PwrSt) : (d.updPwr f).capt = d.capt := rfl
@[simp] theorem Dev.updPwr_ctxs (d : Dev) (f : PwrSt → PwrSt) : (d.updPwr f).ctxs = d.ctxs := rfl
@[simp] theorem Dev.updPwr_tiles (d : Dev) (f : PwrSt → PwrSt) : (d.updPwr f).tiles = d.tiles := rfl
@[simp] theorem Dev.updPwr_time (d : Dev) (f : PwrSt → PwrSt) : (d.updPwr f).time = d.time := rfl
@[simp] theorem Dev.updPwr_bars (d : Dev) (f : PwrSt → PwrSt) : (d.updPwr f).bars = d.bars := rfl
@[simp] theorem Dev.updPwr_fns (d : Dev) (f : PwrSt → PwrSt) : (d.updPwr f).fns = d.fns := rfl
@[simp] theorem Dev.updPwr_accOrder (d : Dev) (f : PwrSt → PwrSt) : (d.updPwr f).accOrder = d.accOrder := rfl
@[simp] theorem Dev.updPwr_qmr (d : Dev) (f : PwrSt → PwrSt) : (d.updPwr f).qmr = d.qmr := rfl
@[simp] theorem Dev.updPwr_flt (d : Dev) (f : PwrSt → PwrSt) : (d.updPwr f).flt = d.flt := rfl
@[simp] theorem Dev.updPwr_hbm (d : Dev) (f : PwrSt → PwrSt) : (d.updPwr f).hbm = d.hbm := rfl
@[simp] theorem Dev.updBoot_sys (d : Dev) (f : BootSt → BootSt) : (d.updBoot f).sys = { d.sys with boot := f d.sys.boot } := rfl
@[simp] theorem Dev.updBoot_cycle (d : Dev) (f : BootSt → BootSt) : (d.updBoot f).cycle = d.cycle := rfl
@[simp] theorem Dev.updBoot_freeCount (d : Dev) (f : BootSt → BootSt) : (d.updBoot f).freeCount = d.freeCount := rfl
@[simp] theorem Dev.updBoot_out (d : Dev) (f : BootSt → BootSt) : (d.updBoot f).out = d.out := rfl
@[simp] theorem Dev.updBoot_regs (d : Dev) (f : BootSt → BootSt) : (d.updBoot f).regs = d.regs := rfl
@[simp] theorem Dev.updBoot_hot (d : Dev) (f : BootSt → BootSt) : (d.updBoot f).hot = d.hot := rfl
@[simp] theorem Dev.updBoot_d2d (d : Dev) (f : BootSt → BootSt) : (d.updBoot f).d2d = d.d2d := rfl
@[simp] theorem Dev.updBoot_ports (d : Dev) (f : BootSt → BootSt) : (d.updBoot f).ports = d.ports := rfl
@[simp] theorem Dev.updBoot_fibres (d : Dev) (f : BootSt → BootSt) : (d.updBoot f).fibres = d.fibres := rfl
@[simp] theorem Dev.updBoot_els (d : Dev) (f : BootSt → BootSt) : (d.updBoot f).els = d.els := rfl
@[simp] theorem Dev.updBoot_links (d : Dev) (f : BootSt → BootSt) : (d.updBoot f).links = d.links := rfl
@[simp] theorem Dev.updBoot_core (d : Dev) (f : BootSt → BootSt) : (d.updBoot f).core = d.core := rfl
@[simp] theorem Dev.updBoot_queues (d : Dev) (f : BootSt → BootSt) : (d.updBoot f).queues = d.queues := rfl
@[simp] theorem Dev.updBoot_capt (d : Dev) (f : BootSt → BootSt) : (d.updBoot f).capt = d.capt := rfl
@[simp] theorem Dev.updBoot_ctxs (d : Dev) (f : BootSt → BootSt) : (d.updBoot f).ctxs = d.ctxs := rfl
@[simp] theorem Dev.updBoot_tiles (d : Dev) (f : BootSt → BootSt) : (d.updBoot f).tiles = d.tiles := rfl
@[simp] theorem Dev.updBoot_time (d : Dev) (f : BootSt → BootSt) : (d.updBoot f).time = d.time := rfl
@[simp] theorem Dev.updBoot_bars (d : Dev) (f : BootSt → BootSt) : (d.updBoot f).bars = d.bars := rfl
@[simp] theorem Dev.updBoot_fns (d : Dev) (f : BootSt → BootSt) : (d.updBoot f).fns = d.fns := rfl
@[simp] theorem Dev.updBoot_accOrder (d : Dev) (f : BootSt → BootSt) : (d.updBoot f).accOrder = d.accOrder := rfl
@[simp] theorem Dev.updBoot_qmr (d : Dev) (f : BootSt → BootSt) : (d.updBoot f).qmr = d.qmr := rfl
@[simp] theorem Dev.updBoot_flt (d : Dev) (f : BootSt → BootSt) : (d.updBoot f).flt = d.flt := rfl
@[simp] theorem Dev.updBoot_hbm (d : Dev) (f : BootSt → BootSt) : (d.updBoot f).hbm = d.hbm := rfl
@[simp] theorem Dev.updFlash_sys (d : Dev) (f : FlashSt → FlashSt) : (d.updFlash f).sys = { d.sys with flash := f d.sys.flash } := rfl
@[simp] theorem Dev.updFlash_cycle (d : Dev) (f : FlashSt → FlashSt) : (d.updFlash f).cycle = d.cycle := rfl
@[simp] theorem Dev.updFlash_freeCount (d : Dev) (f : FlashSt → FlashSt) : (d.updFlash f).freeCount = d.freeCount := rfl
@[simp] theorem Dev.updFlash_out (d : Dev) (f : FlashSt → FlashSt) : (d.updFlash f).out = d.out := rfl
@[simp] theorem Dev.updFlash_regs (d : Dev) (f : FlashSt → FlashSt) : (d.updFlash f).regs = d.regs := rfl
@[simp] theorem Dev.updFlash_hot (d : Dev) (f : FlashSt → FlashSt) : (d.updFlash f).hot = d.hot := rfl
@[simp] theorem Dev.updFlash_d2d (d : Dev) (f : FlashSt → FlashSt) : (d.updFlash f).d2d = d.d2d := rfl
@[simp] theorem Dev.updFlash_ports (d : Dev) (f : FlashSt → FlashSt) : (d.updFlash f).ports = d.ports := rfl
@[simp] theorem Dev.updFlash_fibres (d : Dev) (f : FlashSt → FlashSt) : (d.updFlash f).fibres = d.fibres := rfl
@[simp] theorem Dev.updFlash_els (d : Dev) (f : FlashSt → FlashSt) : (d.updFlash f).els = d.els := rfl
@[simp] theorem Dev.updFlash_links (d : Dev) (f : FlashSt → FlashSt) : (d.updFlash f).links = d.links := rfl
@[simp] theorem Dev.updFlash_core (d : Dev) (f : FlashSt → FlashSt) : (d.updFlash f).core = d.core := rfl
@[simp] theorem Dev.updFlash_queues (d : Dev) (f : FlashSt → FlashSt) : (d.updFlash f).queues = d.queues := rfl
@[simp] theorem Dev.updFlash_capt (d : Dev) (f : FlashSt → FlashSt) : (d.updFlash f).capt = d.capt := rfl
@[simp] theorem Dev.updFlash_ctxs (d : Dev) (f : FlashSt → FlashSt) : (d.updFlash f).ctxs = d.ctxs := rfl
@[simp] theorem Dev.updFlash_tiles (d : Dev) (f : FlashSt → FlashSt) : (d.updFlash f).tiles = d.tiles := rfl
@[simp] theorem Dev.updFlash_time (d : Dev) (f : FlashSt → FlashSt) : (d.updFlash f).time = d.time := rfl
@[simp] theorem Dev.updFlash_bars (d : Dev) (f : FlashSt → FlashSt) : (d.updFlash f).bars = d.bars := rfl
@[simp] theorem Dev.updFlash_fns (d : Dev) (f : FlashSt → FlashSt) : (d.updFlash f).fns = d.fns := rfl
@[simp] theorem Dev.updFlash_accOrder (d : Dev) (f : FlashSt → FlashSt) : (d.updFlash f).accOrder = d.accOrder := rfl
@[simp] theorem Dev.updFlash_qmr (d : Dev) (f : FlashSt → FlashSt) : (d.updFlash f).qmr = d.qmr := rfl
@[simp] theorem Dev.updFlash_flt (d : Dev) (f : FlashSt → FlashSt) : (d.updFlash f).flt = d.flt := rfl
@[simp] theorem Dev.updFlash_hbm (d : Dev) (f : FlashSt → FlashSt) : (d.updFlash f).hbm = d.hbm := rfl

/-! The state -/

@[simp] theorem State.onDev_dev (f : Dev → Dev) (s : State) : (s.onDev f).dev = f s.dev := rfl
@[simp] theorem State.onDev_mem (f : Dev → Dev) (s : State) : (s.onDev f).mem = s.mem := rfl
@[simp] theorem State.onDev_pending (f : Dev → Dev) (s : State) : (s.onDev f).pending = s.pending := rfl
@[simp] theorem State.onMem_dev (f : Mem → Dev → Mem × Dev) (s : State) : (s.onMem f).dev = (f s.mem s.dev).2 := rfl
@[simp] theorem State.onMem_mem (f : Mem → Dev → Mem × Dev) (s : State) : (s.onMem f).mem = (f s.mem s.dev).1 := rfl
@[simp] theorem State.onMem_pending (f : Mem → Dev → Mem × Dev) (s : State) : (s.onMem f).pending = s.pending := rfl

end Sys2Proof.Machine
end

