-- ==== Sys2Proof/Laws/Reg.lean ====
section
/-! SUPPORT. The laws of registers and their fields: a read after a write, at the same place and at another. -/

namespace Sys2Proof.Machine

/-! Bits -/

theorem bitsOf_lt (w hi lo : Nat) : bitsOf w hi lo < 2 ^ (hi + 1 - lo) := Nat.mod_lt _ (Nat.two_pow_pos _)

theorem bitsOf_testBit (w hi lo i : Nat) :
    (bitsOf w hi lo).testBit i = (decide (i < hi + 1 - lo) && w.testBit (lo + i)) := by
  simp [bitsOf, Nat.testBit_mod_two_pow, Nat.testBit_shiftRight]

theorem bitsPut_eq (w hi lo v : Nat) (h : lo ≤ hi + 1) :
    bitsPut w hi lo v = w % 2 ^ lo + 2 ^ lo * (v % 2 ^ (hi + 1 - lo) + 2 ^ (hi + 1 - lo) * (w / 2 ^ (hi + 1))) := by
  have h1 : 2 ^ (hi + 1) = 2 ^ lo * 2 ^ (hi + 1 - lo) := by rw [← Nat.pow_add]; congr 1; omega
  have h2 := Nat.div_add_mod w (2 ^ lo)
  have h3 := Nat.div_add_mod (w / 2 ^ lo) (2 ^ (hi + 1 - lo))
  have h4 : w / 2 ^ lo / 2 ^ (hi + 1 - lo) = w / 2 ^ (hi + 1) := by rw [Nat.div_div_eq_div_mul, h1]
  simp only [bitsPut, bitsOf, Nat.shiftRight_eq_div_pow, Nat.shiftLeft_eq]
  rw [h4] at h3
  generalize w / 2 ^ (hi + 1) = top at *
  generalize w / 2 ^ lo % 2 ^ (hi + 1 - lo) = old at *
  generalize v % 2 ^ (hi + 1 - lo) = new at *
  generalize w / 2 ^ lo = q at *
  generalize w % 2 ^ lo = r at *
  subst h3
  rw [← h2, Nat.mul_add, Nat.mul_add, Nat.mul_comm old, Nat.mul_comm new]
  omega

theorem bitsPut_testBit (w hi lo v i : Nat) (h : lo ≤ hi + 1) :
    (bitsPut w hi lo v).testBit i =
      if i < lo then w.testBit i else if i ≤ hi then v.testBit (i - lo) else w.testBit i := by
  rw [bitsPut_eq w hi lo v h, Nat.add_comm, Nat.testBit_two_pow_mul_add _ (Nat.mod_lt _ (Nat.two_pow_pos _))]
  by_cases h1 : i < lo
  · simp [h1, Nat.testBit_mod_two_pow]
  · simp only [h1, if_false]
    rw [Nat.add_comm (v % _), Nat.testBit_two_pow_mul_add _ (Nat.mod_lt _ (Nat.two_pow_pos _))]
    by_cases h2 : i ≤ hi
    · have : i - lo < hi + 1 - lo := by omega
      simp [h2, this, Nat.testBit_mod_two_pow]
    · have h3 : ¬ i - lo < hi + 1 - lo := by omega
      simp only [h3, h2, if_false, Nat.testBit_div_two_pow]
      congr 1; omega

theorem bitsPut_lt (w hi lo v n : Nat) (h : lo ≤ hi + 1) (hn : hi < n) (hw : w < 2 ^ n) :
    bitsPut w hi lo v < 2 ^ n := by
  apply Nat.lt_pow_two_of_testBit
  intro i hi'
  rw [bitsPut_testBit w hi lo v i h]
  have : w.testBit i = false := Nat.testBit_lt_two_pow (Nat.lt_of_lt_of_le hw (Nat.pow_le_pow_right (by omega) hi'))
  have h2 : ¬ i ≤ hi := by omega
  simp [this, h2]

theorem bitsOf_bitsPut_same (w hi lo v : Nat) (h : lo ≤ hi + 1) :
    bitsOf (bitsPut w hi lo v) hi lo = v % 2 ^ (hi + 1 - lo) := by
  apply Nat.eq_of_testBit_eq
  intro i
  rw [bitsOf_testBit, bitsPut_testBit _ _ _ _ _ h, Nat.testBit_mod_two_pow]
  by_cases h1 : i < hi + 1 - lo
  · have h2 : ¬ lo + i < lo := by omega
    have h3 : lo + i ≤ hi := by omega
    simp only [h1, h2, h3, if_true, if_false, decide_true, Bool.true_and, Nat.add_sub_cancel_left]
  · simp [h1]

/-- Disjoint fields do not disturb each other. -/
theorem bitsOf_bitsPut_other (w hi lo v hi' lo' : Nat) (h : lo ≤ hi + 1) (hd : hi' < lo ∨ hi < lo') :
    bitsOf (bitsPut w hi lo v) hi' lo' = bitsOf w hi' lo' := by
  apply Nat.eq_of_testBit_eq
  intro i
  rw [bitsOf_testBit, bitsOf_testBit, bitsPut_testBit _ _ _ _ _ h]
  by_cases h1 : i < hi' + 1 - lo'
  · simp only [h1, decide_true, Bool.true_and]
    rcases hd with hd | hd
    · have : lo' + i < lo := by omega
      simp [this]
    · have h2 : ¬ lo' + i < lo ∨ lo' + i < lo := by omega
      have h3 : ¬ lo' + i ≤ hi := by omega
      simp [h3]
  · simp [h1]

/-! Keys -/

theorem RegName.ctorIdx_inj (r r' : RegName) (h : r.ctorIdx = r'.ctorIdx) : r = r' := by
  have h1 := RegName.ofNat_ctorIdx r
  have h2 := RegName.ofNat_ctorIdx r'
  rw [← h1, ← h2, h]

theorem RegName.ctorIdx_lt (r : RegName) : r.ctorIdx < 1024 := by cases r <;> decide

/-- Registers of two names never share a place. -/
theorem regKey_ne (r r' : RegName) (fn fn' i i' j j' : Nat) (h : r ≠ r') : regKey r fn i j ≠ regKey r' fn' i' j' := by
  intro e
  have h1 := r.ctorIdx_lt
  have h2 := r'.ctorIdx_lt
  have : r.ctorIdx = r'.ctorIdx := by simp only [regKey] at e; omega
  exact h (RegName.ctorIdx_inj _ _ this)

/-- Two instances of one register never share a place. -/
theorem regKey_ne_at (r : RegName) (fn fn' i i' j j' : Nat) (hf : fn < 2) (hf' : fn' < 2) (hj : j < 256) (hj' : j' < 256)
    (h : i ≠ i' ∨ j ≠ j' ∨ fn ≠ fn') : regKey r fn i j ≠ regKey r fn' i' j' := by
  intro e
  simp only [regKey] at e
  omega

/-! Registers -/

theorem Dev.setRawF_rawF_same (d : Dev) (r : RegName) (fn i j v : Nat) :
    (d.setRawF r fn i j v).rawF r fn i j = v % 2 ^ 64 := by
  simp [Dev.setRawF, Dev.rawF]

theorem Dev.setRawF_rawF_other (d : Dev) (r r' : RegName) (fn fn' i i' j j' v : Nat)
    (h : regKey r' fn' i' j' ≠ regKey r fn i j) :
    (d.setRawF r fn i j v).rawF r' fn' i' j' = d.rawF r' fn' i' j' := by
  simp only [Dev.setRawF, Dev.rawF]
  rw [tblGet_tblPut_ne _ _ _ _ _ _ h]

theorem Dev.rawF_lt (d : Dev) (r : RegName) (fn i j : Nat) : d.rawF r fn i j < 2 ^ 64 := (tblGet _ d.regs _).isLt

/-- A field after it is set. -/
theorem Dev.fdSetF_fdF_same (d : Dev) (f : Fld) (fn i j v : Nat) (h : f.lo ≤ f.hi + 1) (h64 : f.hi < 64) :
    (d.fdSetF f fn i j v).fdF f fn i j = v % 2 ^ (f.hi + 1 - f.lo) := by
  rw [Dev.fdF, Dev.fdSetF, Dev.setRawF_rawF_same,
    Nat.mod_eq_of_lt (bitsPut_lt _ _ _ _ _ h h64 (d.rawF_lt f.reg fn i j)), bitsOf_bitsPut_same _ _ _ _ h]

/-- Another field of the same register. -/
theorem Dev.fdSetF_fdF_field (d : Dev) (f g : Fld) (fn i j v : Nat) (h : f.lo ≤ f.hi + 1) (h64 : f.hi < 64)
    (hr : g.reg = f.reg) (hd : g.hi < f.lo ∨ f.hi < g.lo) : (d.fdSetF f fn i j v).fdF g fn i j = d.fdF g fn i j := by
  rw [Dev.fdF, Dev.fdSetF, hr, Dev.setRawF_rawF_same,
    Nat.mod_eq_of_lt (bitsPut_lt _ _ _ _ _ h h64 (d.rawF_lt f.reg fn i j)), bitsOf_bitsPut_other _ _ _ _ _ _ h hd,
    Dev.fdF, hr]

/-- A field of another register instance. -/
theorem Dev.setRawF_fdF_other (d : Dev) (r : RegName) (g : Fld) (fn fn' i i' j j' v : Nat)
    (h : regKey g.reg fn' i' j' ≠ regKey r fn i j) : (d.setRawF r fn i j v).fdF g fn' i' j' = d.fdF g fn' i' j' := by
  rw [Dev.fdF, Dev.setRawF_rawF_other _ _ _ _ _ _ _ _ _ _ h, Dev.fdF]

theorem Dev.fdSetF_fdF_other (d : Dev) (f g : Fld) (fn fn' i i' j j' v : Nat)
    (h : regKey g.reg fn' i' j' ≠ regKey f.reg fn i j) : (d.fdSetF f fn i j v).fdF g fn' i' j' = d.fdF g fn' i' j' :=
  Dev.setRawF_fdF_other _ _ _ _ _ _ _ _ _ _ h

/-- Another register. -/
theorem Dev.setRawF_rawF_ne (d : Dev) (r r' : RegName) (fn fn' i i' j j' v : Nat) (h : r' ≠ r) :
    (d.setRawF r fn i j v).rawF r' fn' i' j' = d.rawF r' fn' i' j' :=
  d.setRawF_rawF_other _ _ _ _ _ _ _ _ _ (regKey_ne _ _ _ _ _ _ _ _ h)

theorem Dev.fdSetF_rawF_ne (d : Dev) (f : Fld) (r' : RegName) (fn fn' i i' j j' v : Nat) (h : r' ≠ f.reg) :
    (d.fdSetF f fn i j v).rawF r' fn' i' j' = d.rawF r' fn' i' j' := d.setRawF_rawF_ne _ _ _ _ _ _ _ _ _ h

theorem Dev.fdSet_rawF_ne (d : Dev) (f : Fld) (r' : RegName) (fn' i i' j j' v : Nat) (h : r' ≠ f.reg) :
    (d.fdSet f i j v).rawF r' fn' i' j' = d.rawF r' fn' i' j' := d.setRawF_rawF_ne _ _ _ _ _ _ _ _ _ h

theorem Dev.countN_rawF_ne (d : Dev) (r r' : RegName) (fn' i i' j j' n : Nat) (h : r' ≠ r) :
    (d.countN r i j n).rawF r' fn' i' j' = d.rawF r' fn' i' j' := d.setRawF_rawF_ne _ _ _ _ _ _ _ _ _ h

theorem Dev.count_rawF_ne (d : Dev) (r r' : RegName) (fn' i i' j j' : Nat) (h : r' ≠ r) :
    (d.count r i j).rawF r' fn' i' j' = d.rawF r' fn' i' j' := d.setRawF_rawF_ne _ _ _ _ _ _ _ _ _ h

theorem Dev.countF_rawF_ne (d : Dev) (r r' : RegName) (fn fn' i i' j' : Nat) (h : r' ≠ r) :
    (d.countF r fn i).rawF r' fn' i' j' = d.rawF r' fn' i' j' := d.setRawF_rawF_ne _ _ _ _ _ _ _ _ _ h

/-- A counter after n events saturates (R11). -/
theorem Dev.countFN_rawF_same (d : Dev) (r : RegName) (fn i j n : Nat) :
    (d.countFN r fn i j n).rawF r fn i j = min (d.rawF r fn i j + n) 0xFFFFFFFF := by
  show (d.setRawF r fn i j _).rawF r fn i j = _
  rw [Dev.setRawF_rawF_same, Nat.mod_eq_of_lt]
  have : min (d.rawF r fn i j + n) 0xFFFFFFFF ≤ 0xFFFFFFFF := Nat.min_le_right _ _
  omega

theorem Dev.countN_rawF_same (d : Dev) (r : RegName) (i j n : Nat) :
    (d.countN r i j n).rawF r 0 i j = min (d.rawF r 0 i j + n) 0xFFFFFFFF := d.countFN_rawF_same r 0 i j n

theorem Dev.countF_rawF_same (d : Dev) (r : RegName) (fn i : Nat) :
    (d.countF r fn i).rawF r fn i 0 = min (d.rawF r fn i 0 + 1) 0xFFFFFFFF := d.countFN_rawF_same r fn i 0 1

/-! What hardware did in this core cycle (R9, R10) -/

@[simp] theorem Dev.hotAt_setHot_same (d : Dev) (k : Nat) (v : Nat × Nat) : (d.setHot k v).hotAt k = v := by
  simp [Dev.hotAt, Dev.setHot]

theorem Dev.hotAt_setHot_ne (d : Dev) (k k' : Nat) (v : Nat × Nat) (h : k' ≠ k) : (d.setHot k v).hotAt k' = d.hotAt k' := by
  simp only [Dev.hotAt, Dev.setHot]
  rw [tblGet_tblPut_ne _ _ _ _ _ _ h]

/-- A set bit of a W1C field, and what other registers hold. -/
theorem Dev.flagOr_rawF_ne (d : Dev) (f : Fld) (r' : RegName) (fn' i i' j j' v : Nat) (h : r' ≠ f.reg) :
    (d.flagOr f i j v).rawF r' fn' i' j' = d.rawF r' fn' i' j' := d.fdSet_rawF_ne f r' fn' i i' j j' _ h

theorem Dev.flagOr_fd_same (d : Dev) (f : Fld) (i j v : Nat) (h : f.lo ≤ f.hi + 1) (h64 : f.hi < 64) :
    (d.flagOr f i j v).fd f i j = (d.fd f i j ||| v) % 2 ^ (f.hi + 1 - f.lo) :=
  d.fdSetF_fdF_same f 0 i j _ h h64

end Sys2Proof.Machine
end

