-- ==== Sys2Proof/Laws/Ops.lean ====
section
/-! SUPPORT. What the shared operations can change: one lemma per field an operation leaves, and the registers it may change. -/

namespace Sys2Proof.Machine

@[simp] theorem Dev.hostWrite_cycle (d : Dev) (h a : Nat) (b : List (BitVec 8)) : (d.hostWrite h a b).cycle = d.cycle := by simp only [Dev.hostWrite]; split <;> simp
@[simp] theorem Dev.hostWrite_freeCount (d : Dev) (h a : Nat) (b : List (BitVec 8)) : (d.hostWrite h a b).freeCount = d.freeCount := by simp only [Dev.hostWrite]; split <;> simp
@[simp] theorem Dev.hostWrite_regs (d : Dev) (h a : Nat) (b : List (BitVec 8)) : (d.hostWrite h a b).regs = d.regs := by simp only [Dev.hostWrite]; split <;> simp
@[simp] theorem Dev.hostWrite_hot (d : Dev) (h a : Nat) (b : List (BitVec 8)) : (d.hostWrite h a b).hot = d.hot := by simp only [Dev.hostWrite]; split <;> simp
@[simp] theorem Dev.hostWrite_d2d (d : Dev) (h a : Nat) (b : List (BitVec 8)) : (d.hostWrite h a b).d2d = d.d2d := by simp only [Dev.hostWrite]; split <;> simp
@[simp] theorem Dev.hostWrite_ports (d : Dev) (h a : Nat) (b : List (BitVec 8)) : (d.hostWrite h a b).ports = d.ports := by simp only [Dev.hostWrite]; split <;> simp
@[simp] theorem Dev.hostWrite_fibres (d : Dev) (h a : Nat) (b : List (BitVec 8)) : (d.hostWrite h a b).fibres = d.fibres := by simp only [Dev.hostWrite]; split <;> simp
@[simp] theorem Dev.hostWrite_els (d : Dev) (h a : Nat) (b : List (BitVec 8)) : (d.hostWrite h a b).els = d.els := by simp only [Dev.hostWrite]; split <;> simp
@[simp] theorem Dev.hostWrite_links (d : Dev) (h a : Nat) (b : List (BitVec 8)) : (d.hostWrite h a b).links = d.links := by simp only [Dev.hostWrite]; split <;> simp
@[simp] theorem Dev.hostWrite_core (d : Dev) (h a : Nat) (b : List (BitVec 8)) : (d.hostWrite h a b).core = d.core := by simp only [Dev.hostWrite]; split <;> simp
@[simp] theorem Dev.hostWrite_queues (d : Dev) (h a : Nat) (b : List (BitVec 8)) : (d.hostWrite h a b).queues = d.queues := by simp only [Dev.hostWrite]; split <;> simp
@[simp] theorem Dev.hostWrite_capt (d : Dev) (h a : Nat) (b : List (BitVec 8)) : (d.hostWrite h a b).capt = d.capt := by simp only [Dev.hostWrite]; split <;> simp
@[simp] theorem Dev.hostWrite_ctxs (d : Dev) (h a : Nat) (b : List (BitVec 8)) : (d.hostWrite h a b).ctxs = d.ctxs := by simp only [Dev.hostWrite]; split <;> simp
@[simp] theorem Dev.hostWrite_tiles (d : Dev) (h a : Nat) (b : List (BitVec 8)) : (d.hostWrite h a b).tiles = d.tiles := by simp only [Dev.hostWrite]; split <;> simp
@[simp] theorem Dev.hostWrite_time (d : Dev) (h a : Nat) (b : List (BitVec 8)) : (d.hostWrite h a b).time = d.time := by simp only [Dev.hostWrite]; split <;> simp
@[simp] theorem Dev.hostWrite_bars (d : Dev) (h a : Nat) (b : List (BitVec 8)) : (d.hostWrite h a b).bars = d.bars := by simp only [Dev.hostWrite]; split <;> simp
@[simp] theorem Dev.hostWrite_fns (d : Dev) (h a : Nat) (b : List (BitVec 8)) : (d.hostWrite h a b).fns = d.fns := by simp only [Dev.hostWrite]; split <;> simp
@[simp] theorem Dev.hostWrite_accOrder (d : Dev) (h a : Nat) (b : List (BitVec 8)) : (d.hostWrite h a b).accOrder = d.accOrder := by simp only [Dev.hostWrite]; split <;> simp
@[simp] theorem Dev.hostWrite_qmr (d : Dev) (h a : Nat) (b : List (BitVec 8)) : (d.hostWrite h a b).qmr = d.qmr := by simp only [Dev.hostWrite]; split <;> simp
@[simp] theorem Dev.hostWrite_flt (d : Dev) (h a : Nat) (b : List (BitVec 8)) : (d.hostWrite h a b).flt = d.flt := by simp only [Dev.hostWrite]; split <;> simp
@[simp] theorem Dev.hostWrite_hbm (d : Dev) (h a : Nat) (b : List (BitVec 8)) : (d.hostWrite h a b).hbm = d.hbm := by simp only [Dev.hostWrite]; split <;> simp
@[simp] theorem Dev.hostWrite_sys (d : Dev) (h a : Nat) (b : List (BitVec 8)) : (d.hostWrite h a b).sys = d.sys := by simp only [Dev.hostWrite]; split <;> simp
@[simp] theorem Dev.msixSend_cycle (d : Dev) (h v : Nat) : (d.msixSend h v).cycle = d.cycle := by simp only [Dev.msixSend]; split <;> simp
@[simp] theorem Dev.msixSend_freeCount (d : Dev) (h v : Nat) : (d.msixSend h v).freeCount = d.freeCount := by simp only [Dev.msixSend]; split <;> simp
@[simp] theorem Dev.msixSend_regs (d : Dev) (h v : Nat) : (d.msixSend h v).regs = d.regs := by simp only [Dev.msixSend]; split <;> simp
@[simp] theorem Dev.msixSend_hot (d : Dev) (h v : Nat) : (d.msixSend h v).hot = d.hot := by simp only [Dev.msixSend]; split <;> simp
@[simp] theorem Dev.msixSend_d2d (d : Dev) (h v : Nat) : (d.msixSend h v).d2d = d.d2d := by simp only [Dev.msixSend]; split <;> simp
@[simp] theorem Dev.msixSend_ports (d : Dev) (h v : Nat) : (d.msixSend h v).ports = d.ports := by simp only [Dev.msixSend]; split <;> simp
@[simp] theorem Dev.msixSend_fibres (d : Dev) (h v : Nat) : (d.msixSend h v).fibres = d.fibres := by simp only [Dev.msixSend]; split <;> simp
@[simp] theorem Dev.msixSend_els (d : Dev) (h v : Nat) : (d.msixSend h v).els = d.els := by simp only [Dev.msixSend]; split <;> simp
@[simp] theorem Dev.msixSend_links (d : Dev) (h v : Nat) : (d.msixSend h v).links = d.links := by simp only [Dev.msixSend]; split <;> simp
@[simp] theorem Dev.msixSend_core (d : Dev) (h v : Nat) : (d.msixSend h v).core = d.core := by simp only [Dev.msixSend]; split <;> simp
@[simp] theorem Dev.msixSend_queues (d : Dev) (h v : Nat) : (d.msixSend h v).queues = d.queues := by simp only [Dev.msixSend]; split <;> simp
@[simp] theorem Dev.msixSend_capt (d : Dev) (h v : Nat) : (d.msixSend h v).capt = d.capt := by simp only [Dev.msixSend]; split <;> simp
@[simp] theorem Dev.msixSend_ctxs (d : Dev) (h v : Nat) : (d.msixSend h v).ctxs = d.ctxs := by simp only [Dev.msixSend]; split <;> simp
@[simp] theorem Dev.msixSend_tiles (d : Dev) (h v : Nat) : (d.msixSend h v).tiles = d.tiles := by simp only [Dev.msixSend]; split <;> simp
@[simp] theorem Dev.msixSend_time (d : Dev) (h v : Nat) : (d.msixSend h v).time = d.time := by simp only [Dev.msixSend]; split <;> simp
@[simp] theorem Dev.msixSend_bars (d : Dev) (h v : Nat) : (d.msixSend h v).bars = d.bars := by simp only [Dev.msixSend]; split <;> simp
@[simp] theorem Dev.msixSend_fns (d : Dev) (h v : Nat) : (d.msixSend h v).fns = d.fns := by simp only [Dev.msixSend]; split <;> simp
@[simp] theorem Dev.msixSend_accOrder (d : Dev) (h v : Nat) : (d.msixSend h v).accOrder = d.accOrder := by simp only [Dev.msixSend]; split <;> simp
@[simp] theorem Dev.msixSend_qmr (d : Dev) (h v : Nat) : (d.msixSend h v).qmr = d.qmr := by simp only [Dev.msixSend]; split <;> simp
@[simp] theorem Dev.msixSend_flt (d : Dev) (h v : Nat) : (d.msixSend h v).flt = d.flt := by simp only [Dev.msixSend]; split <;> simp
@[simp] theorem Dev.msixSend_hbm (d : Dev) (h v : Nat) : (d.msixSend h v).hbm = d.hbm := by simp only [Dev.msixSend]; split <;> simp
@[simp] theorem Dev.msixSend_sys (d : Dev) (h v : Nat) : (d.msixSend h v).sys = d.sys := by simp only [Dev.msixSend]; split <;> simp
@[simp] theorem Dev.sbWrite_cycle (d : Dev) (h o : Nat) (b : List (BitVec 8)) : (d.sbWrite h o b).cycle = d.cycle := by simp only [Dev.sbWrite]; split <;> simp
@[simp] theorem Dev.sbWrite_freeCount (d : Dev) (h o : Nat) (b : List (BitVec 8)) : (d.sbWrite h o b).freeCount = d.freeCount := by simp only [Dev.sbWrite]; split <;> simp
@[simp] theorem Dev.sbWrite_regs (d : Dev) (h o : Nat) (b : List (BitVec 8)) : (d.sbWrite h o b).regs = d.regs := by simp only [Dev.sbWrite]; split <;> simp
@[simp] theorem Dev.sbWrite_hot (d : Dev) (h o : Nat) (b : List (BitVec 8)) : (d.sbWrite h o b).hot = d.hot := by simp only [Dev.sbWrite]; split <;> simp
@[simp] theorem Dev.sbWrite_d2d (d : Dev) (h o : Nat) (b : List (BitVec 8)) : (d.sbWrite h o b).d2d = d.d2d := by simp only [Dev.sbWrite]; split <;> simp
@[simp] theorem Dev.sbWrite_ports (d : Dev) (h o : Nat) (b : List (BitVec 8)) : (d.sbWrite h o b).ports = d.ports := by simp only [Dev.sbWrite]; split <;> simp
@[simp] theorem Dev.sbWrite_fibres (d : Dev) (h o : Nat) (b : List (BitVec 8)) : (d.sbWrite h o b).fibres = d.fibres := by simp only [Dev.sbWrite]; split <;> simp
@[simp] theorem Dev.sbWrite_els (d : Dev) (h o : Nat) (b : List (BitVec 8)) : (d.sbWrite h o b).els = d.els := by simp only [Dev.sbWrite]; split <;> simp
@[simp] theorem Dev.sbWrite_links (d : Dev) (h o : Nat) (b : List (BitVec 8)) : (d.sbWrite h o b).links = d.links := by simp only [Dev.sbWrite]; split <;> simp
@[simp] theorem Dev.sbWrite_core (d : Dev) (h o : Nat) (b : List (BitVec 8)) : (d.sbWrite h o b).core = d.core := by simp only [Dev.sbWrite]; split <;> simp
@[simp] theorem Dev.sbWrite_queues (d : Dev) (h o : Nat) (b : List (BitVec 8)) : (d.sbWrite h o b).queues = d.queues := by simp only [Dev.sbWrite]; split <;> simp
@[simp] theorem Dev.sbWrite_capt (d : Dev) (h o : Nat) (b : List (BitVec 8)) : (d.sbWrite h o b).capt = d.capt := by simp only [Dev.sbWrite]; split <;> simp
@[simp] theorem Dev.sbWrite_ctxs (d : Dev) (h o : Nat) (b : List (BitVec 8)) : (d.sbWrite h o b).ctxs = d.ctxs := by simp only [Dev.sbWrite]; split <;> simp
@[simp] theorem Dev.sbWrite_tiles (d : Dev) (h o : Nat) (b : List (BitVec 8)) : (d.sbWrite h o b).tiles = d.tiles := by simp only [Dev.sbWrite]; split <;> simp
@[simp] theorem Dev.sbWrite_time (d : Dev) (h o : Nat) (b : List (BitVec 8)) : (d.sbWrite h o b).time = d.time := by simp only [Dev.sbWrite]; split <;> simp
@[simp] theorem Dev.sbWrite_bars (d : Dev) (h o : Nat) (b : List (BitVec 8)) : (d.sbWrite h o b).bars = d.bars := by simp only [Dev.sbWrite]; split <;> simp
@[simp] theorem Dev.sbWrite_fns (d : Dev) (h o : Nat) (b : List (BitVec 8)) : (d.sbWrite h o b).fns = d.fns := by simp only [Dev.sbWrite]; split <;> simp
@[simp] theorem Dev.sbWrite_accOrder (d : Dev) (h o : Nat) (b : List (BitVec 8)) : (d.sbWrite h o b).accOrder = d.accOrder := by simp only [Dev.sbWrite]; split <;> simp
@[simp] theorem Dev.sbWrite_qmr (d : Dev) (h o : Nat) (b : List (BitVec 8)) : (d.sbWrite h o b).qmr = d.qmr := by simp only [Dev.sbWrite]; split <;> simp
@[simp] theorem Dev.sbWrite_flt (d : Dev) (h o : Nat) (b : List (BitVec 8)) : (d.sbWrite h o b).flt = d.flt := by simp only [Dev.sbWrite]; split <;> simp
@[simp] theorem Dev.sbWrite_hbm (d : Dev) (h o : Nat) (b : List (BitVec 8)) : (d.sbWrite h o b).hbm = d.hbm := by simp only [Dev.sbWrite]; split <;> simp
@[simp] theorem Dev.sbWrite_sys (d : Dev) (h o : Nat) (b : List (BitVec 8)) : (d.sbWrite h o b).sys = d.sys := by simp only [Dev.sbWrite]; split <;> simp
@[simp] theorem Dev.updEq_cycle (d : Dev) (h e : Nat) (g : EqSt → EqSt) : (d.updEq h e g).cycle = d.cycle := by simp [Dev.updEq]
@[simp] theorem Dev.updEq_freeCount (d : Dev) (h e : Nat) (g : EqSt → EqSt) : (d.updEq h e g).freeCount = d.freeCount := by simp [Dev.updEq]
@[simp] theorem Dev.updEq_out (d : Dev) (h e : Nat) (g : EqSt → EqSt) : (d.updEq h e g).out = d.out := by simp [Dev.updEq]
@[simp] theorem Dev.updEq_regs (d : Dev) (h e : Nat) (g : EqSt → EqSt) : (d.updEq h e g).regs = d.regs := by simp [Dev.updEq]
@[simp] theorem Dev.updEq_hot (d : Dev) (h e : Nat) (g : EqSt → EqSt) : (d.updEq h e g).hot = d.hot := by simp [Dev.updEq]
@[simp] theorem Dev.updEq_d2d (d : Dev) (h e : Nat) (g : EqSt → EqSt) : (d.updEq h e g).d2d = d.d2d := by simp [Dev.updEq]
@[simp] theorem Dev.updEq_ports (d : Dev) (h e : Nat) (g : EqSt → EqSt) : (d.updEq h e g).ports = d.ports := by simp [Dev.updEq]
@[simp] theorem Dev.updEq_fibres (d : Dev) (h e : Nat) (g : EqSt → EqSt) : (d.updEq h e g).fibres = d.fibres := by simp [Dev.updEq]
@[simp] theorem Dev.updEq_els (d : Dev) (h e : Nat) (g : EqSt → EqSt) : (d.updEq h e g).els = d.els := by simp [Dev.updEq]
@[simp] theorem Dev.updEq_links (d : Dev) (h e : Nat) (g : EqSt → EqSt) : (d.updEq h e g).links = d.links := by simp [Dev.updEq]
@[simp] theorem Dev.updEq_core (d : Dev) (h e : Nat) (g : EqSt → EqSt) : (d.updEq h e g).core = d.core := by simp [Dev.updEq]
@[simp] theorem Dev.updEq_queues (d : Dev) (h e : Nat) (g : EqSt → EqSt) : (d.updEq h e g).queues = d.queues := by simp [Dev.updEq]
@[simp] theorem Dev.updEq_capt (d : Dev) (h e : Nat) (g : EqSt → EqSt) : (d.updEq h e g).capt = d.capt := by simp [Dev.updEq]
@[simp] theorem Dev.updEq_ctxs (d : Dev) (h e : Nat) (g : EqSt → EqSt) : (d.updEq h e g).ctxs = d.ctxs := by simp [Dev.updEq]
@[simp] theorem Dev.updEq_tiles (d : Dev) (h e : Nat) (g : EqSt → EqSt) : (d.updEq h e g).tiles = d.tiles := by simp [Dev.updEq]
@[simp] theorem Dev.updEq_time (d : Dev) (h e : Nat) (g : EqSt → EqSt) : (d.updEq h e g).time = d.time := by simp [Dev.updEq]
@[simp] theorem Dev.updEq_bars (d : Dev) (h e : Nat) (g : EqSt → EqSt) : (d.updEq h e g).bars = d.bars := by simp [Dev.updEq]
@[simp] theorem Dev.updEq_accOrder (d : Dev) (h e : Nat) (g : EqSt → EqSt) : (d.updEq h e g).accOrder = d.accOrder := by simp [Dev.updEq]
@[simp] theorem Dev.updEq_qmr (d : Dev) (h e : Nat) (g : EqSt → EqSt) : (d.updEq h e g).qmr = d.qmr := by simp [Dev.updEq]
@[simp] theorem Dev.updEq_flt (d : Dev) (h e : Nat) (g : EqSt → EqSt) : (d.updEq h e g).flt = d.flt := by simp [Dev.updEq]
@[simp] theorem Dev.updEq_hbm (d : Dev) (h e : Nat) (g : EqSt → EqSt) : (d.updEq h e g).hbm = d.hbm := by simp [Dev.updEq]
@[simp] theorem Dev.updEq_sys (d : Dev) (h e : Nat) (g : EqSt → EqSt) : (d.updEq h e g).sys = d.sys := by simp [Dev.updEq]
@[simp] theorem Dev.eqSignal_cycle (d : Dev) (h e : Nat) : (d.eqSignal h e).cycle = d.cycle := by simp only [Dev.eqSignal]; split <;> simp
@[simp] theorem Dev.eqSignal_freeCount (d : Dev) (h e : Nat) : (d.eqSignal h e).freeCount = d.freeCount := by simp only [Dev.eqSignal]; split <;> simp
@[simp] theorem Dev.eqSignal_regs (d : Dev) (h e : Nat) : (d.eqSignal h e).regs = d.regs := by simp only [Dev.eqSignal]; split <;> simp
@[simp] theorem Dev.eqSignal_hot (d : Dev) (h e : Nat) : (d.eqSignal h e).hot = d.hot := by simp only [Dev.eqSignal]; split <;> simp
@[simp] theorem Dev.eqSignal_d2d (d : Dev) (h e : Nat) : (d.eqSignal h e).d2d = d.d2d := by simp only [Dev.eqSignal]; split <;> simp
@[simp] theorem Dev.eqSignal_ports (d : Dev) (h e : Nat) : (d.eqSignal h e).ports = d.ports := by simp only [Dev.eqSignal]; split <;> simp
@[simp] theorem Dev.eqSignal_fibres (d : Dev) (h e : Nat) : (d.eqSignal h e).fibres = d.fibres := by simp only [Dev.eqSignal]; split <;> simp
@[simp] theorem Dev.eqSignal_els (d : Dev) (h e : Nat) : (d.eqSignal h e).els = d.els := by simp only [Dev.eqSignal]; split <;> simp
@[simp] theorem Dev.eqSignal_links (d : Dev) (h e : Nat) : (d.eqSignal h e).links = d.links := by simp only [Dev.eqSignal]; split <;> simp
@[simp] theorem Dev.eqSignal_core (d : Dev) (h e : Nat) : (d.eqSignal h e).core = d.core := by simp only [Dev.eqSignal]; split <;> simp
@[simp] theorem Dev.eqSignal_queues (d : Dev) (h e : Nat) : (d.eqSignal h e).queues = d.queues := by simp only [Dev.eqSignal]; split <;> simp
@[simp] theorem Dev.eqSignal_capt (d : Dev) (h e : Nat) : (d.eqSignal h e).capt = d.capt := by simp only [Dev.eqSignal]; split <;> simp
@[simp] theorem Dev.eqSignal_ctxs (d : Dev) (h e : Nat) : (d.eqSignal h e).ctxs = d.ctxs := by simp only [Dev.eqSignal]; split <;> simp
@[simp] theorem Dev.eqSignal_tiles (d : Dev) (h e : Nat) : (d.eqSignal h e).tiles = d.tiles := by simp only [Dev.eqSignal]; split <;> simp
@[simp] theorem Dev.eqSignal_time (d : Dev) (h e : Nat) : (d.eqSignal h e).time = d.time := by simp only [Dev.eqSignal]; split <;> simp
@[simp] theorem Dev.eqSignal_bars (d : Dev) (h e : Nat) : (d.eqSignal h e).bars = d.bars := by simp only [Dev.eqSignal]; split <;> simp
@[simp] theorem Dev.eqSignal_accOrder (d : Dev) (h e : Nat) : (d.eqSignal h e).accOrder = d.accOrder := by simp only [Dev.eqSignal]; split <;> simp
@[simp] theorem Dev.eqSignal_qmr (d : Dev) (h e : Nat) : (d.eqSignal h e).qmr = d.qmr := by simp only [Dev.eqSignal]; split <;> simp
@[simp] theorem Dev.eqSignal_flt (d : Dev) (h e : Nat) : (d.eqSignal h e).flt = d.flt := by simp only [Dev.eqSignal]; split <;> simp
@[simp] theorem Dev.eqSignal_hbm (d : Dev) (h e : Nat) : (d.eqSignal h e).hbm = d.hbm := by simp only [Dev.eqSignal]; split <;> simp
@[simp] theorem Dev.eqSignal_sys (d : Dev) (h e : Nat) : (d.eqSignal h e).sys = d.sys := by simp only [Dev.eqSignal]; split <;> simp
@[simp] theorem Dev.postTo_cycle (d : Dev) (h : Nat) (e : Evt) : (d.postTo h e).cycle = d.cycle := by simp only [Dev.postTo]; split <;> simp
@[simp] theorem Dev.postTo_freeCount (d : Dev) (h : Nat) (e : Evt) : (d.postTo h e).freeCount = d.freeCount := by simp only [Dev.postTo]; split <;> simp
@[simp] theorem Dev.postTo_d2d (d : Dev) (h : Nat) (e : Evt) : (d.postTo h e).d2d = d.d2d := by simp only [Dev.postTo]; split <;> simp
@[simp] theorem Dev.postTo_ports (d : Dev) (h : Nat) (e : Evt) : (d.postTo h e).ports = d.ports := by simp only [Dev.postTo]; split <;> simp
@[simp] theorem Dev.postTo_fibres (d : Dev) (h : Nat) (e : Evt) : (d.postTo h e).fibres = d.fibres := by simp only [Dev.postTo]; split <;> simp
@[simp] theorem Dev.postTo_els (d : Dev) (h : Nat) (e : Evt) : (d.postTo h e).els = d.els := by simp only [Dev.postTo]; split <;> simp
@[simp] theorem Dev.postTo_links (d : Dev) (h : Nat) (e : Evt) : (d.postTo h e).links = d.links := by simp only [Dev.postTo]; split <;> simp
@[simp] theorem Dev.postTo_core (d : Dev) (h : Nat) (e : Evt) : (d.postTo h e).core = d.core := by simp only [Dev.postTo]; split <;> simp
@[simp] theorem Dev.postTo_queues (d : Dev) (h : Nat) (e : Evt) : (d.postTo h e).queues = d.queues := by simp only [Dev.postTo]; split <;> simp
@[simp] theorem Dev.postTo_capt (d : Dev) (h : Nat) (e : Evt) : (d.postTo h e).capt = d.capt := by simp only [Dev.postTo]; split <;> simp
@[simp] theorem Dev.postTo_ctxs (d : Dev) (h : Nat) (e : Evt) : (d.postTo h e).ctxs = d.ctxs := by simp only [Dev.postTo]; split <;> simp
@[simp] theorem Dev.postTo_tiles (d : Dev) (h : Nat) (e : Evt) : (d.postTo h e).tiles = d.tiles := by simp only [Dev.postTo]; split <;> simp
@[simp] theorem Dev.postTo_time (d : Dev) (h : Nat) (e : Evt) : (d.postTo h e).time = d.time := by simp only [Dev.postTo]; split <;> simp
@[simp] theorem Dev.postTo_bars (d : Dev) (h : Nat) (e : Evt) : (d.postTo h e).bars = d.bars := by simp only [Dev.postTo]; split <;> simp
@[simp] theorem Dev.postTo_accOrder (d : Dev) (h : Nat) (e : Evt) : (d.postTo h e).accOrder = d.accOrder := by simp only [Dev.postTo]; split <;> simp
@[simp] theorem Dev.postTo_qmr (d : Dev) (h : Nat) (e : Evt) : (d.postTo h e).qmr = d.qmr := by simp only [Dev.postTo]; split <;> simp
@[simp] theorem Dev.postTo_flt (d : Dev) (h : Nat) (e : Evt) : (d.postTo h e).flt = d.flt := by simp only [Dev.postTo]; split <;> simp
@[simp] theorem Dev.postTo_hbm (d : Dev) (h : Nat) (e : Evt) : (d.postTo h e).hbm = d.hbm := by simp only [Dev.postTo]; split <;> simp
@[simp] theorem Dev.postTo_sys (d : Dev) (h : Nat) (e : Evt) : (d.postTo h e).sys = d.sys := by simp only [Dev.postTo]; split <;> simp
@[simp] theorem Dev.srcPush_cycle (d : Dev) (s : Source) (f : Flit) (n : Nat) : (d.srcPush s f n).cycle = d.cycle := by simp [Dev.srcPush]
@[simp] theorem Dev.srcPush_freeCount (d : Dev) (s : Source) (f : Flit) (n : Nat) : (d.srcPush s f n).freeCount = d.freeCount := by simp [Dev.srcPush]
@[simp] theorem Dev.srcPush_out (d : Dev) (s : Source) (f : Flit) (n : Nat) : (d.srcPush s f n).out = d.out := by simp [Dev.srcPush]
@[simp] theorem Dev.srcPush_regs (d : Dev) (s : Source) (f : Flit) (n : Nat) : (d.srcPush s f n).regs = d.regs := by simp [Dev.srcPush]
@[simp] theorem Dev.srcPush_hot (d : Dev) (s : Source) (f : Flit) (n : Nat) : (d.srcPush s f n).hot = d.hot := by simp [Dev.srcPush]
@[simp] theorem Dev.srcPush_d2d (d : Dev) (s : Source) (f : Flit) (n : Nat) : (d.srcPush s f n).d2d = d.d2d := by simp [Dev.srcPush]
@[simp] theorem Dev.srcPush_ports (d : Dev) (s : Source) (f : Flit) (n : Nat) : (d.srcPush s f n).ports = d.ports := by simp [Dev.srcPush]
@[simp] theorem Dev.srcPush_fibres (d : Dev) (s : Source) (f : Flit) (n : Nat) : (d.srcPush s f n).fibres = d.fibres := by simp [Dev.srcPush]
@[simp] theorem Dev.srcPush_els (d : Dev) (s : Source) (f : Flit) (n : Nat) : (d.srcPush s f n).els = d.els := by simp [Dev.srcPush]
@[simp] theorem Dev.srcPush_links (d : Dev) (s : Source) (f : Flit) (n : Nat) : (d.srcPush s f n).links = d.links := by simp [Dev.srcPush]
@[simp] theorem Dev.srcPush_queues (d : Dev) (s : Source) (f : Flit) (n : Nat) : (d.srcPush s f n).queues = d.queues := by simp [Dev.srcPush]
@[simp] theorem Dev.srcPush_capt (d : Dev) (s : Source) (f : Flit) (n : Nat) : (d.srcPush s f n).capt = d.capt := by simp [Dev.srcPush]
@[simp] theorem Dev.srcPush_ctxs (d : Dev) (s : Source) (f : Flit) (n : Nat) : (d.srcPush s f n).ctxs = d.ctxs := by simp [Dev.srcPush]
@[simp] theorem Dev.srcPush_tiles (d : Dev) (s : Source) (f : Flit) (n : Nat) : (d.srcPush s f n).tiles = d.tiles := by simp [Dev.srcPush]
@[simp] theorem Dev.srcPush_time (d : Dev) (s : Source) (f : Flit) (n : Nat) : (d.srcPush s f n).time = d.time := by simp [Dev.srcPush]
@[simp] theorem Dev.srcPush_bars (d : Dev) (s : Source) (f : Flit) (n : Nat) : (d.srcPush s f n).bars = d.bars := by simp [Dev.srcPush]
@[simp] theorem Dev.srcPush_fns (d : Dev) (s : Source) (f : Flit) (n : Nat) : (d.srcPush s f n).fns = d.fns := by simp [Dev.srcPush]
@[simp] theorem Dev.srcPush_accOrder (d : Dev) (s : Source) (f : Flit) (n : Nat) : (d.srcPush s f n).accOrder = d.accOrder := by simp [Dev.srcPush]
@[simp] theorem Dev.srcPush_qmr (d : Dev) (s : Source) (f : Flit) (n : Nat) : (d.srcPush s f n).qmr = d.qmr := by simp [Dev.srcPush]
@[simp] theorem Dev.srcPush_flt (d : Dev) (s : Source) (f : Flit) (n : Nat) : (d.srcPush s f n).flt = d.flt := by simp [Dev.srcPush]
@[simp] theorem Dev.srcPush_hbm (d : Dev) (s : Source) (f : Flit) (n : Nat) : (d.srcPush s f n).hbm = d.hbm := by simp [Dev.srcPush]
@[simp] theorem Dev.srcPush_sys (d : Dev) (s : Source) (f : Flit) (n : Nat) : (d.srcPush s f n).sys = d.sys := by simp [Dev.srcPush]
@[simp] theorem Dev.report_cycle (d : Dev) (e : Evt) : (d.report e).cycle = d.cycle := by simp only [Dev.report]; split <;> simp
@[simp] theorem Dev.report_freeCount (d : Dev) (e : Evt) : (d.report e).freeCount = d.freeCount := by simp only [Dev.report]; split <;> simp
@[simp] theorem Dev.report_out (d : Dev) (e : Evt) : (d.report e).out = d.out := by simp only [Dev.report]; split <;> simp
@[simp] theorem Dev.report_regs (d : Dev) (e : Evt) : (d.report e).regs = d.regs := by simp only [Dev.report]; split <;> simp
@[simp] theorem Dev.report_hot (d : Dev) (e : Evt) : (d.report e).hot = d.hot := by simp only [Dev.report]; split <;> simp
@[simp] theorem Dev.report_d2d (d : Dev) (e : Evt) : (d.report e).d2d = d.d2d := by simp only [Dev.report]; split <;> simp
@[simp] theorem Dev.report_ports (d : Dev) (e : Evt) : (d.report e).ports = d.ports := by simp only [Dev.report]; split <;> simp
@[simp] theorem Dev.report_fibres (d : Dev) (e : Evt) : (d.report e).fibres = d.fibres := by simp only [Dev.report]; split <;> simp
@[simp] theorem Dev.report_els (d : Dev) (e : Evt) : (d.report e).els = d.els := by simp only [Dev.report]; split <;> simp
@[simp] theorem Dev.report_links (d : Dev) (e : Evt) : (d.report e).links = d.links := by simp only [Dev.report]; split <;> simp
@[simp] theorem Dev.report_queues (d : Dev) (e : Evt) : (d.report e).queues = d.queues := by simp only [Dev.report]; split <;> simp
@[simp] theorem Dev.report_capt (d : Dev) (e : Evt) : (d.report e).capt = d.capt := by simp only [Dev.report]; split <;> simp
@[simp] theorem Dev.report_ctxs (d : Dev) (e : Evt) : (d.report e).ctxs = d.ctxs := by simp only [Dev.report]; split <;> simp
@[simp] theorem Dev.report_tiles (d : Dev) (e : Evt) : (d.report e).tiles = d.tiles := by simp only [Dev.report]; split <;> simp
@[simp] theorem Dev.report_time (d : Dev) (e : Evt) : (d.report e).time = d.time := by simp only [Dev.report]; split <;> simp
@[simp] theorem Dev.report_bars (d : Dev) (e : Evt) : (d.report e).bars = d.bars := by simp only [Dev.report]; split <;> simp
@[simp] theorem Dev.report_fns (d : Dev) (e : Evt) : (d.report e).fns = d.fns := by simp only [Dev.report]; split <;> simp
@[simp] theorem Dev.report_accOrder (d : Dev) (e : Evt) : (d.report e).accOrder = d.accOrder := by simp only [Dev.report]; split <;> simp
@[simp] theorem Dev.report_qmr (d : Dev) (e : Evt) : (d.report e).qmr = d.qmr := by simp only [Dev.report]; split <;> simp
@[simp] theorem Dev.report_hbm (d : Dev) (e : Evt) : (d.report e).hbm = d.hbm := by simp only [Dev.report]; split <;> simp
@[simp] theorem Dev.report_sys (d : Dev) (e : Evt) : (d.report e).sys = d.sys := by simp only [Dev.report]; split <;> simp
@[simp] theorem Dev.post_cycle (d : Dev) (e : Evt) : (d.post e).cycle = d.cycle := by simp only [Dev.post, Dev.report_cycle]; split <;> simp
@[simp] theorem Dev.post_freeCount (d : Dev) (e : Evt) : (d.post e).freeCount = d.freeCount := by simp only [Dev.post, Dev.report_freeCount]; split <;> simp
@[simp] theorem Dev.post_d2d (d : Dev) (e : Evt) : (d.post e).d2d = d.d2d := by simp only [Dev.post, Dev.report_d2d]; split <;> simp
@[simp] theorem Dev.post_ports (d : Dev) (e : Evt) : (d.post e).ports = d.ports := by simp only [Dev.post, Dev.report_ports]; split <;> simp
@[simp] theorem Dev.post_fibres (d : Dev) (e : Evt) : (d.post e).fibres = d.fibres := by simp only [Dev.post, Dev.report_fibres]; split <;> simp
@[simp] theorem Dev.post_els (d : Dev) (e : Evt) : (d.post e).els = d.els := by simp only [Dev.post, Dev.report_els]; split <;> simp
@[simp] theorem Dev.post_links (d : Dev) (e : Evt) : (d.post e).links = d.links := by simp only [Dev.post, Dev.report_links]; split <;> simp
@[simp] theorem Dev.post_queues (d : Dev) (e : Evt) : (d.post e).queues = d.queues := by simp only [Dev.post, Dev.report_queues]; split <;> simp
@[simp] theorem Dev.post_capt (d : Dev) (e : Evt) : (d.post e).capt = d.capt := by simp only [Dev.post, Dev.report_capt]; split <;> simp
@[simp] theorem Dev.post_ctxs (d : Dev) (e : Evt) : (d.post e).ctxs = d.ctxs := by simp only [Dev.post, Dev.report_ctxs]; split <;> simp
@[simp] theorem Dev.post_tiles (d : Dev) (e : Evt) : (d.post e).tiles = d.tiles := by simp only [Dev.post, Dev.report_tiles]; split <;> simp
@[simp] theorem Dev.post_time (d : Dev) (e : Evt) : (d.post e).time = d.time := by simp only [Dev.post, Dev.report_time]; split <;> simp
@[simp] theorem Dev.post_bars (d : Dev) (e : Evt) : (d.post e).bars = d.bars := by simp only [Dev.post, Dev.report_bars]; split <;> simp
@[simp] theorem Dev.post_accOrder (d : Dev) (e : Evt) : (d.post e).accOrder = d.accOrder := by simp only [Dev.post, Dev.report_accOrder]; split <;> simp
@[simp] theorem Dev.post_qmr (d : Dev) (e : Evt) : (d.post e).qmr = d.qmr := by simp only [Dev.post, Dev.report_qmr]; split <;> simp
@[simp] theorem Dev.post_hbm (d : Dev) (e : Evt) : (d.post e).hbm = d.hbm := by simp only [Dev.post, Dev.report_hbm]; split <;> simp
@[simp] theorem Dev.post_sys (d : Dev) (e : Evt) : (d.post e).sys = d.sys := by simp only [Dev.post, Dev.report_sys]; split <;> simp

/-! Registers -/

theorem sameRegsBut_refl (l : List RegName) (a : Dev) : sameRegsBut l a a := fun _ _ _ _ _ => rfl

theorem sameRegsBut_trans {l : List RegName} {a b c : Dev} (h : sameRegsBut l a b) (k : sameRegsBut l b c) :
    sameRegsBut l a c := fun r fn i j hr => (k r fn i j hr).trans (h r fn i j hr)

theorem sameRegsBut_mono {l m : List RegName} {a b : Dev} (h : sameRegsBut l a b) (hs : ∀ r ∈ l, r ∈ m) :
    sameRegsBut m a b := fun r fn i j hr => h r fn i j fun x => hr (hs r x)

/-- Devices with one register file. -/
theorem sameRegsBut_of_regs {l : List RegName} {a b : Dev} (h : b.regs = a.regs) : sameRegsBut l a b :=
  fun r fn i j _ => by simp only [Dev.rawF, h]

theorem sameRegsBut_setRawF {l : List RegName} (d : Dev) (r : RegName) (fn i j v : Nat) (h : r ∈ l) :
    sameRegsBut l d (d.setRawF r fn i j v) :=
  fun _ _ _ _ hr => d.setRawF_rawF_ne _ _ _ _ _ _ _ _ _ fun e => hr (e ▸ h)

theorem Dev.postTo_regs (d : Dev) (h : Nat) (e : Evt) : sameRegsBut [.HOST_EVT_DROP_CNT] d (d.postTo h e) := by
  simp only [Dev.postTo]
  split
  · exact sameRegsBut_of_regs (by simp)
  · exact fun r fn i j hr => by
      rw [Dev.countF_rawF_ne _ _ _ _ _ _ _ _ (by simpa using hr)]; simp [Dev.rawF]

/-- An event counts at most as lost. -/
theorem Dev.post_regs (d : Dev) (e : Evt) : sameRegsBut [.HOST_EVT_DROP_CNT] d (d.post e) := by
  intro r fn i j hr
  have h : ∀ d : Dev, (d.report e).rawF r fn i j = d.rawF r fn i j := fun d => by simp [Dev.rawF]
  simp only [Dev.post]
  rw [h]
  split
  · exact d.postTo_regs _ e r fn i j hr
  · rfl

end Sys2Proof.Machine
end

