-- ==== Sys2Proof/Tests/Slice0.lean ====
section
/-! SUPPORT. The model's own tests: ill-formed commands are refused by name of their check, small states meet the
hypotheses of every statement, clause by clause (test_hyp_…), and single steps give what the spec's rules say
(test_…). -/

namespace Sys2Proof.Tests

set_option Elab.async false

open Sys2Proof.Machine

/-- The device after reset, changed by f. -/
def dev (f : Dev → Dev) : State := { State.reset with dev := f State.reset.dev }

/-- A state changed in its device. -/
def on (s : State) (f : Dev → Dev) : State := { s with dev := f s.dev }

/-- The state after a command; the state itself where it has no next. -/
def after (c : Instr) (s : State) : State :=
  match exec c s with
  | .next t => t
  | _ => s

/-- Port 3 in a state, with link l. -/
def portAt (st : PortState) (x : PortSt) (l : LinkSt) : State :=
  dev fun d => (d.updPort 3 fun _ => { x with state := st }).updLink 3 fun _ => l

/-! The stated rules -/

def heldTwo : List SentFlit :=
  [{ flit := { Flit.idle with lseq := 3 }, stomped := false, cell := none },
   { flit := { Flit.idle with lseq := 4 }, stomped := false, cell := none }]

/-- An ACTIVE link that holds LSEQ 3 and 4, was asked for LSEQ 4, and has replayed 15 times without progress. -/
def nakLink : LinkSt :=
  { LinkSt.reset with lstate := .active, txNext := 5, replayList := heldTwo, lcVal := 0x1004, lcCount := 1, consec := 15 }

def fullLink : LinkSt :=
  { LinkSt.reset with lstate := .active, replayList := List.replicate 2048 { flit := Flit.idle, stomped := false, cell := none } }

def s05_nak : State := portAt .up PortSt.reset nakLink
def s05_full : State := portAt .up PortSt.reset fullLink
def s05_limit : State := portAt .degraded PortSt.reset { nakLink with consec := 16 }
def s05_restripe : State := portAt .restripe PortSt.reset LinkSt.reset
def l05 : List State := [s05_nak, s05_full, s05_limit, s05_restripe]

theorem test_hyp_NoProgressRetrainsThePort :
    (s05_nak.dev.coreUp = true ∧ (s05_nak.dev.link 3).accepted (0x1000 + 4) = true ∧
      (s05_nak.dev.link 3).lstate = .active ∧ steerBusy (s05_nak.dev.port 3).txSteer = false ∧ subMod 4096 4 (subMod 4096 5 2) < (s05_nak.dev.link 3).replayList.length ∧
      (s05_nak.dev.link 3).consec < 16) ∧
    (2048 ≤ (s05_full.dev.link 3).replayList.length ∧ (s05_full.dev.link 3).cursor = none ∧
      (s05_full.dev.link 3).lstate = .active) ∧
    (16 ≤ (s05_limit.dev.link 3).consec ∧ (s05_limit.dev.port 3).state = .degraded) ∧
    (s05_restripe.dev.port 3).state = .restripe := by
  decide +kernel

/-- A flit of partition 1, which the reset value of CORE_PORT_PART does not carry. -/
def part1 : Flit := { Flit.idle with type := 1, part := 1 }

theorem test_hyp_GroupAndPartitionRegisters :
    part1.type.toNat < 6 ∧ (Dev.reset.rawF .CORE_PORT_PART 0 255 0).testBit part1.part.toNat = false ∧
    (Dev.reset.rawF .CORE_PORT_PART 0 255 0).testBit 0 = true ∧ Dev.reset.portLicensed 127 = true := by
  decide +kernel

/-- A word from its fields, each with its lowest bit. -/
def word (l : List (Nat × Nat)) : BitVec 128 := BitVec.ofNat 128 (l.map fun e => e.2 * 2 ^ e.1).sum

/-- A run of context 5 on tile 2, at address pc. -/
def runAt (pc : Nat) : RunSt := { State.reset.dev.freshRun 2 5 with pc := pc, cc := 10 }

/-- Tile 2 with run r at word w, of an OPEN context 5 of tile 2. -/
def running (r : RunSt) (w : BitVec 128) : State :=
  dev fun d => (d.updTile 2 fun t => { t with pmem := tblPut 0 r.pc w t.pmem, run := some r }).updCtx 5 fun c =>
    { c with state := .open_, tile := 2, slot := some 0 }

def jumpW : BitVec 128 := word [(124, 1), (112, 0x123)]
def brtW : BitVec 128 := word [(124, 2), (112, 0x123), (110, 3)]
def brfW : BitVec 128 := word [(124, 3), (112, 0xFFF), (110, 0)]
def waitW : BitVec 128 := word [(124, 4), (106, 1)]
def waitSumW : BitVec 128 := word [(124, 4), (106, 5)]
def yieldW : BitVec 128 := word [(124, 5)]
def endW : BitVec 128 := word [(124, 6)]
def haltW : BitVec 128 := word [(124, 7)]
def delay (r : RunSt) (n : Nat) : RunSt := { r with branch := some (0x123, n) }

def s05_next2 : State := running (delay (runAt 4) 2) 0
def s05_next1 : State := running (delay (runAt 5) 1) 0
def s05_jump : State := running (runAt 0xFFC) jumpW
def s05_brt : State := running (runAt 3) brtW
def s05_brf : State := running (runAt 3) brfW
def s05_slot : List State :=
  [jumpW, brtW, brfW, waitW, yieldW, endW, haltW].map fun w => running (delay (runAt 4) 2) w
def l05w : List State := [s05_next2, s05_next1, s05_jump, s05_brt, s05_brf] ++ s05_slot

/-- Does tile 2's run stand at a word with this FLOW, legal, with nothing to halt it and no hazard? -/
def issues (s : State) (f : Nat) : Bool :=
  match (s.dev.tile (s.dev.phys 2)).run with
  | none => false
  | some r =>
    let w := (s.dev.tile (s.dev.phys 2)).word r.pc
    s.dev.tileUp 2 && !r.ending && decide (r.pc ≤ 0xFFF) && r.acted.isNone &&
      !(tblGet false (s.dev.tile (s.dev.phys 2)).pbad r.pc) && wFlow w == f && (wordBad w).isNone &&
      walkChecks r.haz (wHok w) (s.dev.issueChecks 2 r w) == (0, none) &&
      (f != 4 || r.branch.isSome || s.dev.waitCond 2 r w == .inr true)

theorem test_hyp_DelaySlotsIssue :
    issues s05_next2 0 = true ∧ issues s05_next1 0 = true ∧ issues s05_jump 1 = true ∧ issues s05_brt 2 = true ∧
    issues s05_brf 3 = true ∧
    (s05_slot.all fun s => (s.dev.tile 2).run.any fun r => r.branch.isSome && r.acted.isNone && r.stall.isNone &&
      (wordBad ((s.dev.tile 2).word r.pc)).isNone) = true := by
  decide +kernel

theorem test_hyp_SpecialAddFollowsIeee :
    (0x7F800001#32).extractLsb' 23 8 = 0xFF#8 ∧ (0x7F800001#32).extractLsb' 0 23 ≠ 0#23 ∧
    (0xFF800000#32) = 1#1 ++ 0xFF#8 ++ 0#23 ∧ (0x7F800000#32) = 0#1 ++ 0xFF#8 ++ 0#23 ∧
    (0x7F7FFFFF#32).extractLsb' 23 8 ≠ 0xFF#8 := by
  decide +kernel

/-! Optical ports -/

def s10_d2d (n : Nat) : State := dev fun d => { d with d2d := tblPut 0 (d2dKey 2 true) n d.d2d }
/-- The retry counter of link 2 is full. -/
def s10_full : State := dev fun d => d.setRawF .CORE_D2D_RETRY_CNT 0 2 0 0xFFFFFFFF
def s10_ports : List (BitVec 5 × BitVec 12) := [(0, 0x688), (0x10, 0x688), (0x13, 0x688), (0x1F, 0x688)]
/-- UP ports of width 4 with lanes 0 to 3 on wavelengths 0 to 3: the spare free, failed, two failed, all failed. -/
def s10_wave : List State := s10_ports.map fun e => portAt .up { PortSt.reset with width := 4, txMap := e.2, txFail := e.1, rxMap := e.2, rxFail := e.1 } LinkSt.reset
def steer2 (n : Nat) : Steer :=
  { lane := 1, fromWave := 1, toWave := 4, countdown := 0, acked := false, switched := false, repeats := n }
def s10_steer (t : Steer) (req : Option (Nat × Nat)) : State :=
  portAt .up { PortSt.reset with width := 4, txMap := 0x688, rxMap := 0x688, txSteer := some t, rxSteer := some t, steerReq := req } LinkSt.reset
def s10_anns : List State := [s10_steer (steer2 2) none, s10_steer (steer2 3) none, s10_steer { steer2 0 with acked := true } none,
  s10_steer { steer2 0 with switched := true } (some (1, 1))]
def s10_lit : State := on (s10_steer (steer2 0) none) fun d => d.fdSet F.OPT_ELS_STAT_LINE_OK 0 0 0xFFFFF
/-- Module 15 without light on fibres 0 and 2: port 240 is DOWN for it, port 244, of fibre 1, is UP. -/
def s10_els : State := on (dev fun d => { d with els := tblPut ElsSt.reset 15 { busFails := 2, dark := 5, fast := false } d.els }) fun d =>
  ((d.updPort 240 fun x => { x with state := .down, reason := 0xED }).updPort 244 fun x => { x with state := .up }).fdSet F.OPT_ELS_STAT_SUPPORTED 15 0 1
def flags (present busOk fault : Bool) (dark : BitVec 4) : ElsFlags := { present, busOk, fault, dark }
def s10_low : State := dev fun d => d.updFibre 63 fun f => { f with low := [0, 4, 5, 1, 0] }

def l10 : List State := [s10_d2d 0, s10_d2d 15, s10_d2d 16, s10_full, s10_lit, s10_els, s10_low] ++ s10_wave ++ s10_anns

theorem test_hyp_D2dReplaysAndFails :
    (s10_d2d 15).dev.coreUp = true ∧ (s10_d2d 15).dev.d2dFailed 2 = false ∧
    16 ≤ tblGet 0 (s10_d2d 16).dev.d2d (d2dKey 2 true) := by
  decide +kernel

theorem test_hyp_LaserModulesAreSampled :
    s10_low.dev.coreUp = true ∧ (s10_low.dev.fibre 63).low.length = 5 ∧ (s10_els.dev.elsOf 15).dark = 5 ∧
    (dimFibres (flags false true false 0) 5).getLsbD 1 = true ∧ (s10_els.dev.port 244).state = .up ∧
    (dimFibres (flags true true true 4) 5).getLsbD 0 = false ∧ (s10_els.dev.port 240).state = .down ∧
    (s10_els.dev.port 240).reason = 0xED ∧ s10_els.dev.bit F.OPT_ELS_STAT_SUPPORTED 15 = true ∧
    (dimFibres (flags true false false 0) 5).getLsbD 2 = true ∧ 2 ≤ (s10_els.dev.elsOf 15).busFails := by
  decide +kernel

theorem test_hyp_FailedWavelengthMovesItsLane :
    (s10_wave.all fun s => s.dev.coreUp && portUp (s.dev.port 3).state && !steerBusy (s.dev.port 3).txSteer &&
      !steerBusy (s.dev.port 3).rxSteer && (s.dev.port 3).steerReq.isNone && !s.dev.lineOk 0 3 && (s.dev.port 3).txSteer.isNone &&
      mapLane (s.dev.port 3).txMap 3 == some 3 && mapLane (s.dev.port 3).rxMap 3 == some 3 && !s.dev.underScan 3 3) = true ∧
    (s10_wave.map fun s => (spareFree (s.dev.port 3).txFail (s.dev.port 3).txMap (s.dev.port 3).spareEn, (s.dev.port 3).rxFail.getLsbD 3)) =
      [(true, false), (false, false), (false, false), (false, true)] ∧
    (s10_anns.map fun s => (steerBusy (s.dev.port 3).txSteer, (s.dev.port 3).steerReq)) =
      [(true, none), (true, none), (true, none), (false, some (1, 1))] ∧
    s10_lit.dev.lineOk 0 3 = true ∧ Dev.reset.rateFails 0 = false ∧ Dev.reset.rateFails (2 ^ 32) = true := by
  decide +kernel

def s11_los (st : PortState) (n : Option Nat) : State := portAt st { PortSt.reset with modOn := true, noticeAt := n } LinkSt.reset
def s11_late : State := on (s11_los .up (some 0)) fun d => { d with cycle := 9500000 }
def fib (s : State) (f : FibreSt → FibreSt) : State := on s fun d => d.updFibre 0 f
def s11_cutting : State := fib (s11_los .up none) fun f => { f with cutting := true }
def s11_cut : State := fib (portAt .dark { PortSt.reset with los := true, reason := 0xE8 } LinkSt.reset) fun f => { f with cut := true }
def s11_probe : State := fib (portAt .dark PortSt.reset LinkSt.reset) fun f => { f with cut := true, probing := true }
def s11_probe2 : State := on s11_probe fun d => d.updPort 0 fun x => { x with state := .laserCut }
def s11_probe3 : State := on s11_probe fun d => d.updPort 1 fun x => { x with state := .dark, los := true }
def s11_dark : State := portAt .dark { PortSt.reset with los := true } LinkSt.reset
def s11_peer : State := portAt .peerCut { PortSt.reset with los := true } LinkSt.reset
def s11_restore : State := fib (portAt .laserCut PortSt.reset LinkSt.reset) fun f => { f with cut := true, restoring := true }
def s11_last : State := fib (portAt .dark { PortSt.reset with los := true } LinkSt.reset) fun f => { f with cut := true }
def s11_deaf (st : PortState) : State := portAt st { PortSt.reset with reason := 0xED } LinkSt.reset
/-- A supported module on engine 0. -/
def lit (s : State) : State := on s fun d => d.fdSet F.OPT_ELS_STAT_SUPPORTED 0 0 1
def s11_down : State := portAt .down { PortSt.reset with reason := 0xE9 } LinkSt.reset
def l11 : List State := [s11_probe3, on (s11_los .degraded none) (fun d => d.updPort 0 fun x => { x with state := .up }), s11_los .degraded none, s11_late, s11_cutting, s11_cut, s11_probe, s11_probe2, s11_dark, s11_peer,
  s11_restore, s11_down, lit s11_last, lit s11_cut, s11_deaf .down, s11_deaf .disabled]

theorem test_hyp_LossOfSignalCutsTheLaser :
    (s11_los .degraded none).dev.coreUp = true ∧ ((s11_los .degraded none).dev.port 3).state = .degraded ∧
    ((s11_los .degraded none).dev.port 3).los = false ∧ ((s11_los .degraded none).dev.port 3).noticeAt = none ∧
    ((s11_los .degraded none).dev.fibre 0).cut = false ∧ ((s11_los .degraded none).dev.fibre 0).cutting = false ∧
    ((s11_deaf .down).dev.port 3).reason = 0xED ∧ ((s11_deaf .disabled).dev.port 3).state = .disabled ∧
    portLive (s11_late.dev.port 3).state = true ∧ (s11_late.dev.port 3).noticeAt = some 0 ∧
    s11_late.dev.cycle ≤ 0 + 9500000 ∧ (s11_cutting.dev.fibre 0).cutting = true ∧
    portLive (s11_cutting.dev.port 3).state = true ∧ (s11_cutting.dev.port 3).state ≠ .dark := by
  decide +kernel

theorem test_hyp_LightBringsPortsToTraining :
    s11_cut.dev.coreUp = true ∧ ((lit s11_cut).dev.fibre 0).cut = true ∧ ((lit s11_cut).dev.fibre 0).probing = false ∧
    ((lit s11_cut).dev.fibre 0).cutting = false ∧ (lit s11_cut).dev.bit F.OPT_ELS_STAT_SUPPORTED 0 = true ∧
    ((lit s11_last).dev.fibre 0).restoring = false ∧
    (∀ i : Fin 3, ((lit s11_last).dev.port i.val).state ≠ .dark) ∧ ((lit s11_last).dev.port 3).state = .dark ∧
    (s11_cut.dev.port 3).state = .dark ∧ (s11_probe2.dev.fibre 0).probing = true ∧
    (∀ i : Fin 4, (s11_probe2.dev.port i.val).state = .dark → (s11_probe2.dev.port i.val).los = false) ∧
    (s11_probe2.dev.port 0).state = .laserCut ∧ (s11_probe3.dev.fibre 0).probing = true ∧
    (s11_probe3.dev.port 1).state = .dark ∧ (s11_probe3.dev.port 1).los = true ∧ (s11_probe3.dev.fibre 0).cutting = false ∧ (s11_peer.dev.port 3).state = .peerCut ∧
    (s11_dark.dev.port 3).state = .dark ∧ (s11_dark.dev.fibre 0).cut = false ∧ (s11_dark.dev.fibre 0).cutting = false ∧
    (s11_restore.dev.fibre 0).restoring = true ∧ (s11_restore.dev.port 3).state = .laserCut ∧
    (s11_down.dev.port 3).state = .down ∧ (s11_down.dev.port 3).los = false ∧ (s11_down.dev.port 3).reason ≠ 0xED := by
  decide +kernel

def train (st : PortState) (n w : Nat) : State :=
  portAt st { PortSt.reset with step := n, width := w } LinkSt.reset
def trainCap : State := on (train .training 3 0) fun d => d.updPort 3 fun x => { x with peerCap := some 0x6F000000 }
def trainAll : State := on (train .measuring 5 0) fun d => d.updPort 3 fun x => { x with peerErr := List.replicate 5 (some 0), peerMap := some 0x68800000 }
def trainUp : State := on (train .measuring 6 4) fun d => (d.updPort 3 fun x => { x with maxW := 4 }).updLink 3 fun l => { l with aligned := true }
def l11t : List State := [train .training 1 0, train .training 2 0, train .training 3 0, trainCap, train .measuring 4 0,
  train .measuring 5 0, trainAll, trainUp, train .measuring 6 0, on (train .measuring 6 1) fun d => d.updPort 3 fun x => { x with minW := 2 }]
/-- The training word of a type, sent five times. -/
def twBlock (t : BitVec 4) (body : BitVec 32) (w : BitVec 3) : Block := fiveCopies (trainWord { ttype := t, body := body, wave := w })

theorem test_hyp_TrainingTakesItsSteps :
    (l11t.all fun s => s.dev.coreUp) = true ∧
    (l11t.map fun s => ((s.dev.port 3).state, (s.dev.port 3).step)) =
      [(.training, 1), (.training, 2), (.training, 3), (.training, 3), (.measuring, 4), (.measuring, 5), (.measuring, 5),
        (.measuring, 6), (.measuring, 6), (.measuring, 6)] ∧
    (trainCap.dev.port 3).peerCap.isSome = true ∧ ((train .measuring 5 0).dev.port 3).peerErr.length = 5 ∧
    (trainAll.dev.port 3).peerErr.all (·.isSome) = true ∧ (trainAll.dev.port 3).peerMap.isSome = true ∧
    (trainUp.dev.port 3).width ≠ 0 ∧ (trainUp.dev.port 3).minW ≤ (trainUp.dev.port 3).width ∧ (trainUp.dev.link 3).aligned = true := by
  decide +kernel

/-- Three-of-five copies of a word are taken, by the word's own type alone (R120). -/
theorem test_training_words_are_taken_by_type :
    ((List.range 4).all fun k => (trainOf (k + 1) (twBlock (BitVec.ofNat 4 (k + 1)) 5 2)).any fun t => t.body == 5 && t.wave == 2) = true ∧
    trainOf 1 (twBlock 2 5 2) = none ∧ trainOf 4 (twBlock 4 5 2 |>.map fun _ => .m3) = none := by
  decide +kernel

/-! Register accesses -/

/-- The ready device of function 0, at expert level. -/
def ready : State :=
  dev fun d => ((d.fdSet F.BOOT_STAT_READY 0 0 1).fdSet F.HOST_LEVEL_EXPERT 0 0 0x3F).fdSet F.SEC_STAT_PART 0 0 0
def s20_self : State := on ready fun d => d.setRawF .CORE_SELF 0 0 0 0xFFFF
def s20_rc : State := on ready fun d => d.setRawF .PORT_TRAIN_FAIL_CNT 0 255 0 0xFFFFFFFF
/-- An event of this core cycle has raised the counter. -/
def s20_hot : State := on ready fun d => d.countF .PORT_TRAIN_FAIL_CNT 0 255
def s20_time : State := on ready fun d => { d with time := { d.time with t19 := 2 ^ 67 * 19 / 8 - 1 } }
def l20 : List State := [ready, s20_self, s20_rc, s20_hot, s20_time]

theorem test_hyp_RegisterAccessesFollowFieldMaps :
    s20_self.dev.admits 0 .CORE_SELF 0 0xFFFFFFFF = true ∧ ready.dev.admits 0 .CORE_TBL_CFG 0 1 = true ∧
    ready.dev.admits 0 .PORT_BER_CFG 0 0x55 = true ∧ ready.dev.admits 0 .QOS_BUF_CFG 0 0x1234 = true ∧
    s20_hot.dev.hotAt (regKey .PORT_TRAIN_FAIL_CNT 0 255 0) = (0, 1) ∧ s20_rc.dev.inReset = false ∧ s20_rc.dev.qmr = [] ∧ s20_rc.dev.primary = some 0 ∧
    (regAt (offOf .PORT_TRAIN_FAIL_CNT 255 0) == some { reg := .PORT_TRAIN_FAIL_CNT, i := 255, j := 0, byte := 0 }) = true ∧
    ((s20_rc.dev.dropSnap 0).accessGate 0 (offOf .PORT_TRAIN_FAIL_CNT 255 0) 4 none).isNone = true ∧
    ((s20_time.dev.dropSnap 1).accessGate 1 (offOf .CORE_TIME_NOW 0 0) 4 none).isNone = true := by
  decide +kernel

def rport (st : PortState) : State := on ready fun d => d.updPort 3 fun x => { x with state := st, modOn := true }
def s20_held (t : Bool) : State :=
  on ready fun d => (d.updQueue 3 fun q => { q with pdn := .held, timer := t }).updLink 3 fun l => { l with replayList := heldTwo }
def s20_failed : State := on ready fun d => d.fdSet F.PWR_DOM_STAT_STATE 31 0 4
def l20c : List State := [rport .disabled, rport .up, s20_held true, s20_held false, s20_failed]

theorem test_hyp_ControlWritesActAtOnce :
    (rport .disabled).dev.admits 0 .PORT_MODE 3 0x2F = true ∧ ((rport .disabled).dev.port 3).state = .disabled ∧
    (rport .disabled).dev.hardFenced 3 = false ∧ (rport .up).dev.admits 0 .PORT_MODE 3 0x2E = true ∧
    (rport .up).dev.admits 0 .PORT_CTRL 3 1 = true ∧ ((rport .up).dev.port 3).state = .up ∧
    (s20_held true).dev.admits 0 .QOS_PDN_CTRL 3 1 = true ∧ ((s20_held true).dev.queue 3).pdn = .held ∧
    ((s20_held true).dev.queue 3).noHold = false ∧ s20_failed.dev.admits 0 .PWR_DOM_CTRL 31 1 = true ∧
    s20_failed.dev.domHome 31 = some 31 ∧ s20_failed.dev.domState 31 = 4 ∧ (rport .up).dev.admits 0 .FLT_FENCE 3 0xC0000000 = true := by
  decide +kernel

def s20_bar (cfg : Nat) (b : BarSt) : State := on ready fun d => (d.setRawF .CORE_BAR 0 255 0 cfg).updBar 255 fun _ => b
/-- CORE_BAR[255] valid with a local child. -/
def localBar : Nat := 0x80000000 ||| 1 <<< F.CORE_BAR_LOCAL.lo
def s20_failedBar : State := s20_bar localBar { BarSt.reset with failed := true, reason := 0xCB, epoch := 9 }
def s20_idleBar : State := s20_bar localBar { BarSt.reset with epoch := 65535 }
def l20b : List State := [ready, s20_failedBar, s20_idleBar]

theorem test_hyp_BarrierAndPoolWritesAct :
    ready.dev.admits 0 .CORE_BAR_ARRIVE 0 255 = true ∧ ready.dev.bit F.CORE_BAR_VALID 255 = false ∧
    s20_idleBar.dev.admits 0 .CORE_BAR_ARRIVE 0 255 = true ∧ s20_idleBar.dev.bit F.CORE_BAR_VALID 255 = true ∧
    s20_idleBar.dev.bit F.CORE_BAR_LOCAL 255 = true ∧
    s20_idleBar.dev.bar 255 = { BarSt.reset with epoch := (s20_idleBar.dev.bar 255).epoch } ∧
    s20_failedBar.dev.admits 0 .CORE_BAR 255 0x80000000 = true ∧ (s20_failedBar.dev.bar 255).failed = true ∧
    ready.dev.admits 0 .POOL_CTRL 1 1 = true ∧ ready.dev.bit F.POOL_CTRL_EN 1 = false := by
  decide +kernel

def rdesc (op order : Nat) : Desc :=
  { fn := 0, ring := 63, bytes := leBytes 64 op, order := order, prim := true, mcast := false, data := [] }
def ring63 (st : RState) (f : RingSt → RingSt) : State := on ready fun d => d.updRing 0 63 fun g => f { g with state := st }
def s20_rings : List State := [
  on ready fun d => (d.fdSetF F.HOST_CR_START_IDX 0 63 0 7).fdSetF F.HOST_CR_START_SEQ 0 63 0 0,
  ring63 .running id, ring63 .running fun g => { g with active := [rdesc 0xE 0] }, ring63 .stopped fun g => { g with expSeq := 5 }]

theorem test_hyp_RingsFollowTheirControls :
    (s20_rings.all fun s => s.dev.admits 0 .HOST_CR_CFG 63 0x80000000 && s.dev.admits 0 .HOST_CR_CFG 63 0 &&
      s.dev.admits 0 .HOST_CR_CTRL 63 1 && s.dev.admits 0 .HOST_CR_CTRL 63 2 &&
      s.dev.admits 0 .HOST_EQ_CFG 3 0x80000000 && s.dev.fdF F.HOST_CR_CFG_EN 0 63 0 == 0 &&
      s.dev.fdF F.HOST_EQ_CFG_EN 0 3 0 == 0 && !s.dev.sys.boot.holding) = true ∧
    s20_rings.map (fun s => ((s.dev.ring 0 63).state, (s.dev.ring 0 63).active.length)) =
      [(.disabled, 0), (.running, 0), (.running, 1), (.stopped, 0)] := by
  decide +kernel

def s20_own (st p : Nat) : State := on ready fun d => (d.fdSet F.HOST_OWN_STATE 0 0 st).fdSet F.HOST_OWN_PRIMARY 0 0 p
def s20_live : State := on ready fun d => (d.updCtx 9 fun c => { c with state := .armed, part := 15 })
/-- Function 1 has accepted the role of function 0 in this core cycle. -/
def s20_taken : State := on (after (.ownAccept 1 3) (s20_own 1 0)) fun d => d.updFn 0 fun f => { f with linkUp := false }
def s20_owns : List State := [s20_own 0 0, s20_own 1 0, s20_own 2 0, s20_own 1 1, s20_live, s20_taken]

theorem test_hyp_OwnershipMovesByRule :
    ((s20_owns.take 5).all fun s => s.dev.admits 0 .HOST_OWN_CTRL 0 1 && s.dev.admits 0 .HOST_OWN_CTRL 0 2 &&
      s.dev.admits 0 .HOST_OWN_CTRL 0 3 && s.dev.admits 0 .HOST_OWN_CTRL 0 4 && !s.dev.inReset && !(s.dev.fn 0).linkUp) =
      true ∧
    s20_owns.map (fun s => (s.dev.fd F.HOST_OWN_STATE, s.dev.fd F.HOST_OWN_PRIMARY)) =
      [(0, 0), (1, 0), (2, 0), (1, 1), (0, 0), (0, 1)] ∧
    s20_taken.dev.admits 0 .HOST_OWN_CTRL 0 2 = true ∧ (s20_taken.dev.hotAt ownKey).1 = 1 ∧
    ready.dev.admits 0 .HOST_PART_OWN 0 0x55555555 = true ∧ s20_live.dev.mayMove 15 = false ∧
    s20_live.dev.mayMove 0 = true ∧ ready.dev.admits 0 .HOST_LEVEL 0 0x7E = true ∧ ready.dev.qmr = [] := by
  decide +kernel

/-! The switch core, queues and capture -/

def flitTo (t vl dst : Nat) : Flit :=
  { Flit.idle with type := BitVec.ofNat 4 t, vl := BitVec.ofNat 3 vl, dst := BitVec.ofNat 16 dst, src := 9 }
def qc (id : Nat) (f : Flit) : QCell :=
  { id := id, flit := f, src := .port 3, enq := 0, rank := 0, dyn := false, toPeer := false, early := false }
def cellOf (f : Flit) (g eg : Nat) (dyn : Bool) : Cell :=
  { id := 1, flit := f, odst := f.dst, src := .port 3, eg := eg, ports := [200], tile := false, die := none, queue := 4
    ranks := [0], hash := g, group := g, dyn := dyn, head := false, toPeer := false, since := 0 }

/-- Port 3 holds a flit of the link to endpoint 7, which CORE_FWD names or not. -/
def s30_bind (v : Bool) : State :=
  on ready fun d =>
    let d := ((d.fdSet F.CORE_CTRL_FWD_EN 0 0 1).fdSet F.CORE_FWD_PMASK 7 0 1).fdSet F.CORE_FWD_TARGET 7 0 200
    let d := (d.fdSet F.CORE_FWD_VALID 7 0 (b2n v)).fdSet F.CORE_SELF_ID 0 0 1
    d.updLink 3 fun l => { l with
      lstate := .active, outst := [1, 1, 1, 1, 1, 1, 1, 1]
      rx := [{ flit := flitTo 1 4 7, replayed := false, early := false, time := 0, age := 0, extra := [] }] }
/-- Port 3 has room for one more flit and one of S0 and of S3 waits. -/
def s30_sched : State :=
  on ready fun d => (d.updQueue 3 fun q => { q with q := [(0, [qc 1 (flitTo 1 0 7)]), (3, [qc 2 (flitTo 2 3 7)])] }).updLink 3
    fun l => { l with avail := [0, 1, 1, 1, 1, 1, 1, 1], txSel := [{ queue := 5, cell := qc 3 (flitTo 1 1 7), stomp := false }] }
def s30_tile : State :=
  on ready fun d => d.updCore fun c => { c with tileQ := [(2, [qc 1 Flit.idle, qc 2 Flit.idle, qc 3 Flit.idle])] }
def turn (n : Nat) (s : State) : State := on s fun d => { d with cycle := 10 + n }
/-- Group 31 has had its visit of this core cycle. -/
def s30_seen : State := on (turn 7 s30_sched) fun d => d.updCore fun c => { c with visited := [31] }
def l30 : List State := [s30_bind true, s30_bind false, turn 3 s30_sched, turn 8 s30_tile, turn 9 s30_tile, s30_seen]

theorem test_hyp_FlitsAreBoundAndScheduled :
    ([true, false].all fun v =>
      let d := (s30_bind v).dev
      let f := flitTo 1 4 7
      d.coreUp && d.bindable (.port 3) f && !(d.partReset 0) && bitAt (d.fd F.CORE_PORT_PART_MASK 3) 0 &&
        f.dst.toNat != d.selfId && d.bit F.CORE_FWD_VALID 7 == v && bitAt (d.fd F.CORE_FWD_PMASK 7) 0 &&
        d.fd F.CORE_FWD_MODE 7 == 0 && d.fd F.CORE_FWD_TARGET 7 == 200 && d.portLicensed 200 &&
        bitAt (d.fd F.CORE_PORT_PART_MASK 200) 0 && !f.exp && (d.flowOf (.port 3) f).isNone &&
        !(d.bit F.QOS_CLASS_MET_EN 4)) = true ∧
    (turn 3 s30_sched).dev.turnOf (.port 3) = (true, 0) ∧ (turn 8 s30_tile).dev.turnOf (.tile 2) = (true, 2) ∧
    (turn 9 s30_tile).dev.turnOf (.sink 2) = (true, 2) ∧ s30_seen.dev.turnOf (.port 255) = (true, 31) ∧ 31 ∈ s30_seen.dev.core.visited ∧
    s30_seen.dev.turnOf (.port 3) = (false, 0) ∧ s30_sched.dev.core.visited = [] ∧
    s30_sched.dev.coreUp = true ∧ (s30_sched.dev.queue 3).pdn = .active ∧ s30_sched.dev.scopeHeld 1 3 = false ∧
    (s30_sched.dev.link 3).txSel.length = 1 ∧ s30_sched.dev.eligible 3 3 = true ∧
    (∀ k : Fin 3, s30_sched.dev.eligible 3 k.val = false) ∧ s30_tile.dev.coreUp = true := by
  decide +kernel

def s30_tick (lock : Bool) (t19 m : Nat) : State :=
  on ready fun d => { d with
    time := { d.time with locked := lock, t19 := t19 }, core := { d.core with slot := 31, matched := m, used1 := [(0, 2)] } }
def s30_one : State := on ready fun d => d.updCore fun c => { c with
  slot := 30, ingressQ := [(3, [cellOf (flitTo 1 4 7) 1 25 false])], used1 := [(3, 1)] }
def s30_two : State := on ready fun d => d.updCore fun c => { c with
  slot := 30, interQ := [(3, [cellOf (flitTo 1 4 7) 3 1 true])], used2 := [(3, 1)] }
def s2w : S2Wait := { cell := qc 4 (flitTo 1 5 7), group := 0, port := 255, crossed := none }
def s30_s2 (u : Nat) : State := on ready fun d => { d.updCore fun c => { c with slot := 31, s2wait := [s2w], used1 := [(0, u)] } with cycle := 1 }
def l30c : List State := [s30_tick false 0 31, s30_tick true (32 * 655360) 31, s30_tick true (31 * 655360) 31, s30_one, s30_two, s30_s2 1]

theorem test_hyp_CrossingsFollowTheSlot :
    (l30c.all fun s => s.dev.coreUp) = true ∧ ((s30_tick false 0 31).dev.tile 0).run = none ∧
    (s30_tick true (32 * 655360) 31).dev.fabricCycle % 32 = ((s30_tick true (32 * 655360) 31).dev.core.slot + 1) % 32 ∧
    (tblGet [] s30_one.dev.core.ingressQ 3).map (fun c => (c.dyn, c.group, c.die)) = [(false, (3 + 30) % 32, none)] ∧
    tblGet 0 s30_one.dev.core.used1 3 < 2 ∧
    (tblGet [] s30_two.dev.core.interQ 3).map (fun c => (c.dyn, c.eg)) = [(true, (3 + 30) % 32)] ∧
    tblGet 0 s30_two.dev.core.used2 3 < 2 ∧ (s30_s2 1).dev.s2Ready 0 = [s2w] ∧
    2 ≤ tblGet 0 (s30_s2 1).dev.core.used1 0 + ((s30_s2 1).dev.s2Ready 0).length ∧
    (l30c.all fun s => s.dev.sys.pwr.accs.isEmpty && s.dev.core.tmo.isEmpty && s.dev.core.express.isEmpty && s.dev.core.waiting.isEmpty &&
      s.dev.tiles.isEmpty) = true := by
  decide +kernel

def rq (e : Nat) (held : List (Nat × Cell)) (since : Option Nat) : Reseq :=
  { src := .port 3, fsrc := 9, fdst := 7, part := 0, vl := 4, live := true, expect := e, held := held, holes := [], since := since }
def flow0 : FlowEnt :=
  { src := .port 3, fsrc := 9, fdst := 7, part := 0, vl := 4, ctx := 0, dyn := true, hash := 0, count := 1 }
def mcell (m : Nat) : Cell := cellOf { flitTo 1 4 7 with mseq := BitVec.ofNat 16 m } 0 31 true
def s30_arrive (e m : Nat) : State :=
  on ready fun d => d.updCore fun c => { c with
    refs := [(1, { copies := 1, unsent := 1, internal := false })], flows := [flow0], reseqIn := [(31, [mcell m])]
    reseq := [(31, [rq e [] none])] }
def s30_hole : State :=
  on ready fun d => d.updCore fun c => { c with flows := [flow0], reseqHole := [(31, [(flow0, 3)])], reseq := [(31, [rq 2 [] none])] }
def s30_skip : State :=
  on ready fun d => { d with
    cycle := 100000, core := { d.core with flows := [flow0], reseq := [(31, [rq 65535 [(2, mcell 2)] (some 0)])] } }
def updDesc : Desc := { rdesc 1 7 with ring := 0, data := leBytes 8 5 ++ leBytes 7 7 ++ leBytes 1 0x10, bytes := leBytes 64 (1 + 2 ^ 224) }
def s30_upd (w : Bool) : State :=
  on ready fun d => (d.updRing 0 0 fun g => { g with state := .running, active := [updDesc] }).updCore fun c => { c with
    updWait := if w then [{ fn := 0, ring := 0, order := 7, reason := 0, cells := [] }] else []
    updates := if w then [] else [{ fn := 0, ring := 0, order := 7, reason := 0, cells := [4095] }] }
def l30r : List State := [s30_arrive 2 1, s30_arrive 65535 0, s30_hole, s30_skip, s30_upd true, s30_upd false]

theorem test_hyp_ResequencersAndTableUpdates :
    (l30r.all fun s => s.dev.coreUp) = true ∧ (rq 2 [] none).covers (mcell 1).src (mcell 1).flit = true ∧
    (mcell 1).head = false ∧ behind 65536 1 2 = true ∧ (mcell 1).ports.length = 1 ∧
    (mcell 0).flit.mseq.toNat = (65535 + 1) % 65536 ∧ flow0.vl = (rq 0 [] none).vl ∧ 3 ≠ (rq 2 [] none).expect ∧
    0 + max 1 (s30_skip.dev.fd F.CORE_RESEQ_CFG_TIMEOUT) ≤ s30_skip.dev.cycle ∧
    ((s30_upd true).dev.openDesc 0 0 7).isSome = true ∧ (s30_upd true).dev.draining < 8 ∧
    (s30_upd true).dev.cutReason updDesc = none ∧ (s30_upd true).dev.olderUpdate 7 = false ∧
    ((s30_upd false).dev.openDesc 0 0 7).isSome = true ∧ ((s30_upd false).dev.cellRef 4095).unsent = 0 := by
  decide +kernel

/-- A credit of port 255 alone waits, with n cells free. -/
def cr255 : WaitCr := { port := 255, vl := 7, rank := 0, age := 0, counted := false }
def s30_credit (n : Nat) : State := on ready fun d => d.updCore fun c => { c with waiting := [cr255], free := n, backed := 0 }
def tele0 : TeleRec := { port := 3, bytes := List.replicate 128 1 }
def s30_tele (l : List TeleRec) : State :=
  on ready fun d => { ((d.fdSet F.QOS_TELE_CFG_EN 0 0 1).fdSet F.QOS_TELE_PMASK_PORTS 3 0 (2 ^ 63)).fdSetF F.HOST_TELE_CFG_EN 0 0 0 1 with
    cycle := 65536, capt := { d.capt with tele := l, teleLost := true, sampleNo := 0xFFFFFFFF } }
def evt0 : MirrEvt :=
  { point := 0, port := 3, flit := flitTo 1 4 7, iport := some 3, eport := none, queue := 0, depth := 0, reason := 0 }
def s30_mirr (en : Nat) : State :=
  on ready fun d => { (d.fdSet F.MIRR_FLT_CFG_EN 0 0 en).fdSet F.MIRR_FLT_PORTS_PORTS 0 0 8 with cycle := 1, capt := { d.capt with evts := [evt0] } }
def s30_mrec : State :=
  on ready fun d =>
    let d := (((d.fdSet F.MIRR_CTRL_MODE 0 0 1).fdSet F.MIRR_CTRL_DEST 0 0 0).fdSet F.MIRR_CTRL_SIZE_LOG2 0 0 20)
    let d := (d.fdSet F.MEM_LAYOUT_CAP_GIB 0 0 1).setRawF .MIRR_BASE 0 0 0 (0x2FC00000 * 256)
    { d.setRawF .MIRR_WPTR 0 0 0 (2 ^ 64 - 1) with capt := { d.capt with mirrQ := [{ bytes := List.replicate 64 7 }], mirrLost := true } }
def s30_shape : State := on ready fun d => (d.fdSet F.QOS_SHAPE_RATE 255 15 3).updQueue 255 fun q => { q with spent := [(15, 2)] }
def l30q : List State := [s30_credit 60000, s30_credit 0, s30_tele [], s30_tele [tele0], s30_mirr 0, on (s30_mirr 0) (fun d => { d with cycle := 0 }), s30_mirr 1, s30_mrec, s30_shape]

theorem test_hyp_CreditsBucketsAndRecords :
    (l30q.all fun s => s.dev.coreUp) = true ∧ ((s30_credit 0).dev.waiters.map (·.2)) = [.credit cr255] ∧ 1 ≤ (s30_credit 60000).dev.slack ∧
    (s30_credit 0).dev.slack < 1 ∧ (s30_credit 0).dev.pushOut 0 = none ∧ (s30_credit 0).dev.core.arb < 4 ∧
    (let d := (s30_tele []).dev
     d.bit F.QOS_TELE_CFG_EN = true ∧ d.scopeHeld 5 0 = false ∧ d.time.locked = false ∧ d.cycle % 2 ^ d.teleK = 0 ∧
       d.capt.tele = [] ∧ d.primary = some 0 ∧ d.teleFull 0 = false ∧ d.fdF F.HOST_TELE_CFG_EN 0 0 0 = 1) ∧
    (∀ f : Fin 8, (s30_mirr 0).dev.mirrMatch f.val evt0 = false) ∧ evt0.cycle < (s30_mirr 0).dev.cycle ∧
    (s30_mirr 1).dev.capt.took ≠ (s30_mirr 1).dev.cycle + 1 ∧ (s30_mirr 1).dev.mirrMatch 0 evt0 = true ∧
    (∀ f : Fin 8, 1 ≤ f.val → (s30_mirr 1).dev.mirrMatch f.val evt0 = false) ∧
    at_ 0 (s30_mirr 1).dev.capt.filtCnt 0 % 2 ^ (s30_mirr 1).dev.fd F.MIRR_FLT_CFG_SAMPLE 0 = 0 ∧
    (let d := s30_mrec.dev
     let n := ringLog2 0 (d.fd F.MIRR_CTRL_SIZE_LOG2)
     d.fd F.MIRR_CTRL_DEST = 0 ∧ d.fd F.MIRR_CTRL_MODE = 1 ∧
       d.captureRing (d.fd F.MIRR_BASE_BASE / 2 ^ n * 2 ^ n) n = some 0 ∧ d.d2dFailed 0 = false) := by
  decide +kernel

def s30_pdn (st : PortState) (q : PdnState) (t : Bool) (h : Nat) : State :=
  on ready fun d => ((d.updPort 3 fun x => { x with state := st }).updQueue 3 fun x => { x with pdn := q, timer := t }).fdSet
    F.QOS_PDN_CFG_HOLD 3 0 h
def l30p : List State := [s30_pdn .down .active false 1, s30_pdn .up .held true 1, s30_pdn .degraded .held false 1,
  s30_pdn .down .held true 1, s30_pdn .up .flushing false 0, s30_pdn .down .flushing false 1]

theorem test_hyp_QueuesBehindADownPort :
    (l30p.all fun s => s.dev.coreUp && (s.dev.link 3).txSel.isEmpty && s.dev.heldCells 3 == 0) = true ∧
    l30p.map (fun s => ((s.dev.port 3).state, (s.dev.queue 3).pdn, (s.dev.queue 3).timer, s.dev.fd F.QOS_PDN_CFG_HOLD 3)) =
      [(.down, .active, false, 1), (.up, .held, true, 1), (.degraded, .held, false, 1), (.down, .held, true, 1),
       (.up, .flushing, false, 0), (.down, .flushing, false, 1)] ∧
    ready.dev.fd F.FLT_FENCE_LEVEL 3 = 0 ∧ (s30_pdn .down .flushing false 1).dev.canSend 3 = false := by
  decide +kernel

/-! Contexts, fabric time and barriers -/

/-- A descriptor's 64 bytes from its fields, each with its first byte, width and value. -/
def descBytes (l : List (Nat × Nat × Nat)) : List (BitVec 8) :=
  l.foldl (fun a e => bytesPut a e.1 (leBytes e.2.1 e.2.2)) (List.replicate 64 0)
def descOf (l : List (Nat × Nat × Nat)) (data : List (BitVec 8)) : Desc :=
  { fn := 0, ring := 63, bytes := descBytes l, order := 7, prim := true, mcast := false, data := data }
def inHand (s : State) (x : Desc) : State := on s fun d => d.updRing 0 63 fun g => { g with state := .running, active := [x] }

/-- A root's tree of a reduce of 65 FP32 elements from two children. -/
def treeBytes : List (BitVec 8) :=
  [(2, 1, 1), (3, 1, 2), (5, 1, 1), (7, 1, 1), (9, 1, 2), (10, 2, 2), (12, 4, 65), (32, 4, 1), (64, 2, 0), (66, 2, 9), (72, 2, 1),
    (74, 2, 10)].foldl (fun a e => bytesPut a e.1 (leBytes e.2.1 e.2.2)) (List.replicate 80 0)
def setupDesc : Desc := descOf [(0, 1, 2), (24, 4, 80), (28, 2, 4095), (30, 1, 31)] treeBytes
def ctxDesc (op : Nat) : Desc := descOf [(0, 1, op), (28, 2, 4095)] []
def ctxAt (s : State) (c : Nat) (f : CtxSt → CtxSt) : State := on s fun d => d.updCtx c f
def treeCtx (st : CtxState) : CtxSt :=
  { CtxSt.reset with state := st, tile := 31, desc := treeOf treeBytes, slot := some 0 }
/-- Every slot of tile 31 is taken. -/
def fullTile (s : State) : State :=
  on s fun d => (List.range 64).foldl (fun d k => d.updCtx (64 + k) fun _ => { treeCtx .armed with slot := some k }) d
def l40 : List State := [inHand ready setupDesc, inHand (ctxAt ready 4095 fun _ => treeCtx .faulted) setupDesc,
  inHand (ctxAt ready 4095 fun _ => treeCtx .armed) (ctxDesc 3), inHand (ctxAt ready 4095 fun _ => treeCtx .open_) (ctxDesc 3),
  inHand (ctxAt ready 4095 fun _ => treeCtx .armed) (ctxDesc 4), ctxAt ready 4095 fun _ => treeCtx .open_,
  fullTile (inHand ready setupDesc)]

theorem test_hyp_ContextsMoveThroughTheirStates :
    (l40.all fun s => !s.dev.inReset && s.dev.coreUp && [setupDesc, ctxDesc 3, ctxDesc 4].all fun x => !s.dev.descTaken x) = true ∧
    l40.map (fun s => ([2, 3, 4].map fun o => (s.dev.inHand 0 63 o).isSome, (s.dev.ctx 4095).state)) =
      [([true, false, false], .free), ([true, false, false], .faulted), ([false, true, false], .armed),
       ([false, true, false], .open_), ([false, false, true], .armed), ([false, false, false], .open_), ([true, false, false], .free)] ∧
    setupDesc.arg 28 2 % 4096 = 4095 ∧
    ready.dev.treeOk setupDesc.mcast (setupDesc.arg 30 1 % 32) setupDesc.part setupDesc.buflen (treeOf setupDesc.data) = true ∧
    (treeCtx .open_).desc.tmo ≠ 0 ∧ (treeCtx .open_).spilling = false ∧ (treeCtx .open_).restoring = false ∧
    (∀ x ∈ [setupDesc, ctxDesc 3, ctxDesc 4], ready.dev.cutReason x = none) ∧ ready.dev.freeSlot 31 = some 0 ∧
    (fullTile (inHand ready setupDesc)).dev.freeSlot 31 = none ∧ ready.dev.d2dFailed (4095 % 2) = false := by
  decide +kernel

def contrib (rank src ofs : Nat) : Flit :=
  { flitTo 2 2 0 with
    ctx := 4095, rank := BitVec.ofNat 16 rank, src := BitVec.ofNat 16 src, ofs := BitVec.ofNat 32 ofs, fmt := 1, form := 0
    payload := payloadOf (leBytes 4 0x3F800000 ++ leBytes 4 0x40000000) }
def s40_take (st : CtxState) (f : Flit) : State :=
  on (ctxAt ready 4095 fun _ => treeCtx st) fun d => d.updCore fun c => { c with tileRx := [(31, [qc 5 f])] }
def s40_retry : State :=
  on (ctxAt ready 4095 fun _ => treeCtx .armed) fun d => d.updCore fun c => { c with ctxWait := [(31, qc 5 (contrib 1 10 0), false)] }
def s40_spill (sp re : Bool) : State :=
  { (ctxAt ready 4095 fun _ => { treeCtx .armed with spilling := sp, restoring := re, slot := some 63, image := [(5, 1)] }) with
    mem := { hbm := [], tile := [(31, [(0x1F7FFF, 7), (0x1F8000, 8), (0x1FFFFF, 9)])] } }
def l40c : List State := [s40_take .armed (contrib 0 9 0), s40_take .free (contrib 0 9 0), s40_retry, s40_spill true false,
  s40_spill false true]

theorem test_hyp_ContributionsAndResidency :
    (l40c.all fun s => s.dev.coreUp && s.dev.tileUp 31) = true ∧ (contrib 0 9 0).type.toNat = 2 ∧
    (s40_take .free (contrib 0 9 0)).dev.verdict 31 (contrib 0 9 0) = .drop ∧
    (s40_take .armed (contrib 0 9 0)).dev.verdict 31 (contrib 0 9 0) = .take 0 ∧ (treeCtx .armed).desc.user = false ∧
    (treeCtx .armed).desc.gather = false ∧ 2 ≤ (treeCtx .armed).desc.nchild ∧
    (s40_take .armed (contrib 0 9 0)).dev.fd F.TILE_CTX_FA_MODE 4095 = 0 ∧
    s40_retry.dev.core.ctxWait.length = 1 ∧ (s40_take .armed (contrib 0 9 0)).dev.core.ctxWait = [] ∧
    s40_retry.dev.verdict 31 (contrib 1 10 0) = .take 1 ∧
    ((s40_spill true false).dev.ctx 4095).spilling = true ∧ ((s40_spill false true).dev.ctx 4095).restoring = true ∧
    ((s40_spill false true).dev.ctx 4095).slot = some 63 ∧ ((s40_spill false true).dev.ctx 4095).pendFault = none ∧
    ((s40_spill false true).dev.ctx 4095).pendFree = false ∧ (((s40_spill false true).dev.spillGranules 4095).all fun g => !(s40_spill false true).dev.hbmFails g) = true := by
  decide +kernel

def s40_slew (n : Int) : State := on ready fun d => { d with time := { d.time with t19 := 2 ^ 64 * 19 - 655360, slewLeft := n } }
def peered (s : State) : State :=
  on s fun d => ((d.fdSet F.CORE_PEER_VALID 3 0 1).fdSet F.CORE_PEER_ID 3 0 77).updLink 3 fun l => { l with lstate := .active }
def s40_master : State := on (peered ready) fun d => { d.fdSet F.CORE_TIME_CFG_MASTER_EN 0 0 1 with time := { d.time with seqNo := 65535 } }
def s40_time (bytes : List (BitVec 8)) (up : Option Nat) : State :=
  on (peered ready) fun d => { d with
    core := { d.core with btRx := [(3, { timeFlit 77 0 bytes with src := 77 }, 3000 * 65536)] }
    time := { d.time with upport := up, locked := true, t19 := 3000 * 65536 * 19 } }
def syncBytes : List (BitVec 8) := timePayload 1 5 0 0 0 0 0
/-- A reply that finds the time 500 ns behind. -/
def replyBytes : List (BitVec 8) :=
  bytesPut (bytesPut (bytesPut (timePayload 2 5 0 0 0 0 0) 8 (leBytes 8 (1000 * 65536))) 16 (leBytes 8 (2491 * 65536))) 24 (leBytes 8 (2491 * 65536))
def announceBytes : List (BitVec 8) := timePayload 3 0 0 0 42 2 9
def l40t : List State := [s40_slew 131, s40_slew (-132), s40_slew 132, s40_master, s40_time syncBytes none, s40_time replyBytes none,
  s40_time replyBytes (some 3), s40_time announceBytes none,
  s40_time (timePayload 3 0 0 0 0xFFFF 0xFF 0xFF) none]

theorem test_hyp_FabricTimeIsKept :
    (l40t.all fun s => s.dev.coreUp) = true ∧ ({ s40_master.dev with time := { s40_master.dev.time with cfg := s40_master.dev.rawF .CORE_TIME_CFG 0 0 0 } } : Dev).isMaster = true ∧
    s40_master.dev.core.backed + 2 ≤ s40_master.dev.core.free ∧ s40_master.dev.core.intUsed + 2 ≤ s40_master.dev.intRsv ∧
    s40_master.dev.core.ownTx = [] ∧ s40_master.dev.intCellFree = true ∧ s40_master.dev.activePorts = [3] ∧
    s40_master.dev.bit F.CORE_PEER_VALID 3 = true ∧ s40_master.dev.fd F.FLT_FENCE_LEVEL 3 = 0 ∧
    s40_master.dev.partReset 0 = false ∧ (s40_master.dev.queue 3).pdn = .active ∧
    [syncBytes, replyBytes, announceBytes].map (fun b => plByte (payloadOf b) 0) = [1, 2, 3] ∧
    plLe (payloadOf replyBytes) 2 2 = 5 ∧ (s40_time replyBytes (some 3)).dev.isMaster = false ∧
    (let a := stampDiff (plLe (payloadOf replyBytes) 16 8) (plLe (payloadOf replyBytes) 8 8)
     let b := stampDiff (3000 * 65536 - 18 * nsUnit) (plLe (payloadOf replyBytes) 24 8)
     10 * nsUnit < ((a - b) / 2).natAbs ∧ ((a - b) / 2).natAbs ≤ 1000 * nsUnit) := by
  decide +kernel

def barBytes (kind epoch tr : Nat) : List (BitVec 8) :=
  leBytes 1 kind ++ leBytes 1 255 ++ leBytes 2 epoch ++ leBytes 4 0 ++ leBytes 8 tr
def s40_bar (v : Bool) (kind : Nat) (b : BarSt) : State :=
  on ready fun d =>
    let d := ((d.fdSet F.CORE_BAR_VALID 255 0 (b2n v)).fdSet F.CORE_BAR_PARENT 255 0 3).fdSet F.CORE_BAR_CHILD_PORTS 255 0 8
    let d := (d.fdSet F.CORE_BAR_LOCAL 255 0 1).fdSet F.CORE_BAR_CFG_TMO 0 0 1
    (d.updBar 255 fun _ => b).updCore fun c => { c with btRx := [(3, timeFlit 77 0 (barBytes kind 65535 100000), 0)] }
def fenced (s : State) : State :=
  on s fun d => ((d.fdSet F.FLT_FENCE_LEVEL 254 0 2).fdSet F.FLT_FENCE_BAR 254 0 255).fdSet F.FLT_FENCE_EPOCH 254 0 65535
def barSt (st : BarState) : BarSt := { BarSt.reset with state := st, epoch := 65535 }
def l40b : List State := [s40_bar false 0x10 BarSt.reset, s40_bar true 0x10 (barSt .idle), s40_bar true 0x11 (barSt .wait),
  fenced (s40_bar true 0 { barSt .releasing with tr := 0 }), s40_bar true 0 (barSt .gather)]

theorem test_hyp_BarriersGatherAndRelease :
    (l40b.all fun s => s.dev.coreUp && !(s.dev.bar 255).failed && s.dev.sys.xfer.job.isNone && (s.dev.bar 255).early.isEmpty) = true ∧
    l40b.map (fun s => (s.dev.bit F.CORE_BAR_VALID 255, (s.dev.bar 255).state)) =
      [(false, .idle), (true, .idle), (true, .wait), (true, .releasing), (true, .gather)] ∧
    (let d := (s40_bar true 0x10 (barSt .idle)).dev
     d.fd F.CORE_BAR_PART 255 = 0 ∧ 3 ∈ d.barChildren 255 ∧ 256 ∈ d.barMembers 255 ∧ d.bit F.CORE_BAR_ROOT 255 = false ∧
       d.fd F.CORE_BAR_PARENT 255 = 3 ∧ d.reached 100000 = false ∧ d.reached 0 = true ∧ d.fd F.CORE_BAR_CFG_TMO ≠ 0 ∧ d.barWaiters 255 = []) ∧
    (let d := (fenced (s40_bar true 0 { barSt .releasing with tr := 0 })).dev
     d.fd F.FLT_FENCE_LEVEL 254 = 2 ∧ d.fd F.FLT_FENCE_BAR 254 = 255 ∧ d.fd F.FLT_FENCE_EPOCH 254 = 65535) := by
  decide +kernel

/-! Engines -/

/-- A command word from its fields, each with its lowest bit; context 5, TAG 9. -/
def cmdRaw (code opa opb opc : Nat) (l : List (Nat × Nat)) : BitVec 256 :=
  BitVec.ofNat 256 (code * 2 ^ 248 + 5 * 2 ^ 236 + 9 * 2 ^ 220 + opa * 2 ^ 64 + opb * 2 ^ 32 + opc +
    (l.map fun e => e.2 * 2 ^ e.1).sum)
def cmd (raw : BitVec 256) : EngCmd := { raw := raw, serial := 3, unseen := 0, builtin := false, pc := 0, dead := false }
/-- The first granule of die 0's service region, which partition 0 may read and write. -/
def g0 : Nat := 35127296
/-- Command x at the head of engine e of tile 2, of the OPEN context 5; memory m. -/
def eng (e : Nat) (x : EngCmd) (f : Mem → Mem) : State :=
  { (on ready fun d =>
      let d := d.setRawF .MEM_GRANT 0 0 0 (0xFFFF <<< 48 ||| 7 <<< 45 ||| 1 <<< 16 ||| g0 / 65536)
      (d.updTile 2 fun t => { t with q := [(e, [x])] }).updCtx 5 fun c => { c with state := .open_, tile := 2, slot := some 0 }) with
    mem := f { hbm := [(256 * g0 + 3, 0x77), (256 * g0 + 255, 0x78)], tile := [] } }
def put (a : Nat) (bs : List (BitVec 8)) (m : Mem) : Mem := m.tileWrite 2 a bs

def reserved (e : Nat) : State := eng e (cmd (cmdRaw 0xFF 0 0 0 [])) id
def s50_busy : State := on ready fun d => d.updTile 2 fun t => { t with busy := [(3, some (cmd 0))] }
def l50 : List State := [reserved 0, reserved 1, reserved 2, reserved 3, s50_busy]

/-- Does engine e of tile 2 start command x? -/
def starts (s : State) (e : Nat) : Bool :=
  s.dev.tileUp 2 && (s.dev.headCmd 2 e).isSome && s.dev.domOn (engDom 2 e)
/-- Does the command at the head of engine e pass these start checks? -/
def passes (s : State) (e code : Nat) (checks : EngX → Io → List (Bool × Nat)) : Bool :=
  starts s e && match s.dev.headCmd 2 e with
    | some x => x.code == code &&
        (firstBad (checks (s.dev.engX 2 e x ReadErr.none_) { m := s.mem, d := s.dev, fail := none })).isNone
    | none => false

theorem test_hyp_EnginesCompleteAndRefuseReservedCodes :
    s50_busy.dev.tileUp 2 = true ∧ tblGet none (s50_busy.dev.tile (s50_busy.dev.phys 2)).busy 3 = some (cmd 0) ∧
    tblGet [] s50_busy.dev.core.srcQ 258 = [] ∧ (s50_busy.dev.ctx 5).held = [] ∧
    (∀ e : Fin 4, starts (reserved e.val) e.val = true) ∧ ((reserved 0).dev.ctx 5).live = true ∧
    ((reserved 0).dev.ctx 5).spilling = false ∧ ((reserved 0).dev.ctx 5).restoring = false ∧
    7 < (cmd (cmdRaw 0xFF 0 0 0 [])).code := by
  decide +kernel

def one : List (BitVec 8) := leBytes 4 0x3F800000
def s50_fold : State := eng 0 (cmd (cmdRaw 1 0x200000 1 0x201000 [(209, 1), (197, 1), (196, 1)])) (put 0x200000 one)
def s50_foldp : State := eng 0 (cmd (cmdRaw 2 0x200000 1 0x201000 [(209, 0xA)])) (put 0x200000 one ∘ put 0x201000 one)
def s50_conv : State := eng 0 (cmd (cmdRaw 3 0x200000 64 0x201000 [(209, 0xA), (204, 1)])) (put 0x200000 one)
def l50s : List State := [s50_fold, s50_foldp, s50_conv]

theorem test_hyp_SumWritesItsDestination :
    passes s50_fold 0 1 foldChecks = true ∧ passes s50_foldp 0 2 foldpChecks = true ∧
    passes s50_conv 0 3 convChecks = true ∧ (∃ x, s50_fold.dev.headCmd 2 0 = some x ∧ sumNsrc x = 1 ∧ sumInit x = true) ∧
    (∃ x, s50_conv.dev.headCmd 2 0 = some x ∧ x.opb ≤ epf (sumOfmt x) ∧ sumRound x = 0) :=
  ⟨by decide +kernel, by decide +kernel, by decide +kernel, ⟨_, rfl, by decide +kernel⟩, ⟨_, rfl, by decide +kernel⟩⟩

def bytes8 : List (BitVec 8) := (List.range 8).map fun k => BitVec.ofNat 8 (k + 0x41)
def s50_copy (ssp dsp a b n : Nat) : State := eng 1 (cmd (cmdRaw 1 a b n [(215, ssp), (214, dsp)])) (put 0x200000 bytes8)
def s50_index (code : Nat) : State :=
  eng 1 (cmd (cmdRaw code 0x200000 0x203000 1 [(176, 0x202000), (144, 2)]))
    (put 0x200000 (leBytes 4 1) ∘ put 0x202020 bytes8 ∘ put 0x203004 bytes8)
def s50_send : State := eng 1 (cmd (cmdRaw 4 0x3FFF00 6 1 [(140, 3), (123, 0xFFFF), (106, 1)])) (put 0x3FFF00 bytes8)
def s50_disp : State :=
  eng 1 (cmd (cmdRaw 5 0x200000 0x210000 1 [(140, 1), (96, 1), (176, 0x202000), (144, 4), (106, 1)]))
    (put 0x200000 (leBytes 8 3 ++ leBytes 4 2) ∘ put 0x202006 [0x34, 0x12] ∘ put 0x210200 bytes8)
def l50m : List State := [s50_copy 0 0 0x200000 0x200020 32, s50_copy 0 1 0x200000 g0 256, s50_copy 1 0 g0 0x210000 256,
  s50_copy 1 1 g0 (g0 + 1) 256, s50_index 2, s50_index 3, s50_send, s50_disp]

theorem test_hyp_MoveCopiesAndSends :
    passes (s50_copy 0 0 0x200000 0x200020 32) 1 1 copyChecks = true ∧ passes (s50_copy 1 1 g0 (g0 + 1) 256) 1 1 copyChecks = true ∧
    (s50_copy 0 0 0 0 0).dev.mayReach (g0 + 1) 0 true true = true ∧ (s50_copy 0 0 0 0 0).dev.hbmFails g0 = false ∧
    (s50_copy 0 0 0 0 0).dev.fd F.CORE_D2D_STAT_STATE (gDie g0) ≠ 3 ∧
    passes (s50_index 2) 1 2 (indexChecks mvBase EngCmd.opb) = true ∧ passes (s50_index 3) 1 3 (indexChecks EngCmd.opb mvBase) = true ∧
    ([0x202000 + 32, 0x203000, 0x203000 + 32, 0x202000].all fun a => ((s50_index 2).dev.engX 2 1 (cmd (cmdRaw 2 0 0 1 [])) ReadErr.none_).okTile a 32 true) = true ∧
    ofLe ((s50_index 2).mem.tileRead 2 0x200000 4) = 1 ∧ passes s50_send 1 4 sendChecks = true ∧
    passes s50_disp 1 5 dispatchChecks = true ∧ leAt (s50_disp.mem.tileRead 2 0x200000 16) 0 4 = 3 ∧
    leAt (s50_disp.mem.tileRead 2 0x200000 16) 8 4 = 2 := by
  decide +kernel

def s50_enc : State := eng 1 (cmd (cmdRaw 6 0x200000 0x210000 1 [(106, 1), (104, 1)])) (put 0x200000 bytes8)
def s50_dec : State :=
  eng 1 (cmd (cmdRaw 7 0x200000 0x210000 1 [(106, 7)])) (put 0x200000 (leBytes 4 1 ++ leBytes 4 1) ∘ put 0x200040 bytes8)
def rec16 (k : Nat) : List (BitVec 8) := leBytes 4 k ++ leBytes 4 9 ++ leBytes 8 k
def s50_sort : State := eng 2 (cmd (cmdRaw 1 0x200000 0x210000 3 [])) (put 0x200000 (rec16 3 ++ rec16 1 ++ rec16 2))
def s50_merge (a b : Nat) : State :=
  eng 2 (cmd (cmdRaw 2 0x200000 (g0 + 2) 2 [])) fun m =>
    ((put 0x200000 (leBytes 4 g0 ++ leBytes 12 1 ++ leBytes 4 (g0 + 1) ++ leBytes 12 1) m).hbmWrite (256 * g0) (rec16 a)).hbmWrite
      (256 * (g0 + 1)) (rec16 b)
def l50t : List State := [s50_enc, s50_dec, s50_sort, s50_merge 5 4, s50_merge 4 4]

theorem test_hyp_StreamsAndSorting :
    passes s50_enc 1 6 encodeChecks = true ∧ passes s50_dec 1 7 decodeChecks = true ∧
    leAt (s50_dec.mem.tileRead 2 0x200000 32) 0 4 = 1 ∧ s50_dec.mem.tileRead 2 0x200020 32 = List.replicate 32 0 ∧
    isMx 7 = true ∧ passes s50_sort 2 1 sortChecks = true ∧ passes (s50_merge 5 4) 2 2 mergeChecks = true ∧
    (runsOf 2 ((s50_merge 5 4).mem.tileRead 2 0x200000 32)).map (fun r => (r.g, r.n)) = [(g0, 1), (g0 + 1, 1)] ∧
    (s50_merge 5 4).dev.mayReach (g0 + 2) 0 false true = true := by
  decide +kernel

def s50_score : State :=
  eng 3 (cmd (cmdRaw 1 0x200000 0x201000 0x202000 [(211, 6), (206, 6), (190, 1), (174, 1), (166, 1)]))
    (put 0x200000 (leBytes 1 0x7F ++ List.replicate 9 0 ++ bytes8) ∘ put 0x201000 (leBytes 1 0x80 ++ List.replicate 9 0 ++ bytes8))
def s50_topk : State :=
  eng 3 (cmd (cmdRaw 2 0x200000 0x201000 1 [(190, 3), (158, 2)])) (put 0x200000 (leBytes 4 0x40000000 ++ leBytes 4 0x40400000 ++ leBytes 4 0xC0000000))
def s50_thr : State :=
  eng 3 (cmd (cmdRaw 3 0x200000 0x201000 0 [(190, 3), (126, 0x40000000)])) (put 0x200000 (leBytes 4 0x40000000 ++ leBytes 4 0x40400000))
def s50_nz : State := eng 3 (cmd (cmdRaw 4 0x200000 0x201000 1 [(206, 1)])) (put 0x200000 (leBytes 8 (2 ^ 63 + 1)))
def lensDesc (mode : Nat) : List (BitVec 8) :=
  leBytes 4 0x210000 ++ leBytes 4 0x220000 ++ leBytes 4 0x330000 ++ leBytes 4 0x340000 ++ leBytes 1 mode
def s50_lens : State :=
  eng 3 (cmd (cmdRaw 5 0x200000 0x350000 0x360000 [(211, 6), (206, 6), (190, 32), (174, 1), (166, 1), (158, 1)])) (put 0x200000 (lensDesc 0))
def s50_check : State :=
  eng 3 (cmd (cmdRaw 5 0x200000 0x350000 0 [(206, 1), (190, 32), (166, 1)]))
    (put 0x200000 (lensDesc 1) ∘ put 0x340000 (leBytes 2 0 ++ leBytes 2 3 ++ leBytes 4 1) ∘ put 0x350000 bytes8)
def l50f : List State := [s50_score, s50_topk, s50_thr, s50_nz, s50_lens, s50_check]

theorem test_hyp_SiftWritesItsResults :
    passes s50_score 3 1 scoreChecks = true ∧ passes s50_topk 3 2 topkChecks = true ∧ passes s50_thr 3 3 threshChecks = true ∧
    passes s50_nz 3 4 nzmapChecks = true ∧ passes s50_lens 3 5 lensChecks = true ∧ passes s50_check 3 5 lensChecks = true ∧
    lensMode (cmd (cmdRaw 5 0x200000 0 0 [])) s50_lens.mem 2 = 0 ∧ lensMode (cmd (cmdRaw 5 0x200000 0 0 [])) s50_check.mem 2 = 1 ∧
    leAt (s50_check.mem.tileRead 2 0x340000 64) 4 4 = 32 / 32 ∧ byteAt (s50_check.mem.tileRead 2 0x340000 64) 2 % 4 = 3 ∧
    leAt (s50_check.mem.tileRead 2 0x340000 64) 0 2 = (s50_check.dev.ctx 5).e := by
  decide +kernel

/-! The fault manager, maintenance and trace -/

def mflit (src : Nat) (parts : List (Nat × List (BitVec 8))) : Flit := { mgmtFlit src 1 (frame 240 parts) with src := BitVec.ofNat 16 src }
/-- The ready device that endpoint 50 manages through port 255. -/
def managed : State :=
  on ready fun d =>
    let d := ((d.fdSet F.FLT_FM_CFG_EN 0 0 1).fdSet F.FLT_FM_CFG_FM_ID 0 0 50).fdSet F.FLT_FM_CFG_HB_EN 0 0 1
    (d.fdSet F.FLT_FM_PORTS_PORTS 3 0 (2 ^ 63)).fdSet F.FLT_FM_STAT_HBSEQ 0 0 0xFFFFFFFF
def cmdFlit (cseq op : Nat) : Flit :=
  mflit 50 [(0, leBytes 1 0x42), (4, leBytes 4 cseq), (8, leBytes 1 op), (9, leBytes 1 3), (10, leBytes 2 7), (12, leBytes 4 0x01020304),
    (16, leBytes 2 5), (18, leBytes 2 6)]
def s60_rx (p cseq : Nat) : State := on managed fun d => d.updCore fun c => { c with fmRx := [(p, cmdFlit cseq 1)] }
def fmc (op idx : Nat) : FmCmd :=
  { cseq := 9, op := op, level := 3, index := idx, arg := 0x3F0A8001, epoch := 4, xid := 8, applied := false, status := 0, reason := 0
    detail := 0 }
def inFm (s : State) (c : FmCmd) : State := on s fun d => d.updSys fun y => { y with fm := some c }
def s60_ack : State :=
  on (inFm managed { fmc 4 0 with applied := true }) fun d => d.updFlash fun f => { f with
    log := [{ kind := 4, func := 0xFF, key := 3, value := ackValue { fmc 4 0 with applied := true }, dseq := 0, ring := 0, rseq := 0 },
      { kind := 5, func := 0xFF, key := 0, value := 1, dseq := 0, ring := 0, rseq := 0 }] }
/-- The frame of the CSEQ last accepted, whose ACK is kept. -/
def s60_again : State := on (s60_rx 255 0xFFFFFFFF) fun d => (d.fdSet F.FLT_FM_STAT_CSEQ 0 0 0xFFFFFFFF).updSys fun y => { y with fmAck := [0x43] }
def l60 : List State := [managed, s60_again, s60_rx 255 0x7FFFFFFF, s60_rx 254 1, inFm managed (fmc 5 0), inFm managed (fmc 4 0), inFm managed (fmc 7 0),
  inFm managed (fmc 3 16), s60_ack]

theorem test_hyp_FaultManagerIsHeardAndAnswered :
    (l60.all fun s => s.dev.coreUp && s.dev.bit F.FLT_FM_CFG_HB_EN && s.dev.bit F.BOOT_STAT_READY && s.dev.hbCan &&
      s.dev.bit F.FLT_FM_CFG_EN && !(s.dev.d2dFailed 2)) = true ∧ s60_again.dev.sys.fm = none ∧ (s60_rx 255 1).dev.sys.fm = none ∧
    dist32 (plLe (cmdFlit 0xFFFFFFFF 1).payload 4 4) (s60_again.dev.fd F.FLT_FM_STAT_CSEQ) = 0 ∧ s60_again.dev.sys.fmAck ≠ [] ∧
    (let f := cmdFlit 0x7FFFFFFF 1
     plByte f.payload 0 = 0x42 ∧ f.src.toNat = managed.dev.fd F.FLT_FM_CFG_FM_ID ∧
       dist32 (plLe f.payload 4 4) (managed.dev.fd F.FLT_FM_STAT_CSEQ) = 2147483647) ∧
    bitAt (managed.dev.fd F.FLT_FM_PORTS_PORTS (255 / 64)) (255 % 64) = true ∧
    bitAt (managed.dev.fd F.FLT_FM_PORTS_PORTS (254 / 64)) (254 % 64) = false ∧
    fmBad (fmc 7 0) = true ∧ fmBad (fmc 3 16) = true ∧ fmBad (fmc 5 0) = false ∧
    s60_ack.dev.sys.flash.item 3 = some (ackValue { fmc 4 0 with applied := true }) := by
  decide +kernel

def s60_fence : State := inFm (on managed fun d => d.updPort 7 fun x => { x with state := .up }) (fmc 1 7)
def s60_unfence : State := inFm (on managed fun d => d.fdSet F.FLT_FENCE_LEVEL 255 0 3) (fmc 2 255)
def s60_abort : State :=
  inFm (on managed fun d => (d.updCtx 4095 fun c => { c with state := .open_, part := 15 }).updCtx 0 fun c => { c with state := .armed })
    (fmc 3 15)
def s60_xstart : State := inFm managed (fmc 6 60)
def job : XferJob := { xid := 8, dst := 60, parts := 1, bar := 0, epoch := 0, tables := 0, slot := 0 }
def s60_send (l : List (Nat × Flit)) : State :=
  on managed fun d => { (d.fdSet F.FLT_MAINT_STAT_STATE 0 0 1).fdSet F.FLT_MAINT_STAT_ACT 0 0 6 with
    core := { d.core with fmRx := l }
    sys := { d.sys with xfer := { d.sys.xfer with job := some job, taken := true, image := List.replicate 449 1, next := 2, high := 2 } } }
def s60_req : State := s60_send [(3, mflit 60 [(0, leBytes 1 0x45), (4, leBytes 2 8), (8, leBytes 4 1)])]
def chunkFlit : Flit := mflit 61 [(0, leBytes 1 0x44), (4, leBytes 2 8), (8, leBytes 4 1), (12, leBytes 4 3), (16, leBytes 4 99)]
def s60_chunk (arm : Nat) : State :=
  on managed fun d =>
    let d := ((d.fdSet F.FLT_XFER_CFG_ARM 0 0 arm).fdSet F.FLT_XFER_CFG_SRC 0 0 61).fdSet F.FLT_XFER_CFG_XFER_ID 0 0 8
    { d with core := { d.core with fmRx := [(3, chunkFlit)] }
             sys := { d.sys with xfer := { d.sys.xfer with chunks := [(0, [1])], nchunk := 3 } } }
def l60x : List State := [s60_fence, s60_unfence, s60_abort, s60_xstart, s60_send [], s60_req, s60_chunk 0, s60_chunk 1]

theorem test_hyp_FencesAndStateTransfer :
    (l60x.all fun s => s.dev.coreUp && !(s.dev.d2dFailed 2) && s.dev.bars.isEmpty && s.dev.sys.xfer.times.isEmpty) = true ∧ s60_fence.dev.fmInHand 1 = some (fmc 1 7) ∧
    s60_fence.dev.fd F.FLT_FENCE_LEVEL 7 ≠ 3 ∧ (s60_fence.dev.port 7).state ≠ .absent ∧
    s60_unfence.dev.fmInHand 2 = some (fmc 2 255) ∧ s60_abort.dev.fmInHand 3 = some (fmc 3 15) ∧
    (s60_abort.dev.ctx 4095).live = true ∧ s60_xstart.dev.fmInHand 6 = some (fmc 6 60) ∧
    s60_xstart.dev.maintRefusal 6 60 = none ∧ (s60_send []).dev.sys.xfer.next < (s60_send []).dev.sys.xfer.count ∧
    plByte chunkFlit.payload 0 = 0x44 ∧ chunkFlit.src.toNat = 61 ∧ plLe chunkFlit.payload 4 2 = 8 ∧
    plLe chunkFlit.payload 8 4 < plLe chunkFlit.payload 12 4 ∧
    (s60_chunk 1).dev.sys.xfer.chunks.length + 1 < plLe chunkFlit.payload 12 4 ∧
    (s60_chunk 1).dev.bit F.FLT_XFER_CFG_ARM = true ∧ (s60_chunk 0).dev.bit F.FLT_XFER_CFG_ARM = false ∧
    ((List.range 3).find? fun c => (tblGet [] (s60_chunk 1).dev.sys.xfer.chunks c).isEmpty) = some 1 := by
  decide +kernel

def maintDesc (act idx cancel : Nat) : Desc := descOf [(0, 1, 0xF), (28, 1, cancel), (29, 1, act), (30, 2, idx), (36, 2, 15)] []
def slots (s : State) (l : List (Nat × Nat × Nat × Nat)) : State :=
  on s fun d => l.foldl (fun d e => ((d.fdSet F.FLT_MAINT_STAT_STATE e.1 0 e.2.1).fdSet F.FLT_MAINT_STAT_ACT e.1 0 e.2.2.1).fdSet
    F.FLT_MAINT_STAT_INDEX e.1 0 e.2.2.2) d
def s60_canary : State := on ready fun d => (d.fdSet F.FLT_SC_CFG_CANARY_EN 0 0 1).updSys fun y => { y with canary := 63 }
def failT : CanaryFail := { tile := 31, sift := true, temp := 1, rail := 2 }
def s60_step : State :=
  on (slots ready [(15, 1, 2, 0)]) fun d => (d.updPort 3 fun x => { x with state := .up }).updMaint 15 fun m => { m with
    lanes := [(3, 4)], counts := [0, 0, 0] }
def s60_retry : State := on ready fun d => d.updSys fun y => { y with retry := [(1, 1)] }
def s60_loupe : State :=
  on ready fun d =>
    let d := { d with cycle := 9 }
    let d := ((d.fdSet F.LOUPE_CTRL_MODE 0 0 1).fdSet F.LOUPE_CTRL_SIZE_LOG2 0 0 20).fdSet F.MEM_LAYOUT_CAP_GIB 0 0 1
    ((d.setRawF .LOUPE_BASE 0 0 0 (0x2FC00000 * 256)).setRawF .LOUPE_WPTR 0 0 0 (2 ^ 64 - 1)).updSys fun y => { y with
      loupe := { y.loupe with q := [{ cycle := 8, key := 0, bytes := List.replicate 32 5 }], lost := true } }
def l60m : List State := [s60_canary, inHand ready (maintDesc 1 1 0), inHand ready (maintDesc 2 15 0), inHand ready (maintDesc 3 33 0), inHand ready (maintDesc 4 0 0),
  inHand (slots ready [(0, 1, 1, 0), (1, 2, 1, 1)]) (maintDesc 1 1 0), inHand (slots ready [(15, 1, 3, 32)]) (maintDesc 0 0 1), s60_step, slots ready [(15, 2, 3, 33)], s60_retry,
  s60_loupe]

theorem test_hyp_CanariesMaintenanceAndTrace :
    (l60m.all fun s => !s.dev.inReset && s.dev.coreUp &&
      [maintDesc 1 1 0, maintDesc 2 15 0, maintDesc 3 33 0, maintDesc 4 0 0, maintDesc 0 0 1].all fun x =>
        !s.dev.descTaken x && (s.dev.cutReason x).isNone) = true ∧
    s60_canary.dev.bit F.FLT_SC_CFG_CANARY_EN = true ∧ s60_canary.dev.domOn 31 = true ∧ s60_canary.dev.phys 31 < 34 ∧
    (maintDesc 1 1 0).arg 28 1 = 0 ∧ (maintDesc 2 15 0).arg 29 1 = 2 ∧
    [(1, 1), (2, 15), (3, 33), (4, 0)].map (fun e => ready.dev.maintRefusal e.1 e.2) = [none, none, none, none] ∧
    (slots ready [(0, 1, 1, 0), (1, 2, 1, 1)]).dev.maintRefusal 1 1 = some (0x80, 1, 1) ∧
    (maintDesc 0 0 1).arg 28 1 = 1 ∧ (maintDesc 0 0 1).arg 36 2 = 15 ∧ (slots ready [(15, 1, 3, 32)]).dev.maintBusy 15 = true ∧
    (slots ready [(15, 1, 3, 32)]).dev.maintAct 15 ≠ 5 ∧ s60_step.dev.maintAct 15 = 2 ∧
    (s60_step.dev.maint 15).lanes = [(3, 4)] ∧ (s60_step.dev.maint 15).step = 0 ∧ portUp (s60_step.dev.port 3).state = true ∧
    s60_step.dev.fd F.FLT_FENCE_LEVEL 3 = 0 ∧ (slots ready [(15, 2, 3, 33)]).dev.fd F.FLT_MAINT_STAT_STATE 15 = 2 ∧
    s60_retry.dev.sys.retry = [(1, 1)] ∧
    (let d := s60_loupe.dev
     let n := ringLog2 0 (d.fd F.LOUPE_CTRL_SIZE_LOG2)
     d.fd F.LOUPE_CTRL_DEST = 0 ∧ d.fd F.LOUPE_CTRL_MODE = 1 ∧
       d.captureRing (d.fd F.LOUPE_BASE_BASE / 2 ^ n * 2 ^ n) n = some 0 ∧ d.d2dFailed 0 = false ∧ 8 < d.cycle ∧
       d.sys.loupe.took ≠ d.cycle + 1) := by
  decide +kernel

/-! The host interface -/

/-- Function 0 reachable, ring 63 as given. -/
def hosted (f : RingSt → RingSt) : State :=
  on ready fun d => (d.updFn 0 fun x => { x with linkUp := true, busMaster := true, kick := true, poll := some 1 }).updRing 0 63 f
def readDesc : BitVec 512 := BitVec.ofNat 512 (0xFFFFFFFF * 2 ^ 32)
def s70_pass : State := hosted fun g => { g with state := .running, cons := 0xFFFFFFFF, prod := 0, expSeq := 0xFFFFFFFF }
def nopDesc (bad : Nat) : Desc := descOf [(0, 1, 0), (3, 1, bad)] []
def s70_start (x : Desc) : State := hosted fun g => { g with state := .running, accepted := [x] }
def compl0 : Compl := { desc := nopDesc 0, status := 0, reason := 0, result := 7, time := 1 }
def s70_done : State :=
  on (hosted fun g => { g with state := .running, done := [compl0] }) fun d =>
    ((d.fdSetF F.HOST_CQ_CFG_EN 0 63 0 1).fdSetF F.HOST_CR_CFG_CQ 0 63 0 63).updCq 0 63 fun q => { q with prod := 0xFFFFFFFF, cons := 0xFFFFFFFE }
def s70_stop (b : Bool) : State := hosted fun g => { g with state := .stopping, disabling := b }
def tblDesc (tbl idx v : Nat) : Desc := descOf [(0, 1, 1), (28, 1, 1)] (leBytes 8 v ++ leBytes 7 idx ++ leBytes 1 (16 * tbl))
def bare (x : Desc) : Desc := { x with data := [] }
def l70 : List State := [s70_start (descOf [(0, 1, 0x12)] []), s70_start (bare (tblDesc 7 0 0)), s70_pass, s70_start (nopDesc 0), s70_start (nopDesc 1), s70_done, s70_stop true, s70_stop false]

theorem test_hyp_RingsAcceptStartAndComplete :
    (l70.all fun s => !s.dev.inReset && s.dev.fnReach 0 && (s.dev.fn 0).kick && (s.dev.fn 0).poll.isSome &&
      s.dev.fdF F.HOST_DB_CFG_MODE 0 0 0 == 0 && s.dev.bit F.BOOT_STAT_READY) = true ∧
    (∀ k : Fin 63, (s70_pass.dev.ring 0 k.val).state ≠ .running) ∧ (s70_pass.dev.ring 0 63).cons < m32 ∧
    (s70_pass.dev.ring 0 63).prod = ((s70_pass.dev.ring 0 63).cons + 1) % m32 ∧
    leAt (leBytes 64 readDesc.toNat) 4 4 = (s70_pass.dev.ring 0 63).expSeq ∧
    (let d := (s70_start (nopDesc 0)).dev
     let x := nopDesc 0
     d.mayStart x = true ∧ bufRead x = none ∧ reservedOp x = false ∧ badFields x = false ∧ d.authOk x true = true ∧
       d.featureOk x = true ∧ d.unreachable x = none ∧ ((d.domsOf x).filter fun n => !d.domOn n) = [] ∧ x.op ≠ 0xF) ∧
    reservedOp (descOf [(0, 1, 0x12)] []) = true ∧ (s70_start (descOf [(0, 1, 0x12)] [])).dev.mayStart (descOf [(0, 1, 0x12)] []) = true ∧
    (let d := (s70_start (bare (tblDesc 7 0 0))).dev
     let x := bare (tblDesc 7 0 0)
     d.mayStart x = true ∧ (bufRead x).isSome = true ∧ needsCore x = true ∧ d.linkHeld coreDom = false ∧ diesOf x = [] ∧
       x.mcast = (d.fd F.CORE_CTX_R_MODE (x.arg 28 2 % 4096) == 1) ∧ reservedOp x = false ∧ badFields x = false ∧
       (∀ b, d.authOk x b = true) ∧ d.featureOk x = true) ∧
    badFields (nopDesc 1) = true ∧ s70_done.dev.fdF F.HOST_CQ_CFG_EN 0 (s70_done.dev.fdF F.HOST_CR_CFG_CQ 0 63 0) 0 = 1 ∧
    dist32 ((s70_done.dev.fn 0).cq 63).prod ((s70_done.dev.fn 0).cq 63).cons ≠ 2 ^ ringExp (s70_done.dev.fdF F.HOST_CQ_CFG_SIZE_LOG2 0 63 0) ∧
    (s70_done.dev.ring 0 63).active = [] ∧ ((s70_stop true).dev.ring 0 63).state = .stopping := by
  decide +kernel

def scopeDesc (op f i fl : Nat) : Desc := descOf [(0, 1, op), (28, 1, f), (29, 1, fl), (30, 2, i)] []
def qmr0 (q : Bool) (st : Tbl (Option (BitVec 64))) : Qmr := { host := 0, ring := 63, func := 6, index := 0, quiesced := q, stage := st }
def held (l : List (Nat × Qmr)) (x : Desc) : State := on (inHand ready x) fun d => l.foldl (fun d e => d.setQmr e.1 (some e.2)) d
def basic (s : State) : State := on s fun d => d.fdSet F.HOST_LEVEL_EXPERT 0 0 0
def l70d : List State := [inHand ready (nopDesc 0), inHand ready (descOf [(0, 1, 0x12)] []), inHand ready (tblDesc 7 0 0),
  inHand ready (tblDesc 3 16383 1), inHand ready (tblDesc 5 255 1), held [(0, { qmr0 true [] with func := 2 })] (scopeDesc 0xA 6 0 0),
  held [(15, qmr0 true [(regKey .CORE_BAR_CFG 0 0 0, some 9)])] (scopeDesc 0xB 6 0 0), held [(15, qmr0 true [])] (scopeDesc 0xB 6 0 1),
  inHand ready (scopeDesc 0xC 6 0 0), basic (inHand ready (scopeDesc 0xC 6 0 0)), held [(15, qmr0 false [])] (scopeDesc 0xA 6 0 0)]

theorem test_hyp_DescriptorsOfTheHostInterface :
    (l70d.take 10 |>.all fun s => !s.dev.inReset && (s.dev.ring 0 63).active.all fun x => !s.dev.descTaken x && (s.dev.cutReason x).isNone) = true ∧
    (inHand ready (tblDesc 7 0 0)).dev.olderUpdate 7 = false ∧ ready.dev.sys.pwr.accs = [] ∧
    ((l70d.map fun s => (s.dev.ring 0 63).active.map fun x => (x.op, reservedOp x)) =
      [[(0, false)], [(0x12, true)], [(1, false)], [(1, false)], [(1, false)], [(0xA, false)], [(0xB, false)], [(0xB, false)],
       [(0xC, false)], [(0xC, false)], [(0xA, false)]]) ∧
    (tblRecs (tblDesc 7 0 0)).map recNoEntry = [true] ∧
    (tblRecs (tblDesc 3 16383 1)).map (fun e => (recNoEntry e, ready.dev.recBad e)) = [(false, false)] ∧
    (tblRecs (tblDesc 5 255 1)).map (fun e => (recNoEntry e, ready.dev.recBad e)) = [(false, false)] ∧
    (held [(0, { qmr0 true [] with func := 2 })] (scopeDesc 0xA 6 0 0)).dev.qmrSlot 6 0 = none ∧
    (held [(15, qmr0 true [])] (scopeDesc 0xB 6 0 1)).dev.qmrSlot 6 0 = some (15, qmr0 true []) ∧
    (inHand ready (scopeDesc 0xC 6 0 0)).dev.expert 6 = true ∧ (basic ready).dev.expert 6 = false ∧
    (held [(15, qmr0 false [])] (scopeDesc 0xA 6 0 0)).dev.quiesceDesc (qmr0 false []) = some (scopeDesc 0xA 6 0 0) ∧
    (held [(15, qmr0 false [])] (scopeDesc 0xA 6 0 0)).dev.scopeDrained 6 0 = true := by
  decide +kernel

def s70_coal : State :=
  on (hosted id) fun d =>
    ((d.fdSetF F.HOST_EQ_CFG_COAL_T 0 3 0 1).fdSetF F.HOST_CQ_CFG_COAL_T 0 3 0 1).updFn 0 fun f => { f with
      eq := [(3, { EqSt.reset with pend := 1 })], cqs := [(3, { CqSt.reset with pend := 1 })] }
def s70_rings : State := on (hosted fun g => { g with state := .running, active := [nopDesc 0] }) fun d => d.updRing 0 0 fun g => { g with state := .running }
def s70_up : State := on State.reset fun d => d.fdSet F.BOOT_STAT_STEP 0 0 2
/-- The clock of function 1's port did not toggle. -/
def s70_absent : State := on s70_up fun d => d.updFn 1 fun f => { f with absent := true }
def l70v : List State := [s70_coal, s70_rings, s70_up, s70_absent]

theorem test_hyp_VectorsHeartbeatsAndLinks :
    (l70v.all fun s => !s.dev.inReset) = true ∧ (s70_coal.dev.fn 0).linkUp = true ∧ (s70_coal.dev.fn 0).busMaster = true ∧
    (s70_coal.dev.fn 0).flr = false ∧ 0 < ((s70_coal.dev.fn 0).eqOf 3).pend ∧ 0 < s70_coal.dev.fdF F.HOST_EQ_CFG_COAL_T 0 3 0 ∧
    0 < ((s70_coal.dev.fn 0).cq 3).pend ∧ 0 < s70_coal.dev.fdF F.HOST_CQ_CFG_COAL_T 0 3 0 ∧
    (s70_rings.dev.fn 0).linkUp = true ∧ (s70_rings.dev.ring 0 63).state = .running ∧ 2 ≤ s70_up.dev.bootStep ∧
    (s70_up.dev.fn 1).perst = false ∧ (s70_up.dev.fn 1).absent = false ∧ (s70_absent.dev.fn 1).absent = true := by
  decide +kernel

/-! The link layer -/

def rawFlit (seq : Nat) : Flit :=
  { Flit.idle with
    type := 1, vl := 7, fmt := 1, form := 0, lseq := BitVec.ofNat 12 seq, lack := 9, cred := 3, cvl := 7, dst := 7 }
/-- A flit whose HCRC is right. -/
def goodFlit : Flit := { rawFlit 4095 with hcrc := 0xEE57C0AC }

theorem crc_in_two (n : Nat) (s : BitVec 32) (l : List (BitVec 8)) :
    l.foldl crc32Byte s = (l.drop n).foldl crc32Byte ((l.take n).foldl crc32Byte s) := by
  rw [← List.foldl_append, List.take_append_drop]

/-- The header's 28 bytes and the payload's 256, in four parts. -/
theorem test_hcrc_good : goodFlit.hcrc = hcrcOf goodFlit := by
  have h (l : List (BitVec 8)) (a : ((l.take 71).foldl crc32Byte 0xFFFFFFFF#32) = 0x014A6619)
      (b : (((l.drop 71).take 71).foldl crc32Byte 0x014A6619) = 0x43E67D7A)
      (c : ((((l.drop 71).drop 71).take 71).foldl crc32Byte 0x43E67D7A) = 0xBBE590AD)
      (e : ((((l.drop 71).drop 71).drop 71).foldl crc32Byte 0xBBE590AD) ^^^ 0xFFFFFFFF#32 = 0xEE57C0AC#32) :
      0xEE57C0AC#32 = crc32 l := by
    rw [crc32, crc_in_two 71, a, crc_in_two 71, b, crc_in_two 71, c, e]
  exact h _ (by decide +kernel) (by decide +kernel) (by decide +kernel) (by decide +kernel)

def upLink : LinkSt :=
  { LinkSt.reset with
    lstate := .active, aligned := true, rxExpect := 4095, txNext := 10, outst := [0, 0, 0, 0, 0, 0, 0, 1]
    avail := [0, 0, 0, 0, 0, 0, 0, 4092] }
def wide : PortSt := { PortSt.reset with width := 4, txMap := 0x688, rxMap := 0x688, state := .up }
def s80_port (x : PortSt) (l : LinkSt) : State := dev fun d => (d.updPort 3 fun _ => x).updLink 3 fun _ => l
def s80 (l : LinkSt) : State := on (s80_port wide l) fun d => d.updCore fun c => { c with backed := 1 }

/-- The signal of goodFlit's slot with no operation, and its parts with codeword A and the rest of codeword B. -/
def sigOf : Signal := (slotSignal 4 0x688 upLink.scrRx 0 0 goodFlit).1
def sigPart (b : Bool) : Signal := (List.range 5).map fun i => (if b then List.drop else List.take) (5 * countA 4 i) (at_ [] sigOf i)
def slotRx : RxSlot := { lc := 0, aOk := true, b := .ok, corr := [0, 0, 0, 0, 0], flit := goodFlit }

/-- A slot's coding and its decoding agree (R83-R87), and a signal of no lane is in error. -/
theorem test_slots_decode :
    ((s80 upLink).dev.rxDecode 3 sigOf).1 = slotRx ∧ ((s80 upLink).dev.rxDecode 3 []).1.aOk = false ∧
    ((s80 upLink).dev.rxDecode 3 []).1.b ≠ .later := by
  decide +kernel

/-- The flit a codeword B completes: R83's second message. -/
def settled (e : Flit) (m : Nat) : Flit :=
  { e with
    hcrc := BitVec.ofNat 32 m
    payload := BitVec.ofNat 2048 (e.payload.toNat % 2 ^ 920 + swapBytes 141 (m / 2 ^ 32) * 2 ^ 920) }

/-- The early part of a slot leaves the rest to codeword B (R112). -/
theorem test_early_slots_decode :
    (let r := (s80 upLink).dev.rxDecode 3 (sigPart false)
     r.1.b = .later ∧ r.1.aOk = true ∧ ((((s80 { upLink with scrRx := r.2 }).dev.rxDecodeB 3 (sigPart true)).1).any fun x =>
       decide (settled r.1.flit (messageOf x.1) = goodFlit)) = true) := by
  decide +kernel

def sel (f : Flit) : TxSel := { queue := 4, cell := qc 1 f, stomp := false }
def selLink : LinkSt := { upLink with txNext := 4095, txSel := [sel { goodFlit with cred := 0, cvl := 0 }] }
def repLink (i : Nat) : LinkSt := { upLink with lstate := .replay, cursor := some i, replayList := heldTwo }
def rstr (hits : List Nat) (tell : List (BitVec 16)) : PortSt :=
  { wide with state := .restripe, txFail := 0x10, rxFail := 0x11, restripe := some { width := 2, hits := hits, rmap := 0xFFF, announce := tell } }
def s80_step3 : State := s80_port { wide with state := .training, step := 3 } upLink
def s80_relock : State := s80 { upLink with lstate := .doze, waking := true }
def l80 : List State := [s80 upLink, s80 { upLink with rxExpect := 0 }, s80 { upLink with blkTx := 6472 }, s80 selLink, s80 (repLink 0),
  s80 (repLink 1), s80_port (rstr [0, 0, 0, 0] []) upLink, s80_step3, s80_relock]

theorem test_hyp_SlotsAreReceivedAndSent :
    (l80.all fun s => s.dev.coreUp && (s.dev.port 3).rxSteer.isNone && (s.dev.link 3).early.isNone &&
      (s.dev.port 3).txSteer.isNone && (s.dev.s2Of 3).isEmpty && !(s.dev.link 3).nakPending) = true ∧
    (s80 upLink).dev.lcDue 3 = (0, (s80 upLink).dev) ∧
    subMod 4096 (goodFlit.lack.toNat + 1) (subMod 4096 upLink.txNext upLink.replayList.length) = 0 ∧
    goodFlit.lseq.toNat = upLink.rxExpect ∧ flitViolation goodFlit = none ∧ goodFlit.type ≠ 0 ∧
    0 < at_ 0 upLink.outst goodFlit.vl.toNat ∧ at_ 0 upLink.avail goodFlit.cvl.toNat + goodFlit.cred.toNat ≤ 4095 ∧
    fencePasses ((s80 upLink).dev.fd F.FLT_FENCE_LEVEL 3) goodFlit = true ∧ goodFlit.lseq.toNat ≠ 0 ∧
    behind 4096 goodFlit.lseq.toNat 0 = true ∧
    (∀ v : Fin 8, at_ 0 selLink.initDue v.val = 0 ∧ at_ 0 selLink.due v.val = 0) ∧
    0 < at_ 0 selLink.avail (sel goodFlit).cell.flit.vl.toNat ∧ (sel goodFlit).cell.flit.type ≠ 7 ∧
    (s80 (repLink 1)).dev.lcDue 3 = (0, (s80 (repLink 1)).dev) ∧ (repLink 1).replayList[1]? = heldTwo[1]? ∧
    (s80_step3.dev.port 3).step = 3 ∧ (s80_relock.dev.link 3).waking = true := by
  decide +kernel

def lcLink (v n : Nat) (l : LinkSt) : LinkSt := { l with lcVal := BitVec.ofNat 16 v, lcCount := n }
def farNak : LinkSt := { nakLink with lcVal := 0x1006 }
def nextNak : LinkSt := { nakLink with lcVal := 0x1005 }
def steer0 (a : Bool) : Steer := { lane := 3, fromWave := 3, toWave := 4, countdown := 0, acked := a, switched := false, repeats := 0 }
def s80_wait : State := s80_port { wide with txSteer := some (steer0 false) } nakLink
def l80r : List State := [s80 nakLink, s80 farNak, s80 nextNak, s80 { upLink with nakPending := true }, s80 fullLink, s80 { fullLink with lstate := .init },
  s80 { nakLink with consec := 16 }, s80 { upLink with lstate := .init }, s80 (lcLink 0x7000 2 upLink), s80 (lcLink 0x6000 2 upLink),
  s80 (lcLink 0xA000 1 upLink), s80 (lcLink 0xFFFF 1 upLink), s80_wait]
def s80_later : State := s80_port (rstr [0, 0, 0, 0] []) (lcLink 0x7000 2 upLink)

theorem test_hyp_ReplaysStartAndLimitsRetrain :
    (l80r.all fun s => s.dev.coreUp && (s.dev.port 3).state == .up && !(s.dev.bit F.PORT_PROTO_CAP_VALID 3)) = true ∧
    nakLink.accepted (0x1000 + 4) = true ∧ subMod 4096 4 (subMod 4096 nakLink.txNext nakLink.replayList.length) = 1 ∧
    nextNak.accepted (0x1000 + 5) = true ∧ subMod 4096 5 (subMod 4096 nextNak.txNext nextNak.replayList.length) = 2 ∧
    farNak.accepted (0x1000 + 6) = true ∧ subMod 4096 6 (subMod 4096 farNak.txNext farNak.replayList.length) = 3 ∧
    steerBusy (s80_wait.dev.port 3).txSteer = true ∧ (s80_later.dev.port 3).state = .restripe ∧
    2048 ≤ fullLink.replayList.length ∧ (lcLink 0x7000 2 upLink).accepted 0x7000 = true ∧
    (lcLink 0x6000 2 upLink).accepted 0x6000 = true ∧ 0xA ≤ (lcLink 0xA000 1 upLink).lcVal.toNat / 4096 := by
  decide +kernel

def annLink : LinkSt := { upLink with annVal := annWord 3 4 64, annCount := 2 }
/-- A restripe marker of lane n, width code w, on wavelength n. -/
def rMark (n w : Nat) : Marker := { mcount := 0, lane := BitVec.ofNat 3 n, width := BitVec.ofNat 2 w, wave := BitVec.ofNat 3 n, rstr := true }
def mBlock (m : Marker) : Block := fiveCopies (markerWord m)
def l80s : List State := [s80_port wide (lcLink (0x2000 + 3 * 1024 + 1 * 128) 2 upLink),
  s80_port wide (lcLink (0x2000 + 3 * 1024 + 3 * 128) 2 upLink), s80_port { wide with txFail := 0x10 } (lcLink (0x2000 + 3 * 1024 + 3 * 128) 2 upLink),
  s80_port wide annLink, s80_port { wide with txFail := 0x10, rxFail := 0x1C } (lcLink 0x5000 2 upLink),
  s80_port { wide with txSteer := some (steer0 true) } (lcLink (0x4000 + 3 * 1024 + 4 * 128) 2 upLink),
  s80_port { wide with txSteer := some (steer0 false) } upLink, s80_port { wide with rxSteer := some (steer0 true) } upLink,
  s80_port (rstr [15, 16, 0, 0] [0x5000]) upLink, s80_port (rstr [16, 16, 0, 0] []) { upLink with replayList := heldTwo, lstate := .restripe },
  s80_port { rstr [16, 16, 0, 0] [] with retrainAfter := true } upLink, s80_port { rstr [15, 16, 0, 0] [] with minW := 2 } upLink]

theorem test_hyp_LanesSteerAndPortsRestripe :
    (l80s.all fun s => s.dev.coreUp && (s.dev.port 3).pendFail.isEmpty && (s.dev.link 3).nakWait.isNone) = true ∧
    (lcLink (0x2000 + 3 * 1024 + 3 * 128) 2 upLink).accepted (0x2000 ||| 3 <<< 10 ||| 3 <<< 7) = true ∧
    (lcLink (0x2000 + 3 * 1024 + 1 * 128) 2 upLink).accepted (0x2000 ||| 3 <<< 10 ||| 1 <<< 7) = true ∧
    mapWave wide.txMap 3 = 3 ∧ mapLane wide.txMap 3 = some 3 ∧ spareFree wide.txFail wide.txMap wide.spareEn = true ∧
    spareFree 0x10 wide.txMap wide.spareEn = false ∧ mapWave wide.rxMap 3 ≠ 4 ∧ (lcLink 0x5000 2 upLink).accepted 0x5000 = true ∧
    min (min (dirWidth 0x10 true) (dirWidth 0x1C true)) wide.maxW = 2 ∧ 0 < wide.minW ∧ wide.minW ≤ 2 ∧
    (lcLink (0x4000 + 3 * 1024 + 4 * 128) 2 upLink).accepted (0x4000 ||| 3 <<< 10 ||| 4 <<< 7) = true ∧
    (steer0 true).toWave = 4 ∧ (steer0 false).countdown = 0 ∧ wide.restriped = false ∧
    (∀ k : Fin 2, 16 ≤ at_ 0 [16, 16, 0, 0] k.val) := by
  decide +kernel

/-- Markers of the widths below, at and above a proposal of 2, and one of no type (R89, R119). -/
theorem test_restripe_markers_are_taken :
    acceptMarker (mBlock (rMark 1 2)) = some (rMark 1 2) ∧ acceptMarker (mBlock (rMark 0 1)) = some (rMark 0 1) ∧ acceptMarker [] = none ∧
    acceptMarker (mBlock (rMark 3 3)) = some (rMark 3 3) ∧ [1, 2, 3].map widthOf = [1, 2, 4] := by
  decide +kernel

def marked : LinkSt :=
  { upLink with aligned := false, laneMark := [some 0, some 0, some 0, some 0xFFFF], laneMiss := [0, 0, 0, 3], laneGood := [2, 2, 2, 1] }
def mark (n : Nat) : Marker := { mcount := 0, lane := BitVec.ofNat 3 n, width := 3, wave := BitVec.ofNat 3 n, rstr := false }
def early : LinkSt := { upLink with early := some { slotRx with b := .later } }
def dozing : LinkSt := { upLink with lstate := .doze }
/-- An entry into A3 waits for port 3 to doze. -/
def s80_a3 (n : Nat) : State :=
  on (s80 { upLink with dozeReq := true, dozeTries := n }) fun d => d.updPwr fun w => { w with step := 6, cur := some (descOf [(28, 1, 3)] []) }
def l80a : List State := [s80 marked, s80 (lcLink 0x8000 2 upLink), s80 (lcLink 0x9000 2 { upLink with dozeReq := true }),
  s80 { upLink with dozeAck := 1 }, s80 dozing, s80 early, s80_relock, s80 { upLink with dozeReq := true, dozeTries := 2 }, s80 { marked with aligned := true }]

theorem test_hyp_LinksAlignDozeAndSettle :
    (l80a.all fun s => s.dev.coreUp && !s.dev.inReset && s.dev.sys.pwr.step != 6 && s.dev.domState (engineDom 0) == 2 &&
      s.dev.domState coreDom == 2) = true ∧
    acceptMarker (mBlock (mark 3)) = some (mark 3) ∧ at_ none marked.laneMark 3 = some (((mark 3).mcount.toNat + 65535) % 65536) ∧
    marked.laneGood.length = 4 ∧
    (∀ i : Fin 4, 2 ≤ at_ 0 (updAt marked.laneGood 3 (· + 1)) i.val ∧ at_ none (updAt marked.laneMark 3 fun _ => some 0) i.val = some 0) ∧
    (lcLink 0x8000 2 upLink).accepted 0x8000 = true ∧ (lcLink 0x8000 2 upLink).txSel = [] ∧
    (lcLink 0x9000 2 { upLink with dozeReq := true }).accepted 0x9000 = true ∧ ((s80 dozing).dev.port 3).state = .up ∧
    ([s80_a3 0, s80_a3 2].all fun s => s.dev.sys.pwr.step == 6 && s.dev.sys.pwr.pend.isNone &&
      s.dev.sys.pwr.cur.any fun e => e.arg 28 1 % 4 == 3) = true ∧
    ((s80 early).dev.rxDecodeB 3 []).1 = none ∧ early.nakPending = false := by
  decide +kernel

/-! Memory -/

def mreq (op fmt form ofs : Nat) (pay : List (BitVec 8)) : Flit :=
  { Flit.idle with
    type := 4, vl := 5, src := 40, dst := 1, fmt := BitVec.ofNat 5 fmt, form := BitVec.ofNat 2 form, ofs := BitVec.ofNat 32 ofs
    tag := BitVec.ofNat 16 (op * 4096 + 0x123), payload := payloadOf pay }
def s85_mem (f : Flit) : State :=
  { (on (eng 3 (cmd 0) id) fun d => d.updCore fun c => { c with memRx := [(0, [qc 1 f])] }) with
    mem := (({ hbm := [], tile := [] } : Mem).hbmWrite (256 * g0) (leBytes 8 0x3F8000003F800000)).hbmWrite (256 * (g0 - 1)) [7] }
def l85f : List Flit := [mreq 0 0 3 g0 [], mreq 4 0 3 g0 [0x34, 0x12], mreq 1 0 3 g0 [1, 2], mreq 2 9 0 g0 [1], mreq 2 1 0 g0 [0, 0, 0x80, 0x3F],
  mreq 2 0xA 0 g0 [0, 0, 0x80, 0x3F], mreq 3 1 0 g0 [0, 0, 0x80, 0x3F], mreq 3 2 0 g0 [], mreq 3 3 0 g0 [], mreq 3 4 0 g0 [0x38], mreq 3 5 0 g0 [0x38],
  mreq 5 0 3 g0 [], mreq 15 0 0 g0 [], mreq 0 0 3 (g0 - 1) []]
def l85 : List State := l85f.map s85_mem

theorem test_hyp_MemoryRequestsAreServed :
    (l85.all fun s => s.dev.coreUp && !(s.dev.scopeHeld 4 0) && s.dev.domOn (dieDom 0) && s.dev.fd F.CORE_D2D_STAT_STATE 0 != 3) =
      true ∧
    l85f.map memOp = [0, 4, 1, 2, 2, 2, 3, 3, 3, 3, 3, 5, 15, 0] ∧ g0 % 8 = 0 ∧
    (∀ i : Fin 8, gDie (g0 + i.val) = gDie g0 ∧ ((s85_mem Flit.idle).dev).mayReach (g0 + i.val) 0 true true = true ∧
      ((s85_mem Flit.idle).dev).hbmFails (g0 + i.val) = false) ∧
    (s85_mem Flit.idle).dev.mayReach (g0 - 1) 0 true false = false ∧ g0 - 1 < hbmEnd := by
  decide +kernel

/-- Pool 1 of die 1: READY, head at buffer j, with records. -/
def s85_pool (head : Option Nat) (recs : Tbl Nat) (freed : Tbl Bool) (x : Desc) : State :=
  on (inHand ready x) fun d => { d with hbm := { d.hbm with
    pools := [(9, { state := 2, head := head, free := 5, recs := recs, freed := freed })] } }
def buf1 (j : Nat) : Nat := dieG + 26738688 + 0x100 * j
def allocDesc (n z : Nat) : Desc := descOf [(0, 1, 6), (28, 4, n), (32, 1, 1), (33, 1, z)] []
def freeDesc (g : Nat) : Desc := descOf [(0, 1, 7), (28, 4, g)] []
def hostDesc (op g : Nat) : Desc := descOf [(0, 1, op), (16, 8, 0x1000), (24, 4, 256), (28, 4, g)] (if op = 8 then List.replicate 256 0x5A else [])
def s85_init : State := on ready fun d => { d with hbm := { d.hbm with pools := [(9, { PoolSt.reset with state := 1 })] } }
def s85_win (en : Nat) : State :=
  on (eng 3 (cmd 0) id) fun d =>
    let d := (d.fdSetF F.HOST_WIN_CFG_EN 1 0 0 en).fdSetF F.HOST_WIN_CFG_SLOT 1 0 0 2
    (d.fdSet F.HOST_PART_OWN_OWNER 0 0 1).updBoot fun b => { b with bar4 := [false, true] }
def s85_ref (l : List (Nat × Nat)) : State := on ready fun d => { d with hbm := { d.hbm with refresh := l } }
def dirty (s : State) : State := { s with mem := (s.mem.hbmWrite (256 * buf1 0) (List.replicate 16 9)).hbmWrite (256 * buf1 1) (leBytes 8 (buf1 7)) }
def l85p : List State := [s85_init, s85_pool none [] [] (allocDesc 65536 0), s85_pool (some (buf1 0)) [] [] (allocDesc 4097 0),
  dirty (s85_pool (some (buf1 0)) [(0, 2)] [] (allocDesc 65536 2)), dirty (s85_pool (some (buf1 0)) [(0, 2)] [] (allocDesc 65536 0)),
  dirty (s85_pool (some (buf1 1)) [(1, 2)] [(1, true)] (allocDesc 65536 0)), s85_pool (some (buf1 16383)) [(16383, 2)] [] (allocDesc 65536 0),
  dirty (s85_pool (some (buf1 3)) [(0, 3)] [] (freeDesc (buf1 0))), s85_pool (some (buf1 0)) [] [] (freeDesc (buf1 16383)),
  inHand ready (hostDesc 8 g0), inHand (eng 3 (cmd 0) id) (hostDesc 9 g0), s85_win 1, s85_win 0, s85_ref [], s85_ref [(1, 65535)]]

theorem test_hyp_PoolsWindowAndHostCopies :
    (l85p.all fun s => s.dev.coreUp && !s.dev.inReset && !(s.dev.scopeHeld 4 1) && !(s.dev.scopeHeld 4 0) && !(s.dev.linkHeld (dieDom 0)) &&
      !(s.dev.linkHeld (dieDom 1)) && s.dev.hbm.bad.isEmpty) = true ∧
    (∀ x ∈ [allocDesc 4097 0, freeDesc (buf1 0), hostDesc 8 g0, hostDesc 9 g0], ready.dev.cutReason x = none ∧ ready.dev.memHeld x = false) ∧
    (s85_init.dev.pool 1 1).state = 1 ∧ 0 < (allocDesc 4097 0).arg 28 4 ∧ (allocDesc 65536 0).arg 28 4 = 256 * poolGran 1 ∧
    256 * poolGran 0 < (allocDesc 4097 0).arg 28 4 ∧ bitAt ((allocDesc 65536 0).arg 33 1) 1 = false ∧
    buf1 0 = dieG * 1 + ready.dev.poolBase 1 1 ∧
    poolLink ready.mem (s85_pool (some (buf1 0)) [] [] (allocDesc 1 0)).dev 1 1 (buf1 0) = buf1 1 ∧
    poolLink ready.mem (s85_pool (some (buf1 16383)) [] [] (allocDesc 1 0)).dev 1 1 (buf1 16383) = 0xFFFFFFFFFFFFFFFF ∧
    poolLink (dirty ready).mem (s85_pool (some (buf1 1)) [(1, 2)] [(1, true)] (allocDesc 1 0)).dev 1 1 (buf1 1) = buf1 7 ∧
    7 < ready.dev.poolCount 1 1 ∧ ready.dev.poolHolding 1 (buf1 16383 - dieG) = some 1 ∧ gDie (buf1 0) = 1 ∧ buf1 16383 < hbmEnd ∧
    hbmSpan (hostDesc 9 g0) = [g0] ∧ at_ false (s85_win 1).dev.sys.boot.bar4 1 = true ∧
    4294967296 * (s85_win 1).dev.fdF F.HOST_WIN_CFG_SLOT 1 0 0 + 402653184 = 256 * g0 ∧
    (s85_win 1).dev.winOk 1 g0 true = true ∧ (s85_win 1).dev.winOk 1 g0 false = true ∧ (s85_win 0).dev.winOk 1 g0 false = false ∧
    (s85_win 1).dev.d2dFailed 2 = false ∧ (s85_win 1).dev.d2dFailed (gDie g0) = false ∧
    (s85_win 1).dev.domOn (dieDom (gDie g0)) = true ∧ (s85_ref [(1, 65535)]).dev.hbm.refresh.contains (1, 65535) = true := by
  decide +kernel

/-! Power, resets and the package -/

def domSet (n st : Nat) (s : State) : State := on s fun d => d.fdSet F.PWR_DOM_STAT_STATE n 0 st
def pwr (f : PwrSt → PwrSt) (s : State) : State := on s fun d => d.updPwr f
def inState (y : Nat) (s : State) : State := on s fun d => d.fdSet F.PWR_STAT_STATE 0 0 y
/-- The governor on, with waves of 2, in force; and off. -/
def govBy (e : Nat) (s : State) : State :=
  on s fun d =>
    let d := (d.fdSet F.PWR_GOV_CFG_EN 0 0 e).fdSet F.PWR_GOV_CFG_WAVE 0 0 2
    d.updPwr fun w => { w with gcfg := d.rawF .PWR_GOV_CFG 0 0 0 }
def gov (s : State) : State := govBy 1 s
def noGov (s : State) : State := govBy 0 s
def filled (s : State) : State := { s with mem := s.mem.tileWrite 5 100 [1, 2, 3] }
def s86_off : State := domSet 70 0 (domSet 34 0 (domSet 5 0 (noGov ready)))
def s86_wave (w l : List (Nat × Nat)) : State :=
  pwr (fun x => { x with held := l, wave := w }) (domSet 5 0 (domSet 6 0 (domSet 7 0 (gov ready))))
def s86_waking (n : Nat) : State := domSet n 1 ready
def s86_idle (y : Nat) : State := inState y ready
def s86_enter (n y : Nat) (l : List Nat) : State := filled (pwr (fun x => { x with demanded := l }) (domSet n 3 (inState y ready)))
def l86 : List State := [s86_off, s86_wave [(0, 8)] [], s86_wave [(0, 3), (0, 4)] [], pwr (fun w => { w with demanded := [39] }) (s86_waking 5), s86_wave [] [(0, 7), (0, 5), (0, 6)], domSet 5 4 ready, s86_waking 5, s86_waking 86, s86_idle 1, s86_idle 2,
  s86_enter 5 1 [], s86_enter 5 2 [], s86_enter 5 3 [5], s86_enter 68 2 []]

theorem test_hyp_DomainsWakeFailAndGate :
    (l86.all fun s => !s.dev.inReset && s.dev.domLicensed 5 && s.dev.domLicensed 34) = true ∧ s86_off.dev.domState 70 = 0 ∧
    s86_off.dev.domState 34 = 0 ∧ s86_off.dev.domOn 0 = true ∧ s86_off.dev.govOn = false ∧ [5, 34, 70, 86].map s86_off.dev.domHome = [some 5, some 34, some 70, some 86] ∧
    ready.dev.domHome 32 = none ∧ ready.dev.domState 32 = 0 ∧ waved 70 = false ∧
    (s86_wave [(0, 8)] []).dev.govOn = true ∧ (s86_wave [(0, 8)] []).dev.waveSize = 2 ∧ (s86_wave [(0, 8)] []).dev.domState 5 = 0 ∧ waved 5 = true ∧
    (s86_wave [(0, 3), (0, 4)] []).dev.cycle = 0 ∧
    ((s86_wave [] [(0, 7), (0, 5), (0, 6)]).dev.sys.pwr.held.all fun e => (s86_wave [] []).dev.domHome e.2 == some e.2 &&
      (s86_wave [] []).dev.domState e.2 == 0) = true ∧ (s86_waking 5).dev.sys.pwr.accs = [] ∧
    (s86_waking 86).dev.domState 86 = 1 ∧ (s86_idle 1).dev.gateable 5 = true ∧ (s86_idle 2).dev.gateable 68 = true ∧
    (s86_idle 1).dev.gateable 68 = false ∧ (s86_idle 1).dev.domOn 5 = true ∧ (s86_enter 5 3 [5]).dev.domState 5 = 3 := by
  decide +kernel

def powerDesc (y : Nat) : Desc := descOf [(0, 1, 0xE), (28, 1, y)] []
def change (y step : Nat) (s : State) : State := pwr (fun w => { w with cur := some (powerDesc y), step := step }) (inHand s (powerDesc y))
def resident (s : State) : State :=
  on s fun d => (d.updCtx 9 fun c => { c with state := .armed, tile := 2, slot := some 1 }).updCtx 10 fun c => { c with state := .armed, tile := 2 }
def s86_req (y now : Nat) : State := inState now (inHand ready (powerDesc y))
def s86_open : State := ctxAt (s86_req 2 0) 5 fun c => { c with state := .open_, tile := 2 }
def s86_pend : State :=
  pwr (fun w => { w with cur := some { powerDesc 1 with order := 3 }, step := 1 }) (inHand ready (powerDesc 0))
/-- One request waits already. -/
def s86_third : State := pwr (fun w => { w with pend := some { powerDesc 2 with order := 5 } }) s86_pend
def s86_last : State :=
  (List.range 16).foldl (fun s n => domSet (70 + n) 2 s) (domSet 86 2 (change 2 8 ready))
def s86_doze (i : Nat) : State :=
  on ready fun d =>
    ((d.fdSet F.PWR_DOZE_EN_PORTS 1 0 i).updPort 127 fun x => { x with state := .up }).updLink 127 fun l => { l with lstate := .active }
def s86_gov (floor fall : Nat) : State :=
  on (gov ready) fun d =>
    let e := d.fdSet F.PWR_GOV_CFG_FALL 0 0 fall
    d.updPwr fun w => { w with gov := 3000, gcfg := e.rawF .PWR_GOV_CFG 0 0 0, gfloor := floor }
def l86p : List State := [s86_req 0 0, s86_req 0 2, s86_req 2 0, s86_req 3 1, s86_open, s86_pend, s86_third, change 2 1 (resident ready), s86_last, change 2 2 ready,
  s86_doze (2 ^ 63), s86_doze 0, inState 3 (s86_doze 0), s86_gov 0 0, s86_gov 255 20]

theorem test_hyp_PowerEntriesAndTheGovernor :
    (l86p.all fun s => !s.dev.inReset && s.dev.sys.resets.isEmpty && s.dev.coreUp) = true ∧
    (s86_req 0 0).dev.inHand 0 63 0xE = some (powerDesc 0) ∧ (s86_req 0 0).dev.descTaken (powerDesc 0) = false ∧
    (s86_req 3 1).dev.entryRefused 3 = none ∧ (s86_req 0 2).dev.pwrState = 2 ∧ s86_open.dev.entryRefused 2 = some (0, 2) ∧
    s86_pend.dev.descTaken (powerDesc 0) = false ∧ s86_pend.dev.sys.pwr.pend = none ∧
    9 ∈ (resident ready).dev.liveCtxs ∧ ready.dev.d2dFailed 0 = false ∧ ready.dev.d2dFailed 1 = false ∧ s86_third.dev.sys.pwr.pend.isSome = true ∧ s86_last.dev.wanted 2 = [] ∧ (change 2 2 ready).dev.sys.pwr.off = [] ∧
    bitAt ((s86_doze (2 ^ 63)).dev.fd F.PWR_DOZE_EN_PORTS 1) 63 = true ∧ (s86_doze 0).dev.pwrState < 2 ∧
    ((s86_doze 0).dev.link 127).dozeReq = false ∧ (s86_gov 255 20).dev.govOn = true := by
  decide +kernel

def boot (f : BootSt → BootSt) (s : State) : State := on s fun d => d.updBoot f
def hbm1 (s : State) : State := { filled s with mem := (filled s).mem.hbmWrite 77 [1, 2] }
def resetDesc (cls arg : Nat) : Desc := descOf [(0, 1, 0xD), (28, 1, cls), (30, 2, arg)] []
def s86_step (n : Nat) : State := on (dev id) fun d => (d.bootNext n).fdSet F.PWR_STAT_STATE 0 0 1
def s86_low : State := boot (fun b => { b with coldLow := true }) (hbm1 ready)
def s86_rail : State := boot (fun b => { b with railBad := true }) ready
def s86_ack : State := hbm1 (on managed fun d => d.updSys fun y => { y with fmReset := true })
def s86_dead : State := (List.range 2).foldl (fun s k => domSet (68 + k) (4 * k) s) (s86_step 4)
/-- Port 3 trains when LINK_WAIT passes. -/
def s86_waits : State := on (s86_step 0xA) fun d => d.updPort 3 fun x => { x with state := .measuring }
def l86b : List State := [hbm1 ready, s86_low, s86_rail, s86_ack, hbm1 (inHand ready (resetDesc 1 0)), s86_step 1, s86_step 3, s86_dead, s86_step 7,
  s86_step 9, s86_waits, s86_step 0xA, s86_step 0xB, dev id]

theorem test_hyp_ResetsStartBringUp :
    (hbm1 ready).dev.sys.boot.coldLow = false ∧ (hbm1 ready).dev.sys.boot.railBad = false ∧ (hbm1 ready).dev.sys.therm.trip = false ∧
    s86_low.dev.sys.boot.railBad = false ∧ s86_rail.dev.sys.boot.coldLow = false ∧ s86_ack.dev.sys.fmReset = true ∧
    s86_ack.dev.inReset = false ∧ ((inHand ready (resetDesc 1 0)).dev.resetDesc 0 63 1).isSome = true ∧
    [1, 3, 4, 7, 9, 0xA, 0xB].map (fun n => (s86_step n).dev.bootStep) = [1, 3, 4, 7, 9, 0xA, 0xB] ∧
    ([1, 3, 4, 7, 9, 0xA, 0xB].all fun n => (s86_step n).dev.sys.boot.running) = true ∧ (dev id).dev.bootStep = 1 ∧
    s86_waits.dev.sys.boot.linkWait = none ∧ s86_dead.dev.domFailed 69 = true ∧ s86_dead.dev.domFailed 68 = false := by
  decide +kernel

def busy (s : State) : State :=
  { on s fun d =>
      let d := (d.updCtx 5 fun c => { c with state := .open_, tile := 2, part := 0 }).updCtx 6 fun c => { c with state := .open_, tile := 3, part := 4 }
      let d := d.fdSet F.POOL_CTRL_EN 1 0 1
      let d := ((d.fdSet F.TILE_PART_PART 3 0 4).fdSet F.TILE_PART_PART 4 0 0).setRawF .MEM_SVC_EXC 0 1 0 7
      let d := (d.updTile 2 fun t => { t with serial := 9 }).updTile 3 fun t => { t with serial := 9 }
      { d with bars := [(3, d.bar 3)], hbm := { d.hbm with pools := [(1, { PoolSt.reset with state := 2 })] } } with
    mem := ((hbm1 s).mem.tileWrite 2 5 [9]).tileWrite 3 5 [9] }
def s86_reset (cls arg : Nat) : State := busy (inHand ready (resetDesc cls arg))
def op (cls arg : Nat) (l : List Desc) (s : State) : State := on s fun d => d.updSys fun y => { y with resets := [{ cls := cls, arg := arg, descs := l }] }
def s86_port (p : Nat) : State :=
  on (inHand ready (resetDesc 4 p)) fun d =>
    ((d.updPort p fun x => { x with state := .up, wantResume := true }).updLink p fun l => { l with lstate := .active, replayList := heldTwo }).updQueue p
      fun q => { q with q := [(2, [qc 1 Flit.idle])], pdn := .active }
def first : Desc := { resetDesc 2 0 with order := 3 }
def l86r : List State := [s86_reset 2 0, op 2 0 [first] (s86_reset 2 0), s86_reset 3 0, op 3 0 [first] (s86_reset 3 0), s86_port 0, s86_port 255,
  op 2 0 [resetDesc 2 0] ready, op 255 255 [first] ready, ready]

theorem test_hyp_ResetsReachTheirItemsOnly :
    (l86r.all fun s => !s.dev.inReset && s.dev.sys.pwr.cur.isNone && s.dev.qmr.isEmpty &&
      (List.range 16).all fun n => !s.dev.maintBusy n) = true ∧
    (s86_reset 2 0).dev.resetDesc 0 63 2 = some (resetDesc 2 0) ∧ (op 2 0 [first] (s86_reset 2 0)).dev.computeReset = true ∧
    (op 2 0 [first] (s86_reset 2 0)).dev.resetDesc 0 63 2 = some (resetDesc 2 0) ∧ (resetDesc 3 0).part = 0 ∧
    (s86_reset 3 0).dev.resetDesc 0 63 3 = some (resetDesc 3 0) ∧ (op 3 0 [first] (s86_reset 3 0)).dev.partReset 0 = true ∧
    (s86_reset 3 0).dev.bit F.FLT_XFER_CFG_ARM = false ∧ ((s86_reset 3 0).dev.ctx 6).part = 4 ∧
    (s86_port 255).dev.resetDesc 0 63 4 = some (resetDesc 4 255) ∧ (resetDesc 4 255).arg 30 2 = 255 ∧ mayTrain ((s86_port 255).dev.port 255).state = true ∧
    (op 2 0 [resetDesc 2 0] ready).dev.resetDone 2 0 = true ∧ (op 255 255 [first] ready).dev.resetDone 255 255 = true := by
  decide +kernel

def s86_bmc (n : Nat) : State := on ready fun d => ((d.bootNext n).updTherm fun x => { x with bmcAlert := true, warn := 2, cause := 1 })
def s86_tap (held low : Bool) : State := boot (fun b => { b with coldLow := low }) (on ready fun d => d.updJtag fun j => { j with held := held })
def l86t : List (List Int) := [[], [-128, 14, 20], [20, 20, 20, 20, 20, 20, 20, 20], [99], [100], [114], [115], [115, 200], [-128, -128, -128, -128, -128, -128, -128, 15]]
def l86j : List State := [s86_bmc 1, s86_bmc 2, s86_tap false false, s86_tap false true, s86_tap true false,
  on ready fun d => d.updTherm fun x => { x with alert := true }]

theorem test_hyp_TemperaturesManagementAndTest :
    (∀ k : Fin 8, ∀ ts ∈ [[-128, 14, 20], [99]], warns k (at_ (-128) ts k) = false ∧ trips k (at_ (-128) ts k) = false) ∧
    ready.dev.sys.therm.warn = 0 ∧ ready.dev.sys.therm.trip = false ∧ ready.dev.inReset = false ∧ (s86_bmc 2).dev.bmcUp = true ∧
    (s86_bmc 1).dev.bmcUp = false ∧ (s86_tap true false).dev.sys.jtag.held = true ∧ (s86_tap false true).dev.sys.boot.coldLow = true := by
  decide +kernel

/-! The sequencer -/

def image (crc : List (BitVec 8)) : List (BitVec 8) :=
  [0x53, 0x57, 0x50, 0x4F] ++ leBytes 2 1 ++ leBytes 2 1 ++ leBytes 4 68 ++ leBytes 4 1 ++ leBytes 16 0 ++
    (leBytes 4 1 ++ leBytes 4 0xFFF ++ leBytes 4 1 ++ leBytes 4 16) ++ leBytes 16 (0x6 * 2 ^ 124) ++ crc
def good : List (BitVec 8) := image (leBytes 4 (crc32 (image [])).toNat)
def userCtx (f : CtxSt → CtxSt) (s : State) : State :=
  ctxAt s 5 fun c => f { c with state := .open_, tile := 2, slot := some 0, desc := { c.desc with prog := 0x8007 } }
def tile2 (f : TileSt → TileSt) (s : State) : State := on s fun d => d.updTile 2 f
def qcmd (n : Nat) : EngCmd := cmd (cmdRaw n 0 0 0 [])
def s87_start : State := userCtx id ready
def s87_saved : State := userCtx (fun c => { c with saved := some (runAt 77).image }) ready
def s87_ended : State := running { runAt 8 with ending := true, endPc := 7 } 0
def s87_dog : State :=
  tile2 (fun t => { t with q := [(0, [qcmd 1])] }) (on (running { runAt 8 with stall := some 3 } waitSumW) fun d => d.fdSet F.SEQ_CFG_WDOG 2 0 5)
def s87_full : State := tile2 (fun t => { t with q := [(3, List.replicate 32 (qcmd 1))] }) ready
def progDesc (img : List (BitVec 8)) : Desc := descOf [(0, 1, 5), (30, 1, 2)] img
def s87_load (img : List (BitVec 8)) : State := inHand ready (progDesc img)
def s87_write : State :=
  tile2 (fun t => { t with loads := [{ fn := 0, ring := 63, order := 7, image := good }], pset := [(3, 9)] }) (s87_load good)
def l87 : List State := [s87_start, s87_saved, s87_ended, s87_dog, s87_full, s87_load (image [0, 0, 0, 0]), s87_load good, s87_write, ready]

theorem test_hyp_RunsStartCloseAndLoad :
    (l87.all fun s => s.dev.tileUp 2 && !s.dev.inReset && !(s.dev.scopeHeld 3 2)) = true ∧
    (progDesc good |> s87_start.dev.cutReason) = none ∧ s87_start.dev.selected 2 = some 5 ∧ (s87_start.dev.tile 2).arr = [] ∧ (s87_start.dev.ctx 5).resident = true ∧ s87_start.dev.fd F.SEQ_CFG_HAZ 2 < 3 ∧
    (s87_start.dev.ctx 5).saved = none ∧ s87_saved.dev.selected 2 = some 5 ∧ (s87_saved.dev.ctx 5).saved.isSome = true ∧
    (s87_ended.dev.tile 2).pushedBusy 5 [0, 1, 2, 3] = false ∧ s87_ended.dev.group 5 = none ∧
    s87_dog.dev.waitCond 2 { runAt 8 with stall := some 3 } waitSumW = .inr false ∧ s87_dog.dev.fd F.SEQ_CFG_WDOG 2 ≠ 0 ∧
    ((s87_full.dev.tile 2).queue 3).length = 32 ∧ ((ready.dev.tile 2).queue 3).length < 32 ∧ (ready.dev.tile 2).built = [] ∧
    imageSections (image [0, 0, 0, 0]) = none ∧ (imageSections good).isSome = true ∧ (progDesc good).arg 30 1 % 32 = 2 ∧
    s87_write.dev.loadDesc { fn := 0, ring := 63, order := 7, image := good } = some (progDesc good) ∧
    (s87_load good).dev.descTaken (progDesc good) = false := by
  decide +kernel

def stalled (s : State) : State := tile2 (fun t => { t with run := t.run.map fun r => { r with stall := some 1 } }) s
/-- Context 6 of tile 2 is OPEN too, and takes a run. -/
def other (s : State) : State :=
  ctxAt s 6 fun c => { c with state := .open_, tile := 2, slot := some 1, desc := { c.desc with prog := 0x8007 } }
def s87_wait : State := tile2 (fun t => { t with q := [(0, [qcmd 1])] }) (running (runAt 3) waitSumW)
/-- An image waits to be loaded. -/
def loading (s : State) : State := tile2 (fun t => { t with loads := [{ fn := 0, ring := 63, order := 7, image := good }] }) s
def l87f : List State := [s05_next2, s05_next1, running (runAt 4) 0, running (runAt 0xFFF) 0, s05_jump, s05_brt, s05_brf, running (runAt 3) waitW,
  stalled (running (runAt 3) waitSumW), running (runAt 3) yieldW, other (running (runAt 3) yieldW), running (runAt 3) endW, loading (running (runAt 3) yieldW), s87_wait]

theorem test_hyp_FlowMovesTheRun :
    l87f.map (fun s => ((s.dev.tile 2).run.any fun r => issues s (wFlow ((s.dev.tile 2).word r.pc)) && r.rel.isEmpty &&
      ([1, 2, 3, 4, 5, 6].all fun k => !(slotUsed ((s.dev.tile 2).word r.pc) k)))) = List.replicate 13 true ++ [false] ∧
    (running (runAt 3) yieldW).dev.userOpen 2 (some 5) = [] ∧ (other (running (runAt 3) yieldW)).dev.userOpen 2 (some 5) = [6] ∧
    s87_wait.dev.waitCond 2 (runAt 3) waitSumW = .inr false := by
  decide +kernel

def l87h : List State := [running (runAt 3) haltW] ++ ([
  [(124, 8)], [(124, 15)], [(100, 7)], [(124, 3), (100, 7)], [(67, 1), (65, 3)], [(67, 3), (65, 3), (124, 1)], [(58, 5)], [(58, 7), (124, 2)]].map
    fun l => running (runAt 3) (word l))

theorem test_hyp_ReservedFormsHalt :
    (l87h.all fun s => (s.dev.tile 2).run.any fun r => r.acted.isNone && s.dev.tileUp 2) = true ∧ wordBad haltW = none ∧
    8 ≤ wFlow (word [(124, 8)]) ∧ wKop (word [(124, 3), (100, 7)]) = 7 ∧ wAgop (word [(67, 3), (65, 3), (124, 1)]) = 3 ∧
    5 ≤ wPush (word [(58, 5)]) ∧ (running (runAt 3) 0).dev.tileUp 2 = true ∧
    ((running (runAt 3) 0).dev.ctx 5).spilling = false ∧ ((running (runAt 3) 0).dev.ctx 5).restoring = false := by
  decide +kernel

/-- A run whose counters 1 and 2 hold -1 and 5, whose comparator 0 is 0, and whose generators 0 to 2 are loaded. -/
def rich : RunSt :=
  { runAt 3 with
    k := [0, -1, 5, 0x80000000, 7, 8, 9, 10].map Lag.pure_
    g := List.replicate 3 (Lag.pure_ { loaded := true, set := 3, i0 := 0, i1 := 1, i2 := 2, wrap := true }) }
/-- Some valid parameter set. -/
def pset1 : BitVec 256 := BitVec.ofNat 256 (2 ^ 256 - 1)
def slotW (l : List (Nat × Nat)) : State := tile2 (fun t => { t with pset := [(1, pset1)] }) (running rich (word l))
def kop (n : Nat) : List (Nat × Nat) := [(100, n), (103, 1), (97, 2), (81, 0xFFFE)]
def cop (n cbi : Nat) : List (Nat × Nat) := [(76, n), (79, 3), (73, 1), (72, cbi), (69, if cbi = 0 then 2 else 0), (81, if cbi = 0 then 0 else 0xFFFF)]
def l87s : List State :=
  ([([1, 2, 6].map fun n => [(100, n), (103, 1), (81, 0xFFFE)]), ([3, 4, 5].map fun n => [(100, n), (103, 1), (97, 2)])].flatten ++
    ((List.range 6).flatMap fun n => [cop (n + 1) 0, cop (n + 1) 1]) ++ [[(76, 7), (79, 3), (73, 1)]] ++
    [[(67, 3), (65, 0)], [(67, 1), (65, 1)], [(67, 2), (65, 2), (61, 1)]]).map slotW

theorem test_hyp_SlotsWriteTheirResults :
    (l87s.all fun s => issues s 0) = true := by
  decide +kernel

def tpl1 : BitVec 256 := BitVec.ofNat 256 (0xA5 * 2 ^ 248 + 0x123 * 2 ^ 220 + 0x11111111 * 2 ^ 64 + 0x22222222 * 2 ^ 32 + 0x33333333)
def grouped (s : State) : State := ctxAt s 5 fun c => { c with base := 1, desc := { c.desc with nelem := 1000, inFmt := 1 } }
def s87_push (l : List (Nat × Nat)) : State := tile2 (fun t => { t with tmpl := [(63, tpl1)], serial := 12 }) (slotW l)
def pushW (e : Nat) (l : List (Nat × Nat)) : State := s87_push ([(58, e + 1), (52, 63)] ++ l)
def s87_barr (b : BarSt) : State :=
  on (slotW [(40, 1), (32, 255)]) fun d =>
    { ((d.fdSet F.CORE_BAR_VALID 255 0 1).fdSet F.CORE_BAR_LOCAL 255 0 1) with bars := [(255, b)] }
/-- The arrival of context 5 reaches barrier 255 at the next cc, its word being NEXT. -/
def s87_arrive (b : BarSt) : State :=
  tile2 (fun t => { t with arr := [(255, 5, 1)] }) (on (running { runAt 3 with bar := some (255, 65535) } 0) fun d =>
    { (((d.fdSet F.CORE_BAR_VALID 255 0 1).fdSet F.CORE_BAR_LOCAL 255 0 1).fdSet F.CORE_BAR_CHILD_PORTS 255 0 8) with bars := [(255, b)] })
def l87p : List State := [s87_arrive (barSt .idle), s87_arrive (barSt .releasing), pushW 0 [], pushW 1 [(49, 1), (46, 4), (43, 2), (97, 2)], pushW 2 [], pushW 3 [],
  grouped (pushW 0 [(49, 5), (46, 6), (43, 3)]), s87_barr BarSt.reset, s87_barr { BarSt.reset with state := .releasing, epoch := 65535 },
  grouped (slotW [(31, 1)])]

theorem test_hyp_PushesBarrierAndRelease :
    (l87p.all fun s => issues s 0) = true ∧
    ((s87_barr { BarSt.reset with state := .releasing, epoch := 65535 }).dev.bar 255).early = [] ∧
    ((grouped (slotW [(31, 1)])).dev.group 5).isSome = true ∧
    3 ∈ (s87_arrive (barSt .idle)).dev.barChildren 255 ∧ ((s87_arrive (barSt .idle)).dev.bar 255).state = .idle ∧
    256 ∉ ((s87_arrive (barSt .releasing)).dev.bar 255).early := by
  decide +kernel

/-- The 256 bytes of R296 give back every field of a run that they hold. -/
theorem test_saved_runs_round_trip :
    (let r : RunSt := { rich.settle with pc := 0xABC, c := [true, false, true, true].map Lag.pure_, bar := some (200, 65535), lastTag := 0xFFFF }
     r.image.length = 256 ∧ RunSt.ofImage 5 r.image = { r with haz := (RunSt.ofImage 5 r.image).haz, cc := (RunSt.ofImage 5 r.image).cc }) := by
  decide +kernel

/-! Trust, broadcasts and the journal -/

def bcFrame (m id c n : Nat) (data : List (BitVec 8)) : Flit :=
  mflit 50 [(0, leBytes 1 m), (4, leBytes 4 id), (8, leBytes 4 c), (12, leBytes 4 n), (16, data)]
def s88_rx (p : Nat) (f : Flit) (st id : Nat) (g : BcastSt → BcastSt) : State :=
  on ready fun d =>
    let d := (d.fdSet F.BOOT_BCAST_STAT_STATE 0 0 st).fdSet F.BOOT_BCAST_STAT_IMAGE_ID 0 0 id
    (d.updCore fun c => { c with fmRx := [(p, f)] }).updSys fun y => { y with bcast := g y.bcast }
def haveF : Flit := bcFrame 0x22 0x12345678 0 3 []
/-- IMG_HAVE of the image [1]. -/
def heldF : Flit := { mflit 50 [] with payload := BitVec.ofNat 2048 (0x22 + 4294967296 * imageId [1]) }
def s88_held : State := on (s88_rx 7 heldF 0 0 id) fun d => d.updFlash fun f => { f with slots := [none, some { iseq := 1, bytes := [1] }] }
def s88_req : State := s88_rx 255 (bcFrame 0x21 9 1 3 []) 2 9 id
def s88_chunk (id : Nat) : State :=
  s88_rx 7 (bcFrame 0x20 9 1 3 (List.replicate 224 0xAB)) 1 id fun b => { b with nchunk := 3, chunks := [(0, [1])], port := 7 }
def s88_send (c : Nat) : State :=
  on ready fun d => d.updSys fun y => { y with bcast := { y.bcast with image := List.replicate 449 7, sending := [(255, some c)] } }
def s88_ask : State := s88_rx 7 haveF 1 9 fun b => { b with nchunk := 3, chunks := [(0, [1]), (2, [2])], port := 255 }
def l88 : List State := [s88_rx 0 haveF 0 0 id, s88_held, s88_req, s88_chunk 9, s88_chunk 8, s88_send 0, s88_send 2, s88_ask]

theorem test_hyp_BroadcastsMoveChunks :
    (l88.all fun s => !s.dev.inReset && !s.dev.d2dFailed 2) = true ∧ tblGet 0 (s88_send 2).dev.sys.bcast.next 255 ≤ (s88_send 2).dev.cycle ∧
    plLe haveF.payload 12 4 = 3 ∧ (s88_rx 0 haveF 0 0 id).dev.hasImage 0x12345678 = false ∧
    plLe haveF.payload 4 4 = 0x12345678 ∧ plByte haveF.payload 0 = 0x22 ∧ (s88_rx 0 haveF 0 0 id).dev.bcastTaking = false ∧
    (s88_rx 0 haveF 0 0 id).dev.maintRefusal 4 0 = none ∧ (s88_rx 0 haveF 0 0 id).dev.takesMgmt 0 ∧
    plByte (bcFrame 0x21 9 1 3 []).payload 0 = 0x21 ∧ s88_req.dev.fd F.BOOT_BCAST_STAT_IMAGE_ID = 9 ∧
    tblGet [] (s88_chunk 9).dev.sys.bcast.chunks 1 = [] ∧ (s88_chunk 8).dev.fd F.BOOT_BCAST_STAT_IMAGE_ID ≠ 9 ∧
    tblGet none (s88_send 2).dev.sys.bcast.sending 255 = some 2 ∧ 2 < chunkCount (s88_send 2).dev.sys.bcast.image ∧
    (s88_send 2).dev.takesMgmt 255 ∧ tblGet [] s88_ask.dev.sys.bcast.chunks 1 = [] ∧ s88_ask.dev.takesMgmt 255 := by
  unfold Dev.takesMgmt
  decide +kernel

theorem ofLe_lt (l : List (BitVec 8)) : ofLe l < 256 ^ l.length := by
  induction l with
  | nil => simp [ofLe]
  | cons b l ih => simp only [ofLe, List.length_cons, Nat.pow_succ]; have := b.isLt; omega

theorem imageId_lt (bs : List (BitVec 8)) : imageId bs < 4294967296 :=
  Nat.lt_of_lt_of_le (ofLe_lt _) (show _ ≤ 256 ^ 4 from Nat.pow_le_pow_right (by decide) (List.length_take_le 4 _))

theorem test_hyp_BroadcastsMoveChunks_held :
    plByte heldF.payload 0 = 0x22 ∧ plLe heldF.payload 4 4 = imageId [1] ∧ s88_held.dev.hasImage (imageId [1]) = true := by
  have h := imageId_lt [1]
  refine ⟨?_, ?_, ?_⟩
  · simp only [plByte, heldF, BitVec.toNat_ofNat]; omega
  · simp only [plLe, heldF, BitVec.toNat_ofNat, Nat.shiftRight_eq_div_pow]; omega
  · simp [Dev.hasImage, s88_held, on, Dev.updFlash, Dev.updSys]

def stageDesc (ofs flags kind : Nat) (data : List (BitVec 8)) : Desc :=
  descOf [(0, 1, 0x11), (24, 4, data.length), (28, 4, ofs), (32, 1, flags), (33, 1, kind)] data
def s88_stage (st : Nat) (x : Desc) : State :=
  on (inHand ready x) fun d =>
    (d.fdSet F.SEC_STAGE_STAT_STATE 0 0 st).updSys fun y => { y with stage := { y.stage with bytes := [1, 2] } }
/-- An image of 256 bytes whose header passes, of version 5. -/
def img : List (BitVec 8) :=
  leBytes 4 0x49374454 ++ leBytes 4 1 ++ leBytes 4 256 ++ leBytes 4 0 ++ leBytes 1 5 ++ leBytes 1 1 ++ leBytes 238 0
def s88_verify (bs : List (BitVec 8)) : State :=
  on ready fun d => (d.fdSet F.SEC_STAGE_STAT_STATE 0 0 2).updSys fun y => { y with stage := { bytes := bs, desc := some (stageDesc 0 2 0 []) } }
/-- A licence of this package whose fields pass. -/
def lic : List (BitVec 8) :=
  leBytes 4 0x4C374454 ++ leBytes 1 0 ++ leBytes 1 7 ++ leBytes 6 0 ++ leBytes 32 identityPub.toNat ++ leBytes 212 0
/-- The same, issued later. -/
def lic1 : List (BitVec 8) := lic.take 8 ++ leBytes 4 1 ++ lic.drop 12
def s88_lic : State := boot (fun b => { b with licence := lic }) (inHand ready (stageDesc 0 3 1 lic))
def badLic : List (BitVec 8) := leBytes 256 1
def l88i : List State := [s88_stage 0 (stageDesc 0 1 0 [5, 6]), s88_stage 1 (stageDesc 3 0 0 [5]), s88_stage 2 (stageDesc 0 1 0 [5]),
  inHand ready (stageDesc 0 3 1 lic), inHand ready (stageDesc 0 3 1 badLic), s88_lic, s88_verify img, s88_verify [1, 2],
  boot (fun b => { b with restart := true, running := false }) (hbm1 ready)]

theorem test_hyp_ImagesAndLicencesAreStaged :
    (l88i.all fun s => !s.dev.inReset && s.dev.sys.flash.licence.isNone) = true ∧
    (stageDesc 0 1 0 [5, 6]).arg 33 1 = 0 ∧ bitAt ((stageDesc 0 1 0 [5, 6]).arg 32 1) 0 = true ∧
    (s88_stage 0 (stageDesc 0 1 0 [5, 6])).dev.bcastTaking = false ∧
    (stageDesc 3 0 0 [5]).arg 28 4 ≠ (s88_stage 1 (stageDesc 3 0 0 [5])).dev.sys.stage.bytes.length ∧
    (s88_stage 2 (stageDesc 0 1 0 [5])).dev.sys.stage.desc = none ∧
    (stageDesc 0 3 1 badLic).arg 32 1 = 3 ∧ licenceOk badLic = false ∧ imageFault 0 [1, 2] = some 0x70 ∧
    ready.dev.sys.flash.svnFloor = 0 ∧ headerOk img = true ∧ imageFault 6 img = some 0x71 ∧ ready.dev.sys.boot.restart = false ∧ ready.dev.sys.boot.licence = [] ∧
    (stageDesc 0 3 1 lic).arg 32 1 = 3 ∧ leAt lic 8 4 = 0 ∧ leAt lic1 8 4 = 1 := by
  decide +kernel

theorem test_licence_in_force : s88_lic.dev.sys.boot.licence = lic := rfl

/-- Both outcomes that hang on a signature are those of the signature alone. -/
theorem test_hyp_ImagesAndLicencesAreStaged_signed :
    imageFault 0 img = (if Config.imageSigOk img then none else some 0x70) ∧ licenceOk lic = Config.licenceSigOk lic := by
  constructor
  · have h : headerOk img = true := by decide +kernel
    have g : imageSvn img = 5 := by decide +kernel
    cases hs : Config.imageSigOk img <;> simp [imageFault, h, g, hs]
  · have h : ((lic.drop 12).take 32 == leBytes 32 identityPub.toNat) = true := by
      rw [lic, List.append_assoc, List.drop_left' (by rfl), List.take_left' (by decide +kernel)]; exact beq_self_eq_true _
    have a : lic.length = 256 := by decide +kernel
    have b : leAt lic 0 4 = 0x4C374454 := by decide +kernel
    have c : byteAt lic 4 = 0 := by decide +kernel
    have e : byteAt lic 5 = 7 := by decide +kernel
    have z : zeroSpan lic 6 2 = true := by decide +kernel
    have y : zeroSpan lic 44 148 = true := by decide +kernel
    simp [licenceOk, h, a, b, c, e, z, y]

def getMeas : List (BitVec 8) := [0x12, 0xE0, 0, 0]
def spdmReqs : List (List (BitVec 8)) := [[0x10, 0x84, 0, 0], [0x12, 0xE1, 0, 0], [0x12, 0xE3, 0, 0], [0x13, 0x81, 0, 0], [0x12, 0x82, 0, 0],
  [0x12, 0x83, 0x30, 0], getMeas, [0x11, 0xE0, 0, 0], [0x12, 0x83, 1, 0], []]
def s88_spdm : State :=
  on (hosted id) fun d => (d.fdSet F.SEC_STAT_PUF_OK 0 0 1).updSys fun y => { y with spdm := { y.spdm with script := [(0, [9])] } }
def s88_frag (len : Nat) : State :=
  on ready fun d => (d.updCore fun c => { c with fmRx := [(3, bcFrame 0x30 0 0 len (List.replicate 224 0x55))] }).updSys fun y => { y with
    spdm := { y.spdm with parts := [(50, (300, [1]))], ready := [(50, [1]), (51, [2])] } }
def l88s : List State := [s88_spdm, s88_frag 224, s88_frag 225]

theorem test_hyp_AttestationAnswersRequests :
    (l88s.all fun s => !s.dev.inReset && !s.dev.d2dFailed 2) = true ∧ s88_spdm.dev.bit F.SEC_STAT_PUF_OK = true ∧ s88_spdm.dev.fnReach 0 = true ∧
    spdmReqs.map spdmCode = [0x84, 0xE1, 0xE3, 0x81, 0x82, 0x83, 0xE0, 0, 0, 0] ∧
    plByte (bcFrame 0x30 0 0 225 []).payload 0 = 0x30 ∧ plLe (bcFrame 0x30 0 0 225 []).payload 12 4 = 225 := by
  decide +kernel

/-- A journal entry of a kind, an offset and a value; jOfs is the offset of CORE_SELF. -/
def entry (kind ofs v : Nat) : List (BitVec 8) := leBytes 1 kind ++ leBytes 3 0 ++ leBytes 4 ofs ++ leBytes 8 v
def jOfs : Nat := (regInfo .CORE_SELF).base
def putDesc (l : List (List (BitVec 8))) : Desc :=
  descOf [(0, 1, 0x10), (4, 4, 0xFFFFFFFF), (24, 4, 16 * l.length), (28, 1, l.length)] l.flatten
def rec1 (kind v : Nat) : JRec := { kind := kind, func := 0, key := jOfs, value := v, dseq := 0xFFFFFFFF, ring := 63, rseq := 4 }
def s88_flash (f : FlashSt → FlashSt) (s : State) : State := on s fun d => d.updFlash f
def s88_put (l : List (List (BitVec 8))) : State := inHand ready (putDesc l)
def s88_commit (kind : Nat) (x : Option Desc) : State :=
  s88_flash (fun f => { f with open_ := [{ recs := [rec1 kind 5], desc := x }], log := [rec1 1 3, rec1 5 1] }) (s88_put [])
def s88_comp : State := s88_flash (fun f => { f with log := [rec1 1 3, rec1 5 1], gen := 0xFFFFFFFF }) (slots ready [(15, 1, 5, 0)])
/-- A bank that holds the records given. -/
def s88_full (l : List JRec) : State := s88_flash (fun f => { f with log := l }) ready
def l88j : List State := [s88_put [entry 1 jOfs 7, entry 2 jOfs 0], s88_put [entry 3 jOfs 7], s88_put [entry 1 0xFFFFFF 7], s88_put [],
  s88_commit 2 (some (putDesc [])), s88_commit 1 none, s88_comp]

theorem test_hyp_TheJournalAppendsAndCompacts :
    (l88j.all fun s => !s.dev.inReset) = true ∧ (s88_put []).dev.maintSlot 5 = none ∧
    (s88_put []).dev.sys.flash.open_ = [] ∧ entryOk (entry 1 jOfs 7) = true ∧ entryOk (entry 2 jOfs 0) = true ∧
    entryOk (entry 3 jOfs 7) = false ∧ entryOk (entry 1 0xFFFFFF 7) = false ∧
    recs16 (putDesc [entry 3 jOfs 7]).data ((putDesc [entry 3 jOfs 7]).arg 28 1) = [entry 3 jOfs 7] ∧
    (s88_commit 2 none).dev.sys.flash.open_ ≠ [] ∧ ready.dev.maintRefusal 5 0 = none ∧ ready.dev.sys.flash.used < 0x1800000 ∧
    s88_comp.dev.maintSlot 5 = some 15 ∧ (s88_comp.dev.maint 15).cancels = [] := by
  decide +kernel

theorem used_full (l : List JRec) (h : 786431 ≤ l.length) : 0x1800000 ≤ (s88_full l).dev.sys.flash.used := by
  simp only [FlashSt.used, s88_full, s88_flash, on, Dev.updFlash, Dev.updSys]
  omega

theorem test_hyp_TheJournalAppendsAndCompacts_full : ∃ l, 0x1800000 ≤ (s88_full l).dev.sys.flash.used :=
  ⟨List.replicate 786431 (rec1 1 3), used_full _ (Nat.le_of_eq List.length_replicate.symm)⟩

/-! The machine as a whole -/

theorem test_hyp_StepRunsTheFrontCommand : ready.pending = [] := by decide +kernel

theorem test_hyp_MemoryStaysCanonical :
    (hbm1 ready).Inv ∧ ∃ t, Machine.step { hbm1 ready with pending := [.coldReset true] } = .next t := by
  refine ⟨by unfold State.Inv; decide +kernel, _, rfl⟩

/-! Operands out of range: one ill-formed command for each check, and its neighbour in range -/

def errOf (f : ReadErr → ReadErr) : ReadErr := f ReadErr.none_
def check (lane : Nat) : SelfCheck := { shadow := false, item := 0, lane := lane, pattern := 0, temp := 0, rail := 0 }

theorem test_wf_access :
    (Instr.registerWrite 0 0 0 0).wf = false ∧ (Instr.registerWrite 0 0 65 0).wf = false ∧ (Instr.registerRcRead 0 (2 ^ 64) 4).wf = false ∧
    (Instr.registerLowHalfRead 0 (2 ^ 64)).wf = false ∧ (Instr.registerWrite 0 (2 ^ 64 - 1) 64 0).wf = true := by
  decide +kernel

theorem test_wf_link :
    (Instr.trainingStepComplete 3 [0, 0, 0, 0]).wf = false ∧ (Instr.trainingStepComplete 3 [0, 0, 0, 0, 0]).wf = true ∧
    (Instr.rxSlot 3 (List.replicate 4 [])).wf = false ∧ (Instr.rxSlot 3 (List.replicate 5 [])).wf = true ∧
    (Instr.restripeMarkerRx 3 0 (List.replicate 324 .p3)).wf = false ∧ (Instr.restripeMarkerRx 3 0 (List.replicate 325 .p3)).wf = true ∧
    (Instr.steerAnnRx 3 false 0 0 0).wf = false ∧ (Instr.steerAnnRx 3 false 0 0 65).wf = false ∧ (Instr.steerAnnRx 3 false 0 0 64).wf = true := by
  decide +kernel

theorem test_wf_read_errors :
    ([errOf fun e => { e with hbmBad := [0x60000000] }, errOf fun e => { e with hbmCorr := [0, 0x60000000] }, errOf fun e => { e with tileBad := [2 ^ 22] },
      errOf fun e => { e with sc := some (check 264) }].all fun e =>
        !(Instr.memRead 0 e).wf && !(Instr.restoreComplete 0 e).wf && !(Instr.sumFold 0 e).wf && !(Instr.moveCopy 0 e).wf &&
          !(Instr.sortSort 0 e).wf && !(Instr.siftScore 0 e).wf && !(Instr.hbmWindowAccess 0 0 1 none e).wf) = true ∧
    (Instr.sumFold 0 (errOf fun e => { e with sc := some (check 263), hbmBad := [0x5FFFFFFF], tileBad := [2 ^ 22 - 1] })).wf = true := by
  decide +kernel

theorem test_wf_host :
    (Instr.doorbellPass 0 0 (List.replicate 8 0) []).wf = false ∧ (Instr.pollTimer 0 0 (List.replicate 10 0) []).wf = false ∧
    (Instr.pollTimer 0 0 (List.replicate 9 0) []).wf = true ∧ (Instr.hbmWindowAccess 0 (2 ^ 32) 1 none ReadErr.none_).wf = false ∧
    (Instr.hbmWindowAccess 0 0 0 none ReadErr.none_).wf = false ∧ (Instr.hbmWindowAccess 0 0 257 none ReadErr.none_).wf = false ∧
    (Instr.hbmWindowAccess 0 0 2 (some [1]) ReadErr.none_).wf = false ∧ (Instr.hbmWindowAccess 0 0 1 (some [1]) ReadErr.none_).wf = true ∧
    (Instr.spdmChallenge (some (0, [0x12, 0x83, 0]))).wf = false ∧ (Instr.spdmChallenge none).wf = true := by
  decide +kernel

theorem test_wf_system :
    (Instr.governorInterval [(87, 1)]).wf = false ∧ (Instr.bringupStepComplete ⟨List.replicate 15 ⟨true, [], 0, true⟩, []⟩).wf = false ∧ (Instr.bringupStepComplete ⟨[], [0]⟩).wf = true ∧
    (Instr.bringupStepFail 256 0 none).wf = false ∧ (Instr.bringupStepFail 1 32 none).wf = false ∧
    (Instr.bringupStepFail 1 0 (some 264)).wf = false ∧ (Instr.bringupStepFail 255 31 (some 263)).wf = true ∧
    (Instr.thermalSample [20]).wf = false ∧ (Instr.thermalSample (List.replicate 8 20)).wf = true ∧
    (Instr.jtagSamplePreload [true] []).wf = false ∧ (Instr.hbmRefresh 0 65536 true 0).wf = false ∧ (Instr.hbmRefresh 1 65535 true 0).wf = true := by
  decide +kernel

/-! The spec's worked examples -/

/-- The three-child fold of 09, Reduction: 1.0, 2^24, -2^24. -/
theorem test_pair_add_worked_example :
    pairAdd (0x3F800000, 0) (0x4B800000, 0) = ((0x4B800000, 0x3F800000), 0) ∧
    pairAdd (0x4B800000, 0x3F800000) (0xCB800000, 0) = ((0x3F800000, 0), 0) := by
  decide +kernel

/-- Word 0x101 of the worked example of 07 reads as its slots say. -/
theorem test_word_of_the_worked_example :
    let w : BitVec 128 := 0x4000042000020000045D440080000000
    (wFlow w, wWsel w, wKop w, wKdst w, wImm w) = (4, 1, 2, 0, 1) ∧ (wPush w, wTpl w, wMux w, wTagsel w, wKsrc w, wOfs w) = (1, 5, [6, 5, 0], 2, 0, true) ∧
    wordBad w = none := by
  decide +kernel

/-- The operands of the worked SCORE of 09: M 1, KB 2, T 1, MXFP4, OUTP 0. -/
def workedScore : State :=
  eng 3 (cmd (cmdRaw 1 0x200000 0x200100 0x200200 [(211, 8), (206, 8), (190, 1), (174, 2), (166, 1)])) fun m =>
    put 0x200100 ([0xBF, 0xFF] ++ List.replicate 13 0 ++ [0x71] ++ List.replicate 15 0 ++ List.replicate 16 0x22)
      (put 0x200000 ([0xBF, 0x7F] ++ List.replicate 13 0 ++ [0x72]) m)

theorem test_score_worked_example :
    let t := after (.siftScore 2 ReadErr.none_) workedScore
    t.mem.tileRead 2 0x200200 4 = [0, 0, 0xC0, 0x7F] ∧ t.dev.rawF .TILE_CTX_EXC 0 5 0 = 0x50 ∧
    t.dev.rawF .TILE_CTX_EXCCAP 0 5 1 = 0x0009010000008500 ∧ t.dev.rawF .TILE_CTX_EXCPOS 0 5 1 = 1 := by
  decide +kernel

end Sys2Proof.Tests
end

section
/-! Die-to-die links (01: R17, R18): the replay, the failure, and what a context fault leaves unchanged. -/

namespace Sys2Proof.Machine

/-! ### Commands of the core die -/

/-- A command the core die carries out, while it acts. -/
theorem coreDone_of_coreUp (f : Dev → Dev) (s : State) (h : s.dev.coreUp = true) :
    coreDone f s = .next { s with dev := f s.dev } := by
  simp [coreDone, done, State.onDev, h]

/-! ### Registers and fields after a write -/

theorem sameRegsBut_flagOr {l : List RegName} (d : Dev) (f : Fld) (i j v : Nat) (h : f.reg ∈ l) :
    sameRegsBut l d (d.flagOr f i j v) := sameRegsBut_setRawF d f.reg 0 i j _ h

theorem sameRegsBut_count {l : List RegName} (d : Dev) (r : RegName) (i j : Nat) (h : r ∈ l) :
    sameRegsBut l d (d.count r i j) := sameRegsBut_setRawF d r 0 i j _ h

/-- A field of a register that is not listed reads as before. -/
theorem sameRegsBut.fd_eq {l : List RegName} {a b : Dev} (h : sameRegsBut l a b) (f : Fld) (i j : Nat) (hf : f.reg ∉ l) :
    b.fd f i j = a.fd f i j := by
  simp only [Dev.fd, Dev.fdF, h f.reg 0 i j hf]

theorem Dev.fdSet_fd_same (d : Dev) (f : Fld) (i j v : Nat) (h : f.lo ≤ f.hi + 1) (h64 : f.hi < 64) :
    (d.fdSet f i j v).fd f i j = v % 2 ^ (f.hi + 1 - f.lo) := d.fdSetF_fdF_same f 0 i j v h h64

/-- Another field of the same register. -/
theorem Dev.fdSet_fd_field (d : Dev) (f g : Fld) (i j v : Nat) (h : f.lo ≤ f.hi + 1) (h64 : f.hi < 64)
    (hr : g.reg = f.reg) (hd : g.hi < f.lo ∨ f.hi < g.lo) : (d.fdSet f i j v).fd g i j = d.fd g i j :=
  d.fdSetF_fdF_field f g 0 i j v h h64 hr hd

theorem Dev.count_rawF_same (d : Dev) (r : RegName) (i j : Nat) :
    (d.count r i j).rawF r 0 i j = up1 (d.rawF r 0 i j) := d.countN_rawF_same r i j 1

/-- A one-bit flag reads 1 once it is set, whatever it was. -/
theorem Dev.flagOr_bit_same (d : Dev) (r : RegName) (b i j : Nat) (hb : b < 64) :
    (d.flagOr ⟨r, b, b⟩ i j 1).bit ⟨r, b, b⟩ i j = true := by
  have hlow : (d.flagOr ⟨r, b, b⟩ i j 1).fd ⟨r, b, b⟩ i j = (d.fd ⟨r, b, b⟩ i j ||| 1) % 2 := by
    simpa using d.flagOr_fd_same ⟨r, b, b⟩ i j 1 (by simp) hb
  simp [Dev.bit, hlow, Nat.or_mod_two_eq_one]

/-! ### The replay of a transfer (R17, R21, R22) -/

/-- The two directions of a link have rows of replays of their own. -/
theorem d2dKey_not_ne (n : Nat) (up : Bool) : d2dKey n (!up) ≠ d2dKey n up := by
  cases up <;> simp [d2dKey, b2n]

@[simp] theorem Dev.d2dReplay_d2d (d : Dev) (n : Nat) (up : Bool) :
    (d.d2dReplay n up).d2d = tblPut 0 (d2dKey n up) (min 16 (tblGet 0 d.d2d (d2dKey n up) + 1)) d.d2d := by
  simp [Dev.d2dReplay]

@[simp] theorem Dev.d2dReplay_out (d : Dev) (n : Nat) (up : Bool) :
    (d.d2dReplay n up).out = d.out ++ [.d2dReplay n] := by simp [Dev.d2dReplay]

theorem Dev.d2dReplay_row (d : Dev) (n : Nat) (up : Bool) :
    tblGet 0 (d.d2dReplay n up).d2d (d2dKey n up) = min 16 (tblGet 0 d.d2d (d2dKey n up) + 1) := by simp

theorem Dev.d2dReplay_otherRow (d : Dev) (n : Nat) (up : Bool) :
    tblGet 0 (d.d2dReplay n up).d2d (d2dKey n (!up)) = tblGet 0 d.d2d (d2dKey n (!up)) := by
  rw [Dev.d2dReplay_d2d, tblGet_tblPut_other _ _ _ _ _ (d2dKey_not_ne n up)]

theorem Dev.d2dReplay_regs (d : Dev) (n : Nat) (up : Bool) :
    sameRegsBut [.CORE_D2D_RETRY_CNT, .CORE_D2D_STAT] d (d.d2dReplay n up) := by
  intro r fn i j hr
  have hcnt : r ≠ .CORE_D2D_RETRY_CNT := by rintro rfl; simp at hr
  have hstat : r ≠ .CORE_D2D_STAT := by rintro rfl; simp at hr
  rw [Dev.d2dReplay, Dev.emit_rawF, Dev.fdSet_rawF_ne _ _ _ _ _ _ _ _ _ hstat, Dev.flagOr_rawF_ne _ _ _ _ _ _ _ _ _ hstat,
    Dev.count_rawF_ne _ _ _ _ _ _ _ _ hcnt]
  rfl

theorem Dev.d2dReplay_retryCnt (d : Dev) (n : Nat) (up : Bool) :
    (d.d2dReplay n up).rawF .CORE_D2D_RETRY_CNT 0 n 0 = up1 (d.rawF .CORE_D2D_RETRY_CNT 0 n 0) := by
  rw [Dev.d2dReplay, Dev.emit_rawF, Dev.fdSet_rawF_ne _ _ _ _ _ _ _ _ _ (by decide),
    Dev.flagOr_rawF_ne _ _ _ _ _ _ _ _ _ (by decide), Dev.count_rawF_same]
  rfl

/-- The longest row of replays is noted beside the flag, in a field of its own. -/
theorem Dev.d2dReplay_retrySeen (d : Dev) (n : Nat) (up : Bool) :
    (d.d2dReplay n up).bit F.CORE_D2D_STAT_RETRY_SEEN n = true := by
  rw [Dev.d2dReplay, Dev.emit_bit, Dev.bit,
    Dev.fdSet_fd_field _ F.CORE_D2D_STAT_MAX_CONSEC F.CORE_D2D_STAT_RETRY_SEEN n 0 _ (by decide) (by decide) rfl (by decide)]
  exact Dev.flagOr_bit_same _ .CORE_D2D_STAT 2 n 0 (by decide)

/-- A replay stays within the link: its row, its counter, its status and one output (R17). -/
theorem Dev.d2dReplay_frame (d : Dev) (n : Nat) (up : Bool) :
    sameFabric d (d.d2dReplay n up) ∧ sameCompute d (d.d2dReplay n up) ∧ sameHost d (d.d2dReplay n up) ∧
      sameTime d (d.d2dReplay n up) ∧ sameSystem d (d.d2dReplay n up) := by
  simp [Dev.d2dReplay, sameFabric, sameCompute, sameHost, sameTime, sameSystem]

/-- So does a bad transfer, which is counted first. -/
theorem Dev.d2dBad_frame (d : Dev) (n : Nat) (up : Bool) (r : RegName) :
    sameFabric d ((d.count r n).d2dReplay n up) ∧ sameCompute d ((d.count r n).d2dReplay n up) ∧
      sameHost d ((d.count r n).d2dReplay n up) ∧ sameTime d ((d.count r n).d2dReplay n up) ∧
      sameSystem d ((d.count r n).d2dReplay n up) := by
  simpa [sameFabric, sameCompute, sameHost, sameTime, sameSystem] using (d.count r n).d2dReplay_frame n up

/-! ### What a context fault leaves (R229) -/

/-- The registers that context faults, freed contexts and their events can change. -/
def faultRegs : List RegName := [.FLT_STATUS, .HOST_EVT_DROP_CNT, .TILE_CTX_EXC, .TILE_CTX_FA]

/-- What context faults and their events leave: optics, fabric time, egress queues, captures, HBM's controllers, quiesced
scopes, the system, and every register but the few of `faultRegs`. -/
structure FaultFrame (a b : Dev) : Prop where
  optics : sameOptics a b
  time : sameTime a b
  queues : b.queues = a.queues
  capt : b.capt = a.capt
  hbm : b.hbm = a.hbm
  qmr : b.qmr = a.qmr
  sys : b.sys = a.sys
  regs : sameRegsBut faultRegs a b

theorem FaultFrame.refl (a : Dev) : FaultFrame a a :=
  ⟨⟨rfl, rfl, rfl, rfl, rfl⟩, ⟨rfl, rfl⟩, rfl, rfl, rfl, rfl, rfl, sameRegsBut_refl _ a⟩

theorem FaultFrame.trans {a b c : Dev} (h : FaultFrame a b) (k : FaultFrame b c) : FaultFrame a c := by
  obtain ⟨⟨hp, hl, hf, he, hd⟩, ⟨ht, hb⟩, hq, hc, hh, hm, hs, hr⟩ := h
  obtain ⟨⟨kp, kl, kf, ke, kd⟩, ⟨kt, kb⟩, kq, kc, kh, km, ks, kr⟩ := k
  exact ⟨⟨hp.trans kp, hl.trans kl, hf.trans kf, he.trans ke, hd.trans kd⟩, ⟨ht.trans kt, hb.trans kb⟩, kq.trans hq,
    kc.trans hc, kh.trans hh, km.trans hm, ks.trans hs, sameRegsBut_trans hr kr⟩

/-- A frame that every single step keeps holds along a row of steps. -/
theorem Dev.forEach_faultFrame (l : List Nat) (f : Dev → Nat → Dev) (hf : ∀ d k, FaultFrame d (f d k)) (d : Dev) :
    FaultFrame d (d.forEach l f) := by
  induction l generalizing d with
  | nil => exact .refl d
  | cons k l ih => exact (hf d k).trans (ih (f d k))

theorem Dev.updCtx_faultFrame (d : Dev) (c : Nat) (f : CtxSt → CtxSt) : FaultFrame d (d.updCtx c f) :=
  ⟨⟨rfl, rfl, rfl, rfl, rfl⟩, ⟨rfl, rfl⟩, rfl, rfl, rfl, rfl, rfl, sameRegsBut_of_regs rfl⟩

theorem Dev.updTile_faultFrame (d : Dev) (t : Nat) (f : TileSt → TileSt) : FaultFrame d (d.updTile t f) :=
  ⟨⟨rfl, rfl, rfl, rfl, rfl⟩, ⟨rfl, rfl⟩, rfl, rfl, rfl, rfl, rfl, sameRegsBut_of_regs rfl⟩

theorem Dev.updCore_faultFrame (d : Dev) (f : CoreSt → CoreSt) : FaultFrame d (d.updCore f) :=
  ⟨⟨rfl, rfl, rfl, rfl, rfl⟩, ⟨rfl, rfl⟩, rfl, rfl, rfl, rfl, rfl, sameRegsBut_of_regs rfl⟩

theorem Dev.emit_faultFrame (d : Dev) (o : Output) : FaultFrame d (d.emit o) :=
  ⟨⟨rfl, rfl, rfl, rfl, rfl⟩, ⟨rfl, rfl⟩, rfl, rfl, rfl, rfl, rfl, sameRegsBut_of_regs rfl⟩

theorem Dev.setRawF_faultFrame (d : Dev) (r : RegName) (fn i j v : Nat) (h : r ∈ faultRegs) :
    FaultFrame d (d.setRawF r fn i j v) :=
  ⟨⟨rfl, rfl, rfl, rfl, rfl⟩, ⟨rfl, rfl⟩, rfl, rfl, rfl, rfl, rfl, sameRegsBut_setRawF d r fn i j v h⟩

theorem Dev.fltSet_faultFrame (d : Dev) (f : Fld) (h : f.reg ∈ faultRegs) : FaultFrame d (d.fltSet f) :=
  ⟨⟨rfl, rfl, rfl, rfl, rfl⟩, ⟨rfl, rfl⟩, rfl, rfl, rfl, rfl, rfl, sameRegsBut_flagOr d f 0 0 1 h⟩

theorem Dev.post_faultFrame (d : Dev) (e : Evt) : FaultFrame d (d.post e) :=
  ⟨by simp [sameOptics], by simp [sameTime], by simp, by simp, by simp, by simp, by simp,
    sameRegsBut_mono (d.post_regs e) (by simp [faultRegs])⟩

/-- Ending a run touches the tile, its context and the tile's output queue. -/
theorem Dev.abandon_faultFrame (d : Dev) (c : Nat) : FaultFrame d (d.abandon c) := by
  unfold Dev.abandon
  exact ((d.updTile_faultFrame _ _).trans (Dev.updCtx_faultFrame _ c _)).trans (Dev.updCore_faultFrame _ _)

theorem Dev.faultState_faultFrame (d : Dev) (c reason : Nat) : FaultFrame d (d.faultState c reason) :=
  ((d.updCtx_faultFrame c _).trans (Dev.abandon_faultFrame _ c)).trans
    (Dev.fltSet_faultFrame _ _ (by simp [faultRegs, F.FLT_STATUS_CTX_FAULT]))

theorem Dev.faultNow_faultFrame (d : Dev) (c reason : Nat) : FaultFrame d (d.faultNow c reason) := by
  unfold Dev.faultNow
  exact (d.faultState_faultFrame c reason).trans (Dev.post_faultFrame _ _)

theorem Dev.ctxFault_faultFrame (d : Dev) (c reason : Nat) : FaultFrame d (d.ctxFault c reason) := by
  simp only [Dev.ctxFault]
  split
  · split
    · split
      · exact .refl d
      · exact d.updCtx_faultFrame c _
    · exact d.faultNow_faultFrame c reason
  · exact .refl d

theorem Dev.faultAll_faultFrame (d : Dev) (l : List Nat) (reason : Nat) : FaultFrame d (d.faultAll l reason) :=
  Dev.forEach_faultFrame l _ (fun d c => d.ctxFault_faultFrame c reason) d

theorem Dev.freeCtx_faultFrame (d : Dev) (c : Nat) : FaultFrame d (d.freeCtx c) := by
  unfold Dev.freeCtx
  exact (((d.abandon_faultFrame c).trans (Dev.setRawF_faultFrame _ .TILE_CTX_EXC 0 c 0 0 (by simp [faultRegs]))).trans
    (Dev.setRawF_faultFrame _ .TILE_CTX_FA 0 c 0 0 (by simp [faultRegs]))).trans (Dev.updCtx_faultFrame _ c _)

theorem Dev.ctxSettle_faultFrame (d : Dev) (c : Nat) : FaultFrame d (d.ctxSettle c) := by
  simp only [Dev.ctxSettle]
  split
  · exact d.freeCtx_faultFrame c
  · split
    · split
      · exact d.faultNow_faultFrame c _
      · exact d.updCtx_faultFrame c _
    · exact .refl d

theorem Dev.transferCut_faultFrame (d : Dev) (c : Nat) : FaultFrame d (d.transferCut c) := by
  simp only [Dev.transferCut]
  split
  · exact (d.updCtx_faultFrame c _).trans (Dev.ctxSettle_faultFrame _ c)
  · exact (d.updCtx_faultFrame c _).trans (Dev.ctxFault_faultFrame _ c 0xE4)

theorem Dev.hbSuspend_faultFrame (d : Dev) (cause : Nat) : FaultFrame d (d.hbSuspend cause) :=
  (d.fltSet_faultFrame F.FLT_STATUS_HB_SUSP (by simp [faultRegs, F.FLT_STATUS_HB_SUSP])).trans (Dev.post_faultFrame _ _)

/-! ### The failure of a link (R18-R20) -/

/-- Link n in the failed state, its reason recorded. -/
def Dev.d2dMarked (d : Dev) (n : Nat) : Dev :=
  (d.fdSet F.CORE_D2D_STAT_STATE n 0 3).fdSet F.CORE_D2D_STAT_FAIL_REASON n 0 (if n = 2 then 0xE5 else 0xE4)

/-- The reason is recorded beside the state, in a field of its own. -/
theorem Dev.d2dMarked_state (d : Dev) (n : Nat) : (d.d2dMarked n).fd F.CORE_D2D_STAT_STATE n = 3 := by
  rw [Dev.d2dMarked,
    Dev.fdSet_fd_field _ F.CORE_D2D_STAT_FAIL_REASON F.CORE_D2D_STAT_STATE n 0 _ (by decide) (by decide) rfl (by decide)]
  exact d.fdSet_fd_same F.CORE_D2D_STAT_STATE n 0 3 (by decide) (by decide)

theorem Dev.d2dMarked_reason (d : Dev) (n : Nat) :
    (d.d2dMarked n).fd F.CORE_D2D_STAT_FAIL_REASON n = if n = 2 then 0xE5 else 0xE4 := by
  refine (Dev.fdSet_fd_same _ F.CORE_D2D_STAT_FAIL_REASON n 0 _ (by decide) (by decide)).trans ?_
  split <;> rfl

theorem Dev.d2dMarked_frame (d : Dev) (n : Nat) : sameOptics d (d.d2dMarked n) ∧ sameTime d (d.d2dMarked n) := by
  simp [Dev.d2dMarked, sameOptics, sameTime]

/-- Sixteen replays in a row in one direction, or loss of lock: the link has reason to fail. -/
theorem d2dFail_due (d : Dev) (n : Nat) (unlocked : Bool)
    (h : unlocked = true ∨ ∃ up, 16 ≤ tblGet 0 d.d2d (d2dKey n up)) :
    (unlocked || decide (16 ≤ max (tblGet 0 d.d2d (d2dKey n false)) (tblGet 0 d.d2d (d2dKey n true)))) = true := by
  rw [Bool.or_eq_true, decide_eq_true_eq]
  refine h.imp_right fun ⟨up, hup⟩ => ?_
  cases up
  · exact Nat.le_trans hup (Nat.le_max_left ..)
  · exact Nat.le_trans hup (Nat.le_max_right ..)

/-- Once the link is marked failed, what follows are context faults, heartbeat and outputs. -/
theorem Dev.d2dFail_faultFrame (d : Dev) (n : Nat) (unlocked : Bool) (hup : d.d2dFailed n = false)
    (hdue : unlocked = true ∨ ∃ up, 16 ≤ tblGet 0 d.d2d (d2dKey n up)) :
    FaultFrame (d.d2dMarked n) (d.d2dFail n unlocked) := by
  rw [Dev.d2dFail, hup, d2dFail_due d n unlocked hdue]
  simp only [Bool.not_true, Bool.or_false, Bool.false_eq_true, if_false]
  by_cases hn : n = 2
  · have hmain : FaultFrame (d.d2dMarked n)
        ((((d.d2dMarked n).faultAll (d.d2dMarked n).liveCtxs 0xE5).emit (.aer 0)).emit (.aer 1)) :=
      ((Dev.faultAll_faultFrame _ _ _).trans (Dev.emit_faultFrame _ _)).trans (Dev.emit_faultFrame _ _)
    simp only [if_pos hn]
    rw [Dev.d2dMarked, if_pos hn] at hmain ⊢
    split
    · exact hmain.trans (Dev.hbSuspend_faultFrame _ 2)
    · exact hmain
  · simp only [if_neg hn]
    rw [Dev.d2dMarked, if_neg hn]
    exact (Dev.forEach_faultFrame _ _ Dev.transferCut_faultFrame _).trans (Dev.faultAll_faultFrame _ _ _)

/-! ### The three commands -/

/-- A transfer with a bad CRC is counted and replayed (R17). -/
theorem d2dReceive_bad (s : State) (n : D2dNo) (up : Bool) (hcore : s.dev.coreUp = true)
    (hlink : s.dev.d2dFailed n.val = false) :
    exec (.d2dTransferReceive ⟨n, up⟩ false) s =
      .next { s with dev := (s.dev.count .CORE_D2D_CRC_CNT n.val).d2dReplay n.val up } :=
  (coreDone_of_coreUp _ s hcore).trans (by simp [Dev.d2dReceive, hlink])

/-- A good transfer ends the row of replays of its direction (R18). -/
theorem d2dReceive_good (s : State) (n : D2dNo) (up : Bool) (hcore : s.dev.coreUp = true)
    (hlink : s.dev.d2dFailed n.val = false) :
    exec (.d2dTransferReceive ⟨n, up⟩ true) s =
      .next { s with dev := { s.dev with d2d := tblPut 0 (d2dKey n.val up) 0 s.dev.d2d } } :=
  (coreDone_of_coreUp _ s hcore).trans (by simp [Dev.d2dReceive, hlink])

/-- A missing acknowledgement makes the sender replay (R17). -/
theorem d2dAckTimeout_next (s : State) (n : D2dNo) (up : Bool) (hcore : s.dev.coreUp = true)
    (hlink : s.dev.d2dFailed n.val = false) :
    exec (.d2dAckTimeout ⟨n, up⟩) s = .next { s with dev := s.dev.d2dReplay n.val up } :=
  (coreDone_of_coreUp _ s hcore).trans (by simp [Dev.d2dTimeout, hlink])

theorem d2dLinkFail_next (s : State) (n : D2dNo) (unlocked : Bool) (hcore : s.dev.coreUp = true) :
    exec (.d2dLinkFail n unlocked) s = .next { s with dev := s.dev.d2dFail n.val unlocked } :=
  coreDone_of_coreUp _ s hcore

/-- Settles O10: a replay is one counter, one flag and one output; a failing link is marked, and all that follows are
context faults, which reach neither its registers nor optics and time. -/
theorem d2dReplaysAndFails : Obligations.D2dReplaysAndFails := by
  unfold Obligations.D2dReplaysAndFails
  intro s n hcore hlink
  refine ⟨fun up => ⟨⟨_, d2dReceive_bad s n up hcore hlink, ?_⟩, d2dReceive_good s n up hcore hlink,
    _, d2dAckTimeout_next s n up hcore hlink, ?_⟩, fun unlocked hdue => ?_⟩
  · have hcount := sameRegsBut_count (l := [.CORE_D2D_CRC_CNT]) s.dev .CORE_D2D_CRC_CNT n.val 0 (by simp)
    have hreplay := (s.dev.count .CORE_D2D_CRC_CNT n.val).d2dReplay_regs n.val up
    refine ⟨?_, ?_, ?_, ?_, Dev.d2dReplay_retrySeen .., ?_, ?_, s.dev.d2dBad_frame n.val up .CORE_D2D_CRC_CNT⟩
    · rw [Dev.d2dReplay_row, Dev.count_d2d]
    · rw [Dev.d2dReplay_otherRow, Dev.count_d2d]
    · rw [hreplay _ _ _ _ (by simp), Dev.count_rawF_same]
    · rw [Dev.d2dReplay_retryCnt, hcount _ _ _ _ (by simp)]
    · rw [Dev.d2dReplay_out, Dev.count_out]
    · exact sameRegsBut_trans (sameRegsBut_mono hcount (by simp)) (sameRegsBut_mono hreplay (by simp))
  · exact ⟨Dev.d2dReplay_row .., Dev.d2dReplay_retryCnt .., Dev.d2dReplay_out .., s.dev.d2dReplay_regs n.val up,
      s.dev.d2dReplay_frame n.val up⟩
  · obtain ⟨⟨hports, hlinks, -, -, hd2d⟩, ⟨htime, -⟩, -, -, -, -, -, hregs⟩ :=
      s.dev.d2dFail_faultFrame n.val unlocked hlink hdue
    obtain ⟨⟨mports, mlinks, -, -, md2d⟩, ⟨mtime, -⟩⟩ := s.dev.d2dMarked_frame n.val
    refine ⟨_, d2dLinkFail_next s n unlocked hcore, ?_, ?_, (mports.trans hports).symm, (mlinks.trans hlinks).symm,
      (md2d.trans hd2d).symm, (mtime.trans htime).symm⟩
    · rw [Dev.d2dFailed, hregs.fd_eq _ _ _ (by decide), Dev.d2dMarked_state]; rfl
    · exact (hregs.fd_eq F.CORE_D2D_STAT_FAIL_REASON _ _ (by decide)).trans (Dev.d2dMarked_reason ..)

end Sys2Proof.Machine
end

section
/-! Link layer: a full training starts (02: R62, R74; 03: R107, R119, R124), and what it leaves unchanged. -/

namespace Sys2Proof.Machine

/-! ### What the start of a training leaves -/

/-- What the start of a training of port p leaves: every other port and link, contexts, tiles, HBM's controllers, egress
queues, outputs and the host functions. -/
structure TrainFrame (p : Nat) (a b : Dev) : Prop where
  ports : samePortsBut p a b
  links : sameLinksBut p a b
  compute : sameCompute a b
  queues : b.queues = a.queues
  out : b.out = a.out
  fns : b.fns = a.fns

theorem TrainFrame.refl (p : Nat) (a : Dev) : TrainFrame p a a :=
  ⟨fun _ _ => rfl, fun _ _ => rfl, ⟨rfl, rfl, rfl⟩, rfl, rfl, rfl⟩

theorem TrainFrame.trans {p : Nat} {a b c : Dev} (h : TrainFrame p a b) (k : TrainFrame p b c) : TrainFrame p a c := by
  obtain ⟨hp, hl, ⟨hc, ht, hh⟩, hq, ho, hf⟩ := h
  obtain ⟨kp, kl, ⟨kc, kt, kh⟩, kq, ko, kf⟩ := k
  exact ⟨fun q hq => (kp q hq).trans (hp q hq), fun q hq => (kl q hq).trans (hl q hq),
    ⟨hc.trans kc, ht.trans kt, hh.trans kh⟩, kq.trans hq, ko.trans ho, kf.trans hf⟩

theorem Dev.updPort_trainFrame (d : Dev) (p : Nat) (f : PortSt → PortSt) : TrainFrame p d (d.updPort p f) :=
  ⟨fun q hq => d.updPort_port_other p f q hq, fun _ _ => rfl, ⟨rfl, rfl, rfl⟩, rfl, rfl, rfl⟩

theorem Dev.updLink_trainFrame (d : Dev) (p : Nat) (f : LinkSt → LinkSt) : TrainFrame p d (d.updLink p f) :=
  ⟨fun _ _ => rfl, fun q hq => d.updLink_link_other p f q hq, ⟨rfl, rfl, rfl⟩, rfl, rfl, rfl⟩

/-- The parts that an operation on fabric time, registers, the shared buffer or the system's units leaves: all of
the frame, ports and links included. -/
structure SideFrame (a b : Dev) : Prop where
  ports : b.ports = a.ports
  links : b.links = a.links
  ctxs : b.ctxs = a.ctxs
  tiles : b.tiles = a.tiles
  hbm : b.hbm = a.hbm
  queues : b.queues = a.queues
  out : b.out = a.out
  fns : b.fns = a.fns

theorem SideFrame.refl (a : Dev) : SideFrame a a := ⟨rfl, rfl, rfl, rfl, rfl, rfl, rfl, rfl⟩

theorem SideFrame.trans {a b c : Dev} (h : SideFrame a b) (k : SideFrame b c) : SideFrame a c := by
  obtain ⟨h1, h2, h3, h4, h5, h6, h7, h8⟩ := h
  obtain ⟨k1, k2, k3, k4, k5, k6, k7, k8⟩ := k
  exact ⟨k1.trans h1, k2.trans h2, k3.trans h3, k4.trans h4, k5.trans h5, k6.trans h6, k7.trans h7, k8.trans h8⟩

theorem SideFrame.port_eq {a b : Dev} (h : SideFrame a b) (q : Nat) : b.port q = a.port q := by
  simp only [Dev.port, h.ports]

theorem SideFrame.link_eq {a b : Dev} (h : SideFrame a b) (q : Nat) : b.link q = a.link q := by
  simp only [Dev.link, h.links]

theorem SideFrame.trainFrame {a b : Dev} (h : SideFrame a b) (p : Nat) : TrainFrame p a b :=
  ⟨fun q _ => h.port_eq q, fun q _ => h.link_eq q, ⟨h.ctxs.symm, h.tiles.symm, h.hbm.symm⟩, h.queues, h.out, h.fns⟩

/-! ### Fabric time and the buffer -/

theorem Dev.setTime_sideFrame (d : Dev) (t : TimeSt) : SideFrame d { d with time := t } :=
  ⟨rfl, rfl, rfl, rfl, rfl, rfl, rfl, rfl⟩

theorem Dev.fdSet_sideFrame (d : Dev) (f : Fld) (i j v : Nat) : SideFrame d (d.fdSet f i j v) :=
  ⟨rfl, rfl, rfl, rfl, rfl, rfl, rfl, rfl⟩

theorem Dev.countN_sideFrame (d : Dev) (r : RegName) (i j n : Nat) : SideFrame d (d.countN r i j n) :=
  ⟨rfl, rfl, rfl, rfl, rfl, rfl, rfl, rfl⟩

theorem Dev.updCore_sideFrame (d : Dev) (f : CoreSt → CoreSt) : SideFrame d (d.updCore f) :=
  ⟨rfl, rfl, rfl, rfl, rfl, rfl, rfl, rfl⟩

theorem Dev.timeUnlock_sideFrame (d : Dev) : SideFrame d d.timeUnlock := by
  simp only [Dev.timeUnlock]
  split <;> constructor <;> simp

theorem Dev.timeElect_sideFrame (d : Dev) : SideFrame d d.timeElect := by
  simp only [Dev.timeElect]
  split
  · exact (d.setTime_sideFrame _).trans (Dev.fdSet_sideFrame _ _ _ _ _)
  · split
    · exact ((d.setTime_sideFrame _).trans (Dev.timeUnlock_sideFrame _)).trans (Dev.fdSet_sideFrame _ _ _ _ _)
    · rename_i p h _
      have hport : SideFrame d (if d.time.upport == some p then d else { d with
          time := { d.time with upport := some p, streak := 0 } }) := by
        split
        · exact .refl d
        · exact d.setTime_sideFrame _
      have hlock (e : Dev) : SideFrame e (if h.hops = 0xFF then e.timeUnlock else e) := by
        split
        · exact e.timeUnlock_sideFrame
        · exact .refl e
      exact ((hport.trans (hlock _)).trans (Dev.fdSet_sideFrame _ _ _ _ _)).trans (Dev.fdSet_sideFrame _ _ _ _ _)

/-- Losing what was learned over a port touches fabric time and its registers (R247, R248). -/
theorem Dev.timePortLost_sideFrame (d : Dev) (p : Nat) : SideFrame d (d.timePortLost p) := by
  have hvoid (t : TimeSt) :
      SideFrame d { (d.fdSet F.CORE_PEER_VALID p 0 0).fdSet F.CORE_PORT_DELAY_VALID p 0 0 with time := t } :=
    ((d.fdSet_sideFrame _ _ _ _).trans (Dev.fdSet_sideFrame _ _ _ _ _)).trans (Dev.setTime_sideFrame _ t)
  simp only [Dev.timePortLost]
  split
  · split
    · exact (hvoid _).trans (Dev.timeElect_sideFrame _)
    · exact ((hvoid _).trans (Dev.timeUnlock_sideFrame _)).trans (Dev.timeElect_sideFrame _)
  · exact hvoid _

theorem Dev.trainingOver_sideFrame (d : Dev) (p : Nat) : SideFrame d (d.trainingOver p) := by
  unfold Dev.trainingOver
  split <;> constructor <;> simp

/-- b is a but for the switch core. -/
def CoreOnly (a b : Dev) : Prop := ∃ f, b = a.updCore f

theorem CoreOnly.refl (a : Dev) : CoreOnly a a := ⟨id, rfl⟩

theorem CoreOnly.trans {a b c : Dev} (h : CoreOnly a b) (k : CoreOnly b c) : CoreOnly a c := by
  obtain ⟨f, rfl⟩ := h
  obtain ⟨g, rfl⟩ := k
  exact ⟨g ∘ f, rfl⟩

theorem Dev.updCore_coreOnly (d : Dev) (f : CoreSt → CoreSt) : CoreOnly d (d.updCore f) := ⟨f, rfl⟩

theorem CoreOnly.foldl {α : Type} (f : Dev → α → Dev) (hf : ∀ d x, CoreOnly d (f d x)) (l : List α) (d : Dev) :
    CoreOnly d (l.foldl f d) := by
  induction l generalizing d with
  | nil => exact .refl d
  | cons x l ih => exact (hf d x).trans (ih (f d x))

theorem CoreOnly.sideFrame {a b : Dev} (h : CoreOnly a b) : SideFrame a b := by
  obtain ⟨f, rfl⟩ := h
  exact a.updCore_sideFrame f

/-- A copy that is done with is a matter of the shared buffer (R182). -/
theorem Dev.copyDone_coreOnly (d : Dev) (id : Nat) : CoreOnly d (d.copyDone id) := by
  simp only [Dev.copyDone, Dev.setCellRef]
  split
  · split
    · exact (d.updCore_coreOnly _).trans (Dev.updCore_coreOnly _ _)
    · exact d.updCore_coreOnly _
  · exact d.updCore_coreOnly _

/-- The cells that a link holds for replay are freed (R123). -/
theorem Dev.copiesDone_sideFrame (d : Dev) (l : List Nat) : SideFrame d (l.foldl (fun d id => d.copyDone id) d) :=
  (CoreOnly.foldl _ (fun d id => d.copyDone_coreOnly id) l d).sideFrame

/-! ### A port enters a state (R74, R79) -/

/-- What taking a working link DOWN leaves of a link (R74). -/
def LinkSt.takenDown (l : LinkSt) : LinkSt :=
  { l with
    lstate := .down, cutNotice := false, dozeReq := false, dozeTries := 0
    dozeAck := 0, aligned := false, cursor := none, early := none, waking := false, nakWait := none
    annCount := 0 }

/-- The three parts of entering a state before a working link is taken down, with the port in its new state. -/
theorem Dev.setPort_spec (d : Dev) (p : Nat) (st : PortState) (reason : Nat) :
    TrainFrame p d (d.setPort p st reason) ∧ ((d.setPort p st reason).port p).state = st ∧
      (d.setPort p st reason).link p =
        if portLinked (d.port p).state && !(portLinked st) then (d.link p).takenDown else d.link p := by
  simp only [Dev.setPort]
  generalize hx : d.updPort p _ = x
  have hd : TrainFrame p d x := hx ▸ d.updPort_trainFrame p _
  have hs : (x.port p).state = st := by rw [← hx, Dev.updPort_port_same]
  have hl : x.link p = d.link p := by rw [← hx, Dev.updPort_link_at]
  have hover : SideFrame x (if training (d.port p).state && !training st then x.trainingOver p else x) := by
    split
    · exact x.trainingOver_sideFrame p
    · exact .refl x
  generalize (if training (d.port p).state && !training st then x.trainingOver p else x) = y at hover ⊢
  have hlost : SideFrame y (if portUp (d.port p).state && !portUp st then y.timePortLost p else y) := by
    split
    · exact y.timePortLost_sideFrame p
    · exact .refl y
  generalize (if portUp (d.port p).state && !portUp st then y.timePortLost p else y) = z at hlost ⊢
  have hz := hover.trans hlost
  rw [← hz.port_eq] at hs
  rw [← hz.link_eq] at hl
  have hdz := hd.trans (hz.trainFrame p)
  split
  · exact ⟨(hdz.trans (z.updPort_trainFrame p _)).trans (Dev.updLink_trainFrame _ p _), by simpa using hs,
      by simp [hl, LinkSt.takenDown]⟩
  · exact ⟨hdz, hs, hl⟩

/-- Entering a state that carries no link takes a working link down (R74). -/
theorem Dev.setPort_link_of_linked (d : Dev) (p : Nat) (st : PortState) (reason : Nat)
    (h : portLinked (d.port p).state = true) (hst : portLinked st = false) :
    (d.setPort p st reason).link p = (d.link p).takenDown := by
  rw [(d.setPort_spec p st reason).2.2, h, hst]; rfl

/-! ### A full training starts (R62, R123) -/

theorem Dev.latchMode_trainFrame (d : Dev) (p : Nat) : TrainFrame p d (d.latchMode p) := by
  unfold Dev.latchMode
  exact d.updPort_trainFrame p _

theorem Dev.linkFresh_trainFrame (d : Dev) (p : Nat) : TrainFrame p d (d.linkFresh p) := by
  unfold Dev.linkFresh
  exact ((((d.copiesDone_sideFrame _).trans (Dev.countN_sideFrame _ _ _ _ _)).trans
    (Dev.updCore_sideFrame _ _)).trainFrame p).trans (Dev.updLink_trainFrame _ p _)

@[simp] theorem Dev.linkFresh_port (d : Dev) (p q : Nat) : (d.linkFresh p).port q = d.port q :=
  (d.copiesDone_sideFrame _).port_eq q

theorem Dev.linkFresh_lstate (d : Dev) (p : Nat) : ((d.linkFresh p).link p).lstate = (d.link p).lstate := by
  simp only [Dev.linkFresh, Dev.updLink_link_same, Dev.updCore_link_at, Dev.countN_link_at]
  rw [(d.copiesDone_sideFrame _).link_eq p]

/-- A port with a working link that begins a full training (R62). -/
theorem Dev.toTraining_spec (d : Dev) (p : Nat) (h : portLinked (d.port p).state = true) :
    TrainFrame p d (d.toTraining p true) ∧ ((d.toTraining p true).port p).state = .training ∧
      ((d.toTraining p true).port p).step = 1 ∧ ((d.toTraining p true).link p).lstate = .down ∧
      ((d.link p).keep = true → ((d.toTraining p true).link p).replayList = (d.link p).replayList) := by
  obtain ⟨hframe, hstate, -⟩ := d.setPort_spec p .training 0
  have hlink := d.setPort_link_of_linked p .training 0 h rfl
  simp only [Dev.toTraining, Bool.true_and]
  generalize hx : Dev.updPort _ p _ = x
  have hdx : TrainFrame p d x := by
    rw [← hx]
    exact (hframe.trans (Dev.latchMode_trainFrame _ p)).trans (Dev.updPort_trainFrame _ p _)
  have hport : (x.port p).state = .training ∧ (x.port p).step = 1 := by
    rw [← hx]; simpa [Dev.latchMode] using hstate
  have hxl : x.link p = (d.link p).takenDown := by
    rw [← hx]; simpa [Dev.latchMode] using hlink
  cases hk : (d.link p).keep with
  | true =>
    exact ⟨hdx.trans (x.updLink_trainFrame p _), by simpa using hport.1, by simpa using hport.2,
      by simp [hxl, LinkSt.takenDown], fun _ => by simp [hxl, LinkSt.takenDown]⟩
  | false =>
    exact ⟨(hdx.trans (x.linkFresh_trainFrame p)).trans (Dev.updLink_trainFrame _ p _), by simpa using hport.1,
      by simpa using hport.2, by simp [Dev.linkFresh_lstate, hxl, LinkSt.takenDown], fun h => by simp at h⟩

theorem portLinked_of_portUp {st : PortState} (h : portUp st = true) : portLinked st = true := by
  cases st <;> simp_all [portUp, portLinked]

/-- On a port UP or DEGRADED a RETRAIN acts at once (R74). -/
theorem Dev.retrain_of_up (d : Dev) (p : Nat) (h : portUp (d.port p).state = true) : d.retrain p = d.toTraining p true := by
  unfold Dev.retrain
  split <;> simp_all [portUp]

theorem Dev.toTraining_retrained (d : Dev) (p : Nat) (h : portLinked (d.port p).state = true) :
    retrained p d (d.toTraining p true) := by
  obtain ⟨⟨hports, hlinks, hcomp, hqueues, -⟩, hstate, hstep, hdown, hkeep⟩ := d.toTraining_spec p h
  exact ⟨hstate, hstep, hdown, hkeep, hports, hlinks, hcomp, hqueues⟩

theorem Dev.portEvent_eq_post (d : Dev) (p reason : Nat) :
    ∃ e : Evt, d.portEvent p reason = d.post e ∧ e.cls = 1 ∧ e.reason = reason := by
  unfold Dev.portEvent Dev.portEventOf
  exact ⟨_, rfl, rfl, rfl⟩

/-- Posting an event leaves what a training has made of the port and its link. -/
theorem retrained.post {p : Nat} {a b : Dev} (h : retrained p a b) (e : Evt) : retrained p a (b.post e) := by
  have hport (q : Nat) : (b.post e).port q = b.port q := by simp only [Dev.port, Dev.post_ports]
  have hlink (q : Nat) : (b.post e).link q = b.link q := by simp only [Dev.link, Dev.post_links]
  obtain ⟨hstate, hstep, hdown, hkeep, hports, hlinks, ⟨hctxs, htiles, hhbm⟩, hqueues⟩ := h
  refine ⟨?_, ?_, ?_, ?_, ?_, ?_, ?_, ?_⟩
  · rwa [hport]
  · rwa [hport]
  · rwa [hlink]
  · rwa [hlink]
  · exact fun q hq => (hport q).trans (hports q hq)
  · exact fun q hq => (hlink q).trans (hlinks q hq)
  · exact ⟨hctxs.trans (b.post_ctxs e).symm, htiles.trans (b.post_tiles e).symm, hhbm.trans (b.post_hbm e).symm⟩
  · exact (b.post_queues e).trans hqueues

/-- A change of port p's link before a training that keeps its replay list is part of that training. -/
theorem retrained.of_updLink {p : Nat} {a b : Dev} {f : LinkSt → LinkSt} (hk : (f (a.link p)).keep = (a.link p).keep)
    (hr : (f (a.link p)).replayList = (a.link p).replayList) (h : retrained p (a.updLink p f) b) : retrained p a b := by
  obtain ⟨hstate, hstep, hdown, hkeep, hports, hlinks, hcomp, hqueues⟩ := h
  rw [Dev.updLink_link_same, hk, hr] at hkeep
  exact ⟨hstate, hstep, hdown, hkeep, hports, fun q hq => (hlinks q hq).trans (a.updLink_link_other p f q hq), hcomp, hqueues⟩

end Sys2Proof.Machine
end

section
/-! Link layer: what NAKs, windows, limits and notices do (03: R102-R107, R115-R117, R124). -/

namespace Sys2Proof.Machine

/-! ### Devices that differ in a few parts -/

/-- Two devices with the same parts are the same. -/
theorem Dev.ext_fields {a b : Dev} (cycle : a.cycle = b.cycle) (freeCount : a.freeCount = b.freeCount) (out : a.out = b.out)
    (regs : a.regs = b.regs) (hot : a.hot = b.hot) (d2d : a.d2d = b.d2d) (ports : a.ports = b.ports)
    (fibres : a.fibres = b.fibres) (els : a.els = b.els) (links : a.links = b.links) (core : a.core = b.core)
    (queues : a.queues = b.queues) (capt : a.capt = b.capt) (ctxs : a.ctxs = b.ctxs) (tiles : a.tiles = b.tiles)
    (time : a.time = b.time) (bars : a.bars = b.bars) (fns : a.fns = b.fns) (accOrder : a.accOrder = b.accOrder)
    (qmr : a.qmr = b.qmr) (flt : a.flt = b.flt) (hbm : a.hbm = b.hbm) (sys : a.sys = b.sys) : a = b := by
  cases a; cases b; simp_all

/-- A change of one link leaves the other links. -/
theorem Dev.sameLinksBut_updLink (d : Dev) (p : Nat) (f : LinkSt → LinkSt) : sameLinksBut p d (d.updLink p f) :=
  fun q hq => d.updLink_link_other p f q hq

theorem Dev.samePortsBut_updPort (d : Dev) (p : Nat) (f : PortSt → PortSt) : samePortsBut p d (d.updPort p f) :=
  fun q hq => d.updPort_port_other p f q hq

/-! ### A capture (R130) -/

/-- A register capture touches its register only. -/
theorem Dev.captureOnce_rawF_ne (d : Dev) (f : Fld) (p v : Nat) (r : RegName) (fn i j : Nat) (h : r ≠ f.reg) :
    (d.captureOnce f p v).rawF r fn i j = d.rawF r fn i j := by
  simp only [Dev.captureOnce, Dev.captureAt, Dev.heatFlag_rawF]
  split
  · rfl
  · exact d.setRawF_rawF_ne _ _ _ _ _ _ _ _ _ h

/-- A one-bit field is the bit. -/
theorem bitsOf_bit (w b : Nat) : bitsOf w b b = (w.testBit b).toNat := by
  simp [bitsOf, Nat.toNat_testBit, Nat.shiftRight_eq_div_pow]

/-- After a capture its VALID bit reads 1, whether it was set before or not (R130). -/
theorem Dev.captureOnce_valid (d : Dev) (r : RegName) (b p v : Nat) (hb : b < 64) :
    (d.captureOnce ⟨r, b, b⟩ p v).fd ⟨r, b, b⟩ p = 1 := by
  simp only [Dev.captureOnce, Dev.captureAt, Dev.heatFlag_fd]
  split
  next h => simpa [Dev.bit] using h
  next =>
    rw [Dev.fd, Dev.fdF, Dev.setRawF_rawF_same, bitsOf_bit, Nat.testBit_mod_two_pow, bitPut,
      bitsPut_testBit _ _ _ _ _ (Nat.le_succ b)]
    simp [hb]

theorem Dev.captureOnce_link (d : Dev) (f : Fld) (p v q : Nat) : (d.captureOnce f p v).link q = d.link q := by
  simp only [Dev.captureOnce, Dev.captureAt, Dev.heatFlag_link_at]
  split <;> simp

/-! ### Steps of one link -/

/-- b is a but for links, registers and what hardware did to them. -/
def LinkRegs (a b : Dev) : Prop := b = { a with links := b.links, regs := b.regs, hot := b.hot }

theorem LinkRegs.trans {a b c : Dev} (h : LinkRegs a b) (k : LinkRegs b c) : LinkRegs a c := Eq.trans k (by rw [h])

theorem Dev.updLink_linkRegs (d : Dev) (p : Nat) (f : LinkSt → LinkSt) : LinkRegs d (d.updLink p f) := rfl

theorem Dev.count_linkRegs (d : Dev) (r : RegName) (i j : Nat) : LinkRegs d (d.count r i j) := by
  apply Dev.ext_fields <;> simp

theorem Dev.captureOnce_linkRegs (d : Dev) (f : Fld) (p v : Nat) : LinkRegs d (d.captureOnce f p v) := by
  simp only [Dev.captureOnce, Dev.captureAt]
  split <;> apply Dev.ext_fields <;> simp

/-- From a to b link p has become l; other links are as before, of the registers at most those of a list are not, and all
else is as before. -/
structure LinkStep (p : Nat) (l : LinkSt) (regs : List RegName) (a b : Dev) : Prop where
  link : b.link p = l
  links : sameLinksBut p a b
  regs : sameRegsBut regs a b
  rest : LinkRegs a b

theorem LinkStep.refl (p : Nat) (regs : List RegName) (a : Dev) : LinkStep p (a.link p) regs a a :=
  ⟨rfl, fun _ _ => rfl, sameRegsBut_refl _ a, rfl⟩

theorem LinkStep.updLink {p : Nat} {l : LinkSt} {regs : List RegName} {a b : Dev} (h : LinkStep p l regs a b)
    {f : LinkSt → LinkSt} {l' : LinkSt} (hl : f l = l') : LinkStep p l' regs a (b.updLink p f) :=
  ⟨by rw [Dev.updLink_link_same, h.link, hl], fun q hq => (b.updLink_link_other p f q hq).trans (h.links q hq), h.regs,
    h.rest.trans (b.updLink_linkRegs p f)⟩

theorem LinkStep.count {p : Nat} {l : LinkSt} {regs : List RegName} {a b : Dev} (h : LinkStep p l regs a b)
    (r : RegName) (i j : Nat) (hr : r ∈ regs) : LinkStep p l regs a (b.count r i j) :=
  ⟨h.link, h.links, sameRegsBut_trans h.regs (sameRegsBut_count b r i j hr), h.rest.trans (b.count_linkRegs r i j)⟩

theorem LinkStep.captureOnce {p : Nat} {l : LinkSt} {regs : List RegName} {a b : Dev} (h : LinkStep p l regs a b)
    (f : Fld) (v : Nat) (hr : f.reg ∈ regs) : LinkStep p l regs a (b.captureOnce f p v) :=
  ⟨(b.captureOnce_link f p v p).trans h.link, fun q hq => (b.captureOnce_link f p v q).trans (h.links q hq),
    sameRegsBut_trans h.regs fun r _ _ _ hn => b.captureOnce_rawF_ne f p v r _ _ _ fun e => hn (e ▸ hr),
    h.rest.trans (b.captureOnce_linkRegs f p v)⟩

/-! ### When a row of the link layer acts (R102-R107, R115-R117) -/

theorem LinkSt.live_of {l : LinkSt} (h : l.lstate = .active ∨ l.lstate = .replay) :
    (l.lstate == .active || l.lstate == .replay || l.lstate == .init) = true := by
  rcases h with h | h <;> simp [h]

/-- The count of an accepted NAK, and the operation used up. -/
def Dev.nakNoted (d : Dev) (p : Nat) : Dev :=
  (d.count .PORT_NAK_RX_CNT p).updLink p fun l => { l with lcCount := 0 }

/-- A NAK that is accepted, counted and names a flit held or the next new one is acted on (R104). -/
theorem Dev.nakRx_acts (d : Dev) (p seq : Nat) (hacc : (d.link p).accepted (0x1000 + seq) = true)
    (hst : (d.link p).lstate = .active ∨ (d.link p).lstate = .replay) (hbusy : steerBusy (d.port p).txSteer = false)
    (hi : subMod 4096 seq (subMod 4096 (d.link p).txNext (d.link p).replayList.length) ≤ (d.link p).replayList.length) :
    d.nakRx p seq = ((d.nakNoted p).startReplay p
      (subMod 4096 seq (subMod 4096 (d.link p).txNext (d.link p).replayList.length))).linkSettle p := by
  simp [Dev.nakRx, Dev.nakNoted, hacc, LinkSt.live_of hst, Nat.not_lt.mpr hi, hbusy, Dev.nakAct, hi]

/-- A full window on a link with no replay under way replays from the oldest flit (R105). -/
theorem Dev.windowFull_acts (d : Dev) (p : Nat) (hlen : 2048 ≤ (d.link p).replayList.length)
    (hcur : (d.link p).cursor = none)
    (hst : (d.link p).lstate = .active ∨ (d.link p).lstate = .replay ∨ (d.link p).lstate = .init) :
    d.windowFull p = d.startReplay p 0 := by
  have hlive : ((d.link p).lstate == .active || (d.link p).lstate == .replay || (d.link p).lstate == .init) = true := by
    rcases hst with h | h | h <;> simp [h]
  simp [Dev.windowFull, hlen, hcur, hlive]

/-- The sixteenth replay without progress, and INIT for 1 ms, act as RETRAIN with an event (R107, R124). -/
theorem Dev.replayLimit_acts (d : Dev) (p : Nat) (hcnt : 16 ≤ (d.link p).consec) (hup : portUp (d.port p).state = true) :
    d.replayLimit p = ((d.updLink p fun l => { l with consec := 0 }).toTraining p true).portEvent p 0xEF := by
  have hret := (d.updLink p fun l => { l with consec := 0 }).retrain_of_up p (by simpa using hup)
  simp [Dev.replayLimit, hcnt, portLinked_of_portUp hup, Dev.retrainEvent, hret]

theorem Dev.restripeTimeout_acts (d : Dev) (p : Nat) (hst : (d.port p).state = .restripe) :
    d.restripeTimeout p = (d.toTraining p true).portEvent p 0xEF := by
  simp [Dev.restripeTimeout, hst]

/-- During a steer's countdown a NAK waits for the boundary (R117). -/
theorem Dev.nakRx_waits (d : Dev) (p seq : Nat) (hacc : (d.link p).accepted (0x1000 + seq) = true)
    (hst : (d.link p).lstate = .active ∨ (d.link p).lstate = .replay) (hbusy : steerBusy (d.port p).txSteer = true)
    (hi : subMod 4096 seq (subMod 4096 (d.link p).txNext (d.link p).replayList.length) ≤ (d.link p).replayList.length) :
    d.nakRx p seq = (d.nakNoted p).updLink p fun l => { l with nakWait := some seq } := by
  simp [Dev.nakRx, Dev.nakNoted, hacc, LinkSt.live_of hst, Nat.not_lt.mpr hi, hbusy]

/-- A NAK that names no flit held, nor the next new one, is captured (R104). -/
theorem Dev.nakRx_captures (d : Dev) (p seq : Nat) (hacc : (d.link p).accepted (0x1000 + seq) = true)
    (hst : (d.link p).lstate = .active ∨ (d.link p).lstate = .replay)
    (hi : (d.link p).replayList.length < subMod 4096 seq (subMod 4096 (d.link p).txNext (d.link p).replayList.length)) :
    d.nakRx p seq = (d.nakNoted p).captureOnce F.PORT_PROTO_CAP_VALID p (6 <<< 24 ||| seq) := by
  simp [Dev.nakRx, Dev.nakNoted, hacc, LinkSt.live_of hst, hi]

/-- A NAK not answered goes out again and is counted (R102). -/
theorem Dev.nakResend_acts (d : Dev) (p : Nat) (hpend : (d.link p).nakPending = true) (hst : (d.link p).lstate ≠ .down) :
    d.nakResend p = (d.updLink p fun l => { l with nakDue := some l.rxExpect }).count .PORT_NAK_TX_CNT p := by
  simp [Dev.nakResend, hpend, hst]

theorem Dev.nakResend_none (d : Dev) (p : Nat) (hpend : (d.link p).nakPending = false) : d.nakResend p = d := by
  simp [Dev.nakResend, hpend]

/-- A port UP or DEGRADED whose link stays in INIT begins a training with an event (R124). -/
theorem Dev.initTimeout_acts (d : Dev) (p : Nat) (hst : (d.link p).lstate = .init) (hup : portUp (d.port p).state = true) :
    d.initTimeout p = (d.toTraining p true).portEvent p 0xEF := by
  simp [Dev.initTimeout, hst, Dev.retrainEvent, d.retrain_of_up p hup]

/-- An accepted RETRAIN on a port UP or DEGRADED (R74, R115). -/
theorem Dev.retrainRx_acts (d : Dev) (p : Nat) (hacc : (d.link p).accepted 0x7000 = true)
    (hup : portUp (d.port p).state = true) : d.retrainRx p = (d.lcUse p).toTraining p true := by
  have hret := (d.lcUse p).retrain_of_up p (by simpa [Dev.lcUse] using hup)
  simp [Dev.retrainRx, hacc, hret]

/-- In RESTRIPE it waits (R75). -/
theorem Dev.retrainRx_waits (d : Dev) (p : Nat) (hacc : (d.link p).accepted 0x7000 = true)
    (hst : (d.port p).state = .restripe) :
    d.retrainRx p = (d.lcUse p).updPort p fun x => { x with retrainAfter := true } := by
  have hport : ((d.lcUse p).port p).state = .restripe := hst
  simp [Dev.retrainRx, hacc, Dev.retrain, hport]

/-! ### What replays make of a link -/

theorem Dev.nakNoted_step (d : Dev) (p : Nat) (regs : List RegName) (h : .PORT_NAK_RX_CNT ∈ regs) :
    LinkStep p { d.link p with lcCount := 0 } regs d (d.nakNoted p) := by
  unfold Dev.nakNoted
  exact ((LinkStep.refl p regs d).count _ p 0 h).updLink rfl

/-- A replay that starts (R104, R105, R107). -/
def LinkSt.replaying (l : LinkSt) (i : Nat) : LinkSt :=
  { l with
    cursor := if i < l.replayList.length then some i else none
    lstate := if l.lstate = .active then .replay else l.lstate
    lackMoved := false, consec := if l.lackMoved then 0 else min 16 (l.consec + 1) }

theorem LinkStep.startReplay {p : Nat} {l : LinkSt} {regs : List RegName} {a b : Dev} (h : LinkStep p l regs a b)
    (i : Nat) (hr : .PORT_REPLAY_CNT ∈ regs) : LinkStep p (l.replaying i) regs a (b.startReplay p i) := by
  have hsat : min 15 (l.consec + 1) + (if 15 < l.consec + 1 then 1 else 0) = min 16 (l.consec + 1) := by
    split <;> omega
  unfold Dev.startReplay Dev.resendFrom
  exact (h.updLink (by simp only [hsat, LinkSt.replaying, beq_iff_eq])).count _ p 0 hr

theorem LinkStep.linkSettle {p : Nat} {l : LinkSt} {regs : List RegName} {a b : Dev} (h : LinkStep p l regs a b) :
    LinkStep p (if l.lstate == .init && l.gotRx && l.gotAck then { l with lstate := .active, keep := true }
      else if l.lstate == .replay && l.cursor.isNone then { l with lstate := .active } else l) regs a (b.linkSettle p) := by
  unfold Dev.linkSettle
  exact h.updLink rfl

/-- What a NAK that is acted on makes of an ACTIVE or REPLAY link (R104). -/
theorem LinkStep.replayFrom {p : Nat} {l : LinkSt} {regs : List RegName} {a b : Dev} (h : LinkStep p l regs a b)
    (i : Nat) (hr : .PORT_REPLAY_CNT ∈ regs) (hst : l.lstate = .active ∨ l.lstate = .replay) :
    LinkStep p { l with
      cursor := if i < l.replayList.length then some i else none
      lstate := if i < l.replayList.length then .replay else .active
      lackMoved := false, consec := if l.lackMoved then 0 else min 16 (l.consec + 1) } regs a
      ((b.startReplay p i).linkSettle p) := by
  have hstep := (h.startReplay i hr).linkSettle
  have hrep : (if l.lstate = .active then LState.replay else l.lstate) = .replay := by
    rcases hst with e | e <;> simp [e]
  by_cases hi : i < l.replayList.length <;> simpa [LinkSt.replaying, hrep, hi] using hstep

@[simp] theorem Dev.linkSettle_rawF (d : Dev) (p : Nat) (r : RegName) (fn i j : Nat) :
    (d.linkSettle p).rawF r fn i j = d.rawF r fn i j := rfl

theorem Dev.startReplay_rawF_ne (d : Dev) (p i : Nat) (r : RegName) (fn x y : Nat) (h : r ≠ .PORT_REPLAY_CNT) :
    (d.startReplay p i).rawF r fn x y = d.rawF r fn x y := d.count_rawF_ne _ _ _ _ _ _ _ h

theorem Dev.startReplay_rawF_same (d : Dev) (p i : Nat) :
    (d.startReplay p i).rawF .PORT_REPLAY_CNT 0 p 0 = up1 (d.rawF .PORT_REPLAY_CNT 0 p 0) := by
  rw [Dev.startReplay, Dev.count_rawF_same]
  rfl

theorem Dev.nakNoted_rawF_same (d : Dev) (p : Nat) :
    (d.nakNoted p).rawF .PORT_NAK_RX_CNT 0 p 0 = up1 (d.rawF .PORT_NAK_RX_CNT 0 p 0) := d.count_rawF_same _ p 0

theorem Dev.nakNoted_rawF_ne (d : Dev) (p : Nat) (r : RegName) (fn x y : Nat) (h : r ≠ .PORT_NAK_RX_CNT) :
    (d.nakNoted p).rawF r fn x y = d.rawF r fn x y := d.count_rawF_ne _ _ _ _ _ _ _ h

/-- What an accepted NAK on an ACTIVE or REPLAY link does, by the flit it names and the steer under way (R104, R117). -/
theorem Dev.nakRx_spec (a : Dev) (p seq i : Nat) (hacc : (a.link p).accepted (0x1000 + seq) = true)
    (hst : (a.link p).lstate = .active ∨ (a.link p).lstate = .replay)
    (hi : i = subMod 4096 seq (subMod 4096 (a.link p).txNext (a.link p).replayList.length)) :
    (a.nakRx p seq).rawF .PORT_NAK_RX_CNT 0 p 0 = up1 (a.rawF .PORT_NAK_RX_CNT 0 p 0) ∧
      sameLinksBut p a (a.nakRx p seq) ∧ LinkRegs a (a.nakRx p seq) ∧
      (i ≤ (a.link p).replayList.length → steerBusy (a.port p).txSteer = false →
        (a.nakRx p seq).link p = { a.link p with
          lcCount := 0, cursor := if i < (a.link p).replayList.length then some i else none
          lstate := if i < (a.link p).replayList.length then .replay else .active, lackMoved := false
          consec := if (a.link p).lackMoved then 0 else min 16 ((a.link p).consec + 1) } ∧
        (a.nakRx p seq).rawF .PORT_REPLAY_CNT 0 p 0 = up1 (a.rawF .PORT_REPLAY_CNT 0 p 0) ∧
        sameRegsBut [.PORT_NAK_RX_CNT, .PORT_REPLAY_CNT] a (a.nakRx p seq)) ∧
      (i ≤ (a.link p).replayList.length → steerBusy (a.port p).txSteer = true →
        (a.nakRx p seq).link p = { a.link p with lcCount := 0, nakWait := some seq } ∧
        sameRegsBut [.PORT_NAK_RX_CNT] a (a.nakRx p seq)) ∧
      ((a.link p).replayList.length < i →
        (a.nakRx p seq).link p = { a.link p with lcCount := 0 } ∧
        (a.nakRx p seq).fd F.PORT_PROTO_CAP_VALID p = 1 ∧
        sameRegsBut [.PORT_NAK_RX_CNT, .PORT_PROTO_CAP] a (a.nakRx p seq)) := by
  by_cases hlen : i ≤ (a.link p).replayList.length
  · cases hbusy : steerBusy (a.port p).txSteer with
    | false =>
      rw [a.nakRx_acts p seq hacc hst hbusy (hi ▸ hlen), ← hi]
      obtain ⟨hlink, hlinks, hregs, hrest⟩ := (a.nakNoted_step p [.PORT_NAK_RX_CNT, .PORT_REPLAY_CNT] (by simp)).replayFrom
        i (by simp) hst
      refine ⟨?_, hlinks, hrest, fun _ _ => ⟨hlink, ?_, hregs⟩, by simp, fun h => absurd hlen (Nat.not_le.mpr h)⟩
      · rw [Dev.linkSettle_rawF, Dev.startReplay_rawF_ne _ _ _ _ _ _ _ (by simp), Dev.nakNoted_rawF_same]
      · rw [Dev.linkSettle_rawF, Dev.startReplay_rawF_same, Dev.nakNoted_rawF_ne _ _ _ _ _ _ (by simp)]
    | true =>
      rw [a.nakRx_waits p seq hacc hst hbusy (hi ▸ hlen)]
      obtain ⟨hlink, hlinks, hregs, hrest⟩ := (a.nakNoted_step p [.PORT_NAK_RX_CNT] (by simp)).updLink
        (f := fun l => { l with nakWait := some seq }) rfl
      exact ⟨(Dev.updLink_rawF _ _ _ _ _ _ _).trans (a.nakNoted_rawF_same p), hlinks, hrest, by simp, fun _ _ => ⟨hlink, hregs⟩,
        fun h => absurd hlen (Nat.not_le.mpr h)⟩
  · rw [a.nakRx_captures p seq hacc hst (hi ▸ Nat.not_le.mp hlen)]
    obtain ⟨hlink, hlinks, hregs, hrest⟩ := (a.nakNoted_step p [.PORT_NAK_RX_CNT, .PORT_PROTO_CAP] (by simp)).captureOnce
      F.PORT_PROTO_CAP_VALID (6 <<< 24 ||| seq) (by simp [F.PORT_PROTO_CAP_VALID])
    refine ⟨?_, hlinks, hrest, fun h => absurd h hlen, fun h => absurd h hlen, fun _ => ⟨hlink, ?_, hregs⟩⟩
    · rw [Dev.captureOnce_rawF_ne _ _ _ _ _ _ _ _ (by simp [F.PORT_PROTO_CAP_VALID]), a.nakNoted_rawF_same]
    · exact Dev.captureOnce_valid _ .PORT_PROTO_CAP 15 p _ (by decide)

/-- Using up an operation before a training changes nothing that the training keeps (R116). -/
theorem Dev.lcUse_toTraining_retrained (d : Dev) (p : Nat) (hup : portUp (d.port p).state = true) :
    retrained p d ((d.lcUse p).toTraining p true) :=
  retrained.of_updLink (f := fun l => { l with lcCount := 0 }) rfl rfl
    ((d.lcUse p).toTraining_retrained p (portLinked_of_portUp hup))

theorem Dev.portEvent_retrained {p : Nat} {a b : Dev} (h : retrained p a b) (reason : Nat) :
    retrained p a (b.portEvent p reason) := by
  obtain ⟨e, hpost, -⟩ := b.portEvent_eq_post p reason
  exact hpost ▸ h.post e

/-- A port and its link have been noted something: no other port or link, and nothing else. -/
theorem Dev.updLink_updPort_frame (d : Dev) (p : Nat) (f : LinkSt → LinkSt) (g : PortSt → PortSt) :
    ((d.updLink p f).updPort p g).port p = g (d.port p) ∧ ((d.updLink p f).updPort p g).link p = f (d.link p) ∧
      samePortsBut p d ((d.updLink p f).updPort p g) ∧ sameLinksBut p d ((d.updLink p f).updPort p g) ∧
      (d.updLink p f).updPort p g =
        { d with ports := ((d.updLink p f).updPort p g).ports, links := ((d.updLink p f).updPort p g).links } :=
  ⟨by simp, by simp, (d.updLink p f).samePortsBut_updPort p g, d.sameLinksBut_updLink p f, rfl⟩

/-- Settles O7: a replay by a NAK or a full window goes through `startReplay`, which keeps the count; the sixteenth and
a restripe's timeout begin a full training of the port. -/
theorem noProgressRetrainsThePort : Obligations.NoProgressRetrainsThePort := by
  unfold Obligations.NoProgressRetrainsThePort
  rintro s p l hcore rfl
  refine ⟨?_, ?_, ?_⟩
  · rintro c seq (⟨rfl, hacc, hst, hbusy, hi⟩ | ⟨rfl, hlen, hcur, hst⟩) hcnt
    · refine ⟨s.dev.nakRx p.val seq.toNat, coreDone_of_coreUp _ s hcore, ?_⟩
      obtain ⟨-, -, -, hreplay, -⟩ := s.dev.nakRx_spec p.val seq.toNat _ hacc (.inl hst) rfl
      obtain ⟨hlink, -⟩ := hreplay (Nat.le_of_lt hi) hbusy
      exact ⟨by simp [hlink, Nat.min_eq_right (Nat.succ_le_of_lt hcnt)], by simp [hlink]⟩
    · refine ⟨s.dev.windowFull p.val, coreDone_of_coreUp _ s hcore, ?_⟩
      obtain ⟨hlink, -⟩ := (LinkStep.refl p.val [.PORT_REPLAY_CNT] s.dev).startReplay 0 (by simp)
      rw [s.dev.windowFull_acts p.val hlen hcur (.inl hst)]
      exact ⟨by simp [hlink, LinkSt.replaying, Nat.min_eq_right (Nat.succ_le_of_lt hcnt)], by simp [hlink, LinkSt.replaying]⟩
  · rintro ⟨hcnt, hup⟩
    have hup' : portUp (s.dev.port p.val).state = true := by rcases hup with h | h <;> rw [h] <;> rfl
    obtain ⟨e, hpost, hcls, hreason⟩ :=
      ((s.dev.updLink p.val fun l => { l with consec := 0 }).toTraining p.val true).portEvent_eq_post p.val 0xEF
    obtain ⟨hstate, hstep, -, -, hports, hlinks, hcomp, hqueues⟩ := retrained.of_updLink rfl rfl
      ((s.dev.updLink p.val fun l => { l with consec := 0 }).toTraining_retrained p.val (portLinked_of_portUp hup'))
    refine ⟨_, e, ?_, hcls, hreason, hstate, hstep, hports, hlinks, hqueues, hcomp⟩
    rw [← hpost, ← s.dev.replayLimit_acts p.val hcnt hup']
    exact coreDone_of_coreUp _ s hcore
  · intro hst
    obtain ⟨e, hpost, hcls, hreason⟩ := (s.dev.toTraining p.val true).portEvent_eq_post p.val 0xEF
    obtain ⟨hstate, hstep, -, -, hports, hlinks, hcomp, hqueues⟩ :=
      s.dev.toTraining_retrained p.val (by rw [hst]; rfl)
    refine ⟨_, e, ?_, hcls, hreason, hstate, hstep, hports, hlinks, hqueues, hcomp⟩
    rw [← hpost, ← s.dev.restripeTimeout_acts p.val hst]
    exact coreDone_of_coreUp _ s hcore

/-- Settles O42: one lemma per row says what the row is when its condition holds; replays and counts are steps of one
link, the limits and RETRAIN the start of a training. -/
theorem replaysStartAndLimitsRetrain : Obligations.ReplaysStartAndLimitsRetrain := by
  unfold Obligations.ReplaysStartAndLimitsRetrain
  rintro s p l hcore rfl
  refine ⟨fun seq hacc hst => ?_, fun hpend hst => ?_, fun hpend => ?_, fun hlen hcur hst => ?_,
    fun hup => ⟨fun hcnt => ?_, fun hst => ?_, fun hacc => ?_⟩, fun hst hacc => ?_, fun hacc => ?_, fun hres hcnt => ?_⟩
  case refine_1 =>
    obtain ⟨hcnt, hlinks, hrest, -⟩ := s.dev.nakRx_spec p.val seq.toNat _ hacc hst rfl
    exact ⟨_, coreDone_of_coreUp _ s hcore, hcnt, hlinks, hrest, fun i hi =>
      (s.dev.nakRx_spec p.val seq.toNat i hacc hst hi).2.2.2⟩
  case refine_2 =>
    obtain ⟨hlink, hlinks, hregs, hrest⟩ := ((LinkStep.refl p.val [.PORT_NAK_TX_CNT] s.dev).updLink
      (f := fun l => { l with nakDue := some l.rxExpect }) rfl).count .PORT_NAK_TX_CNT p.val 0 (by simp)
    rw [← s.dev.nakResend_acts p.val hpend hst] at hlink hlinks hregs hrest
    refine ⟨_, coreDone_of_coreUp _ s hcore, hlink, ?_, hregs, hlinks, hrest⟩
    rw [s.dev.nakResend_acts p.val hpend hst, Dev.count_rawF_same, Dev.updLink_rawF]
  case refine_3 =>
    exact (coreDone_of_coreUp _ s hcore).trans (by rw [s.dev.nakResend_none p.val hpend])
  case refine_4 =>
    obtain ⟨hlink, hlinks, hregs, hrest⟩ := (LinkStep.refl p.val [.PORT_REPLAY_CNT] s.dev).startReplay 0 (by simp)
    rw [← s.dev.windowFull_acts p.val hlen hcur hst] at hlink hlinks hregs hrest
    refine ⟨_, coreDone_of_coreUp _ s hcore, ?_, ?_, hregs, hlinks, hrest⟩
    · simp [hlink, LinkSt.replaying, show 0 < (s.dev.link p.val).replayList.length by omega]
    · rw [s.dev.windowFull_acts p.val hlen hcur hst, Dev.startReplay_rawF_same]
  case refine_5 =>
    refine ⟨_, coreDone_of_coreUp _ s hcore, ?_⟩
    rw [s.dev.replayLimit_acts p.val hcnt hup]
    exact Dev.portEvent_retrained (retrained.of_updLink rfl rfl
      (Dev.toTraining_retrained _ p.val (portLinked_of_portUp (by simpa using hup)))) 0xEF
  case refine_6 =>
    refine ⟨_, coreDone_of_coreUp _ s hcore, ?_⟩
    rw [s.dev.initTimeout_acts p.val hst hup]
    exact Dev.portEvent_retrained (s.dev.toTraining_retrained p.val (portLinked_of_portUp hup)) 0xEF
  case refine_7 =>
    refine ⟨_, coreDone_of_coreUp _ s hcore, ?_⟩
    rw [s.dev.retrainRx_acts p.val hacc hup]
    obtain ⟨⟨-, -, -, -, hout, hfns⟩, -⟩ := (s.dev.lcUse p.val).toTraining_spec p.val (portLinked_of_portUp hup)
    exact ⟨s.dev.lcUse_toTraining_retrained p.val hup, hout, hfns⟩
  case refine_8 =>
    refine ⟨_, coreDone_of_coreUp _ s hcore, ?_⟩
    rw [s.dev.retrainRx_waits p.val hacc hst]
    exact s.dev.updLink_updPort_frame p.val _ _
  case refine_9 =>
    refine ⟨_, coreDone_of_coreUp _ s hcore, ?_⟩
    simp only [Dev.cutNoticeRx, hacc, if_true]
    exact s.dev.updLink_updPort_frame p.val _ _
  case refine_10 =>
    obtain ⟨hlink, hlinks, hregs, hrest⟩ := ((LinkStep.refl p.val [.PORT_LC_BAD_CNT] s.dev).count .PORT_LC_BAD_CNT p.val 0
      (by simp)).updLink (f := fun l => { l with lcCount := 0 }) rfl
    have hact : s.dev.lcReserved p.val = (s.dev.count .PORT_LC_BAD_CNT p.val).updLink p.val fun l => { l with lcCount := 0 } := by
      simp [Dev.lcReserved, Dev.lcUse, hres, hcnt]
    rw [← hact] at hlink hlinks hregs hrest
    refine ⟨_, coreDone_of_coreUp _ s hcore, ?_, hlink, hregs, hlinks, hrest⟩
    rw [hact, Dev.updLink_rawF, Dev.count_rawF_same]

end Sys2Proof.Machine
end

section
/-! Link layer: a slot is received (03: R87, R100-R102, R110, R116, R131). -/

namespace Sys2Proof.Machine

/-! ### Operations on registers and the port -/

/-- b is a but for registers and what hardware did to them. -/
def RegsOnly (a b : Dev) : Prop := b = { a with regs := b.regs, hot := b.hot }

theorem RegsOnly.refl (a : Dev) : RegsOnly a a := rfl

theorem RegsOnly.trans {a b c : Dev} (h : RegsOnly a b) (k : RegsOnly b c) : RegsOnly a c := Eq.trans k (by rw [h])

theorem Dev.countN_regsOnly (d : Dev) (r : RegName) (i j n : Nat) : RegsOnly d (d.countN r i j n) := by
  apply Dev.ext_fields <;> simp

/-- The registers that count corrected symbols (R131). -/
def corrRegs : List RegName := [.PORT_FEC_CORR_CNT, .PORT_LANE_SYMERR_CNT]

/-- Corrected symbols are counted, and nothing else changes (R131). -/
theorem Dev.countCorr_regsOnly (d : Dev) (p : Nat) (corr : List Nat) :
    RegsOnly d (d.countCorr p corr) ∧ sameRegsBut corrRegs d (d.countCorr p corr) := by
  have hcount (e : Dev) (c : Prop) [Decidable c] (r : RegName) (i n : Nat) (hr : r ∈ corrRegs) :
      RegsOnly e (if c then e else e.countN r p i n) ∧ sameRegsBut corrRegs e (if c then e else e.countN r p i n) := by
    split
    · exact ⟨.refl e, sameRegsBut_refl _ e⟩
    · exact ⟨e.countN_regsOnly r p i n, sameRegsBut_setRawF e r 0 p i _ hr⟩
  have hfold (l : List Nat) (e : Dev) :
      RegsOnly e (l.foldl (fun d i => if at_ 0 corr i = 0 then d else d.countN .PORT_LANE_SYMERR_CNT p i (at_ 0 corr i)) e) ∧
      sameRegsBut corrRegs e
        (l.foldl (fun d i => if at_ 0 corr i = 0 then d else d.countN .PORT_LANE_SYMERR_CNT p i (at_ 0 corr i)) e) := by
    induction l generalizing e with
    | nil => exact ⟨.refl e, sameRegsBut_refl _ e⟩
    | cons i l ih =>
      obtain ⟨hone, honer⟩ := hcount e (at_ 0 corr i = 0) .PORT_LANE_SYMERR_CNT i (at_ 0 corr i) (by simp [corrRegs])
      obtain ⟨hrest, hrestr⟩ := ih (if at_ 0 corr i = 0 then e else e.countN .PORT_LANE_SYMERR_CNT p i (at_ 0 corr i))
      exact ⟨hone.trans hrest, sameRegsBut_trans honer hrestr⟩
  obtain ⟨hsum, hsumr⟩ := hcount d (corr.sum = 0) .PORT_FEC_CORR_CNT 0 corr.sum (by simp [corrRegs])
  obtain ⟨hlanes, hlanesr⟩ := hfold (List.range 5) (if corr.sum = 0 then d else d.countN .PORT_FEC_CORR_CNT p 0 corr.sum)
  exact ⟨hsum.trans hlanes, sameRegsBut_trans hsumr hlanesr⟩

/-! ### What a slot tells but for its flit (R87, R115-R117, R131) -/

/-- b is a but for ports, links and registers. -/
def PortLinkRegs (a b : Dev) : Prop := b = { a with ports := b.ports, links := b.links, regs := b.regs, hot := b.hot }

theorem PortLinkRegs.trans {a b c : Dev} (h : PortLinkRegs a b) (k : PortLinkRegs b c) : PortLinkRegs a c :=
  Eq.trans k (by rw [h])

theorem RegsOnly.portLinkRegs {a b : Dev} (h : RegsOnly a b) : PortLinkRegs a b := Eq.trans h (by rw [h])

theorem RegsOnly.link_eq {a b : Dev} (h : RegsOnly a b) (q : Nat) : b.link q = a.link q := by rw [h]; rfl

theorem RegsOnly.port_eq {a b : Dev} (h : RegsOnly a b) (q : Nat) : b.port q = a.port q := by rw [h]; rfl

/-- What noting a slot leaves, with no steer of the receive direction under way: of link p it changes the link-control
words only, of the registers the counts of corrected symbols. -/
structure Noted (p : Nat) (a b : Dev) : Prop where
  link : ∃ v n av an, b.link p = { a.link p with lcVal := v, lcCount := n, annVal := av, annCount := an }
  links : sameLinksBut p a b
  port : ∀ q, b.port q = a.port q
  regs : sameRegsBut corrRegs a b
  rest : PortLinkRegs a b

theorem Dev.lcNote_link (d : Dev) (p : Nat) (lc : Option (BitVec 16)) :
    ∃ v n, (d.lcNote p lc).link p = { d.link p with lcVal := v, lcCount := n } := by
  simp only [Dev.lcNote, Dev.updLink_link_same]
  split
  · exact ⟨_, _, rfl⟩
  · split <;> exact ⟨_, _, rfl⟩

theorem Dev.annNote_link (d : Dev) (p : Nat) (ops : List (BitVec 16)) :
    ∃ v n, (d.annNote p ops).link p = { d.link p with annVal := v, annCount := n } := by
  simp only [Dev.annNote, Dev.updLink_link_same]
  split <;> exact ⟨_, _, rfl⟩

/-- With no steer under way there is no countdown. -/
theorem Dev.steerTick_port (d : Dev) (p : Nat) (rx : Bool)
    (h : (if rx then (d.port p).rxSteer else (d.port p).txSteer) = none) (q : Nat) : (d.steerTick p rx).port q = d.port q := by
  have hsame (g : Steer → Steer) (y : PortSt) : (y.rxSteer = none → { y with rxSteer := y.rxSteer.map g } = y) ∧
      (y.txSteer = none → { y with txSteer := y.txSteer.map g } = y) := by
    cases y
    exact ⟨by rintro rfl; rfl, by rintro rfl; rfl⟩
  cases rx with
  | true =>
    simp only [Dev.steerTick, if_true, Dev.updPort_port]
    split
    next hq => rw [hq]; exact (hsame _ _).1 h
    next => rfl
  | false =>
    simp only [Dev.steerTick, Bool.false_eq_true, if_false, Dev.updPort_port]
    split
    next hq => rw [hq]; exact (hsame _ _).2 h
    next => rfl

@[simp] theorem Dev.lcNote_port (d : Dev) (p : Nat) (lc : Option (BitVec 16)) (q : Nat) :
    (d.lcNote p lc).port q = d.port q := rfl

@[simp] theorem Dev.annNote_port (d : Dev) (p : Nat) (ops : List (BitVec 16)) (q : Nat) :
    (d.annNote p ops).port q = d.port q := rfl

@[simp] theorem Dev.steerTick_link (d : Dev) (p : Nat) (rx : Bool) (q : Nat) : (d.steerTick p rx).link q = d.link q := by
  cases rx <;> rfl

theorem Dev.slotNote_noted (d : Dev) (p : Nat) (x : RxSlot) (ops : List (BitVec 16)) (h : (d.port p).rxSteer = none) :
    Noted p d (d.slotNote p x ops) := by
  obtain ⟨v, n, hlc⟩ := d.lcNote_link p (if x.aOk then some x.lc else none)
  obtain ⟨av, an, hann⟩ := Dev.annNote_link (d.lcNote p (if x.aOk then some x.lc else none)) p
    (if x.aOk then x.lc :: ops else ops)
  rw [hlc] at hann
  refine ⟨⟨v, n, av, an, ?_⟩, fun q hq => ?_, fun q => ?_, sameRegsBut_of_regs ?_, ?_⟩
  · rw [Dev.slotNote, Dev.steerTick_link, hann]
  · simp [Dev.slotNote, Dev.annNote, Dev.lcNote, Dev.updLink_link_other _ _ _ _ hq]
  · rw [Dev.slotNote, Dev.steerTick_port _ p true (by simpa using h), Dev.annNote_port, Dev.lcNote_port]
  · simp [Dev.slotNote, Dev.steerTick, Dev.annNote, Dev.lcNote]
  · apply Dev.ext_fields <;> simp [Dev.slotNote, Dev.steerTick, Dev.annNote, Dev.lcNote]

theorem Noted.countCorr {p : Nat} {a b : Dev} (h : Noted p a b) (corr : List Nat) : Noted p a (b.countCorr p corr) := by
  obtain ⟨hrest, hregs⟩ := b.countCorr_regsOnly p corr
  obtain ⟨v, n, av, an, hlink⟩ := h.link
  exact ⟨⟨v, n, av, an, (hrest.link_eq p).trans hlink⟩, fun q hq => (hrest.link_eq q).trans (h.links q hq),
    fun q => (hrest.port_eq q).trans (h.port q), sameRegsBut_trans h.regs hregs, h.rest.trans hrest.portLinkRegs⟩

/-! ### RX_SLOT of a whole slot (R101) -/

/-- The device before the flit of a whole slot x is looked at: descramblers moved on, and what the slot tells noted. -/
def Dev.slotHeard (d : Dev) (p : Nat) (sig : Signal) (x : RxSlot) : Dev :=
  (((d.updLink p fun l => { l with scrRx := (d.rxDecode p sig).2 }).updPort p fun y => { y with
    restriped := y.restriped && !x.aOk }).slotNote p x (spareOps (d.port p).rxMap sig)).countCorr p x.corr

/-- A whole slot on an ACTIVE link with no steer under way and no early flit goes to on_slot of R101. -/
theorem Dev.rxSlot_whole (d : Dev) (p : Nat) (sig : Signal) (hst : (d.link p).lstate = .active)
    (hsteer : (d.port p).rxSteer = none) (hearly : (d.link p).early = none) (hb : (d.rxDecode p sig).1.b ≠ .later) :
    d.rxSlot p sig = (d.slotHeard p sig (d.rxDecode p sig).1).rxBody p (d.rxDecode p sig).1 false := by
  simp [Dev.rxSlot, hst, hsteer, steerDue, hearly, hb, Dev.slotHeard]

/-- What hearing a slot leaves of the link: all but descramblers and link-control words; and of the device: all but port p,
link p and the counts of corrected symbols. -/
structure SlotHeard (p : Nat) (a b : Dev) : Prop where
  link : ∃ scr v n av an, b.link p = { a.link p with scrRx := scr, lcVal := v, lcCount := n, annVal := av, annCount := an }
  links : sameLinksBut p a b
  ports : samePortsBut p a b
  regs : sameRegsBut corrRegs a b
  rest : PortLinkRegs a b

theorem Dev.slotHeard_heard (d : Dev) (p : Nat) (sig : Signal) (x : RxSlot) (h : (d.port p).rxSteer = none) :
    SlotHeard p d (d.slotHeard p sig x) := by
  unfold Dev.slotHeard
  generalize he : Dev.updPort _ p _ = e
  have hlink : e.link p = { d.link p with scrRx := (d.rxDecode p sig).2 } := by simp [← he]
  have hlinks : sameLinksBut p d e := fun q hq => by simp [← he, Dev.updLink_link_other _ _ _ _ hq]
  have hports : samePortsBut p d e := fun q hq => by simp [← he, Dev.updPort_port_other _ _ _ _ hq]
  have hrest : PortLinkRegs d e := by rw [← he]; apply Dev.ext_fields <;> simp
  have hregs : sameRegsBut corrRegs d e := sameRegsBut_of_regs (by simp [← he])
  obtain ⟨⟨v, n, av, an, nlink⟩, nlinks, nport, nregs, nrest⟩ := (e.slotNote_noted p x (spareOps (d.port p).rxMap sig)
    (by simp [← he, h])).countCorr x.corr
  rw [hlink] at nlink
  exact ⟨⟨_, v, n, av, an, nlink⟩, fun q hq => (nlinks q hq).trans (hlinks q hq),
    fun q hq => (nport q).trans (hports q hq), sameRegsBut_trans hregs nregs, hrest.trans nrest⟩

/-! ### on_slot (R101, R102) -/

/-- A slot in error on a link with no NAK pending (R101, R102). -/
def Dev.slotLost (d : Dev) (p : Nat) : Dev :=
  (((d.count .PORT_FEC_UNCORR_CNT p).linkErr).updLink p fun l => { l with
    nakPending := true, nakDue := some l.rxExpect }).count .PORT_NAK_TX_CNT p

/-- A codeword that fails (R101). -/
theorem Dev.rxBody_lost (d : Dev) (p : Nat) (x : RxSlot) (early : Bool) (hx : x.aOk = false ∨ x.b ≠ .ok)
    (hpend : (d.link p).nakPending = false) : d.rxBody p x early = d.slotLost p := by
  have hbad : (x.aOk && x.b == .ok) = false := by rcases hx with h | h <;> simp [h]
  simp [Dev.rxBody, hbad, Dev.slotError, Dev.linkErr, Dev.fltSet, hpend, Dev.slotLost]

theorem Dev.linkErr_rawF_ne (d : Dev) (r : RegName) (fn i j : Nat) (h : r ≠ .FLT_STATUS) (hc : r ≠ .FLT_LINK_ERR_CNT) :
    d.linkErr.rawF r fn i j = d.rawF r fn i j := by
  rw [Dev.linkErr, Dev.count_rawF_ne _ _ _ _ _ _ _ _ hc, Dev.fltSet, Dev.flagOr_rawF_ne _ _ _ _ _ _ _ _ _ h]

theorem Dev.linkErr_flag (d : Dev) : d.linkErr.fd F.FLT_STATUS_LINK_ERR = 1 := by
  have hset := d.flagOr_bit_same .FLT_STATUS F.FLT_STATUS_LINK_ERR.lo 0 0 (by decide)
  rw [Dev.bit, beq_iff_eq] at hset
  rw [Dev.linkErr, Dev.fd, Dev.fdF, Dev.count_rawF_ne _ _ _ _ _ _ _ _ (by decide)]
  exact hset

/-- The registers that a lost slot changes (R131; 17: R614, R616). -/
def lostRegs : List RegName := [.PORT_FEC_UNCORR_CNT, .PORT_NAK_TX_CNT, .FLT_STATUS, .FLT_LINK_ERR_CNT]

/-- What a lost slot does: one NAK due, two counts, the fault flag, and nothing else. -/
theorem Dev.slotLost_spec (d : Dev) (p : Nat) :
    (d.slotLost p).link p = { d.link p with nakPending := true, nakDue := some (d.link p).rxExpect } ∧
      sameLinksBut p d (d.slotLost p) ∧
      (d.slotLost p).rawF .PORT_FEC_UNCORR_CNT 0 p 0 = up1 (d.rawF .PORT_FEC_UNCORR_CNT 0 p 0) ∧
      (d.slotLost p).rawF .PORT_NAK_TX_CNT 0 p 0 = up1 (d.rawF .PORT_NAK_TX_CNT 0 p 0) ∧
      (d.slotLost p).fd F.FLT_STATUS_LINK_ERR = 1 ∧ sameRegsBut lostRegs d (d.slotLost p) ∧
      (d.slotLost p).ports = d.ports ∧
      d.slotLost p = { d with
        links := (d.slotLost p).links, regs := (d.slotLost p).regs, hot := (d.slotLost p).hot } := by
  refine ⟨?_, fun q hq => ?_, ?_, ?_, ?_, fun r fn i j hr => ?_, ?_, ?_⟩
  · simp [Dev.slotLost, Dev.linkErr, Dev.fltSet]
  · simp [Dev.slotLost, Dev.linkErr, Dev.fltSet, Dev.updLink_link_other _ _ _ _ hq]
  · rw [Dev.slotLost, Dev.count_rawF_ne _ _ _ _ _ _ _ _ (by decide), Dev.updLink_rawF,
      Dev.linkErr_rawF_ne _ _ _ _ _ (by decide) (by decide), Dev.count_rawF_same]
  · rw [Dev.slotLost, Dev.count_rawF_same, Dev.updLink_rawF, Dev.linkErr_rawF_ne _ _ _ _ _ (by decide) (by decide),
      Dev.count_rawF_ne _ _ _ _ _ _ _ _ (by decide)]
  · rw [Dev.slotLost, Dev.fd, Dev.fdF, Dev.count_rawF_ne _ _ _ _ _ _ _ _ (by decide), Dev.updLink_rawF]
    exact (Dev.count d .PORT_FEC_UNCORR_CNT p).linkErr_flag
  · simp only [lostRegs, List.mem_cons, List.not_mem_nil, or_false, not_or] at hr
    obtain ⟨hfec, hnak, hflt, herr⟩ := hr
    rw [Dev.slotLost, Dev.count_rawF_ne _ _ _ _ _ _ _ _ hnak, Dev.updLink_rawF, Dev.linkErr_rawF_ne _ _ _ _ _ hflt herr,
      Dev.count_rawF_ne _ _ _ _ _ _ _ _ hfec]
  · simp [Dev.slotLost, Dev.linkErr, Dev.fltSet]
  · apply Dev.ext_fields <;> simp [Dev.slotLost, Dev.linkErr, Dev.fltSet]

/-- No HCRC is its own complement, so a good slot did not come stomped (R113). -/
theorem hcrc_ne_stomped (c : BitVec 32) : (c == c ^^^ 0xFFFFFFFF#32) = false := by
  rw [beq_eq_false_iff_ne]
  intro h
  have hbit := congrArg (BitVec.getLsbD · 0) h
  simp at hbit

/-- The expected LSEQ is accepted (R101). -/
def Dev.seqTaken (d : Dev) (p seq : Nat) : Dev :=
  d.updLink p fun l => { l with
    rxExpect := (l.rxExpect + 1) % 4096, nakPending := false, gotRx := true
    rxHigh := if behind 4096 l.rxHigh (seq + 1) then (seq + 1) % 4096 else l.rxHigh }

/-- A LACK that acknowledges nothing new (R100). -/
theorem Dev.takeLack_nothing (d : Dev) (p : Nat) (f : Flit)
    (h : subMod 4096 (f.lack.toNat + 1) (subMod 4096 (d.link p).txNext (d.link p).replayList.length) = 0) :
    d.takeLack p f = (false, d) := by
  simp [Dev.takeLack, h]

/-- A good slot that acknowledges nothing new, by its LSEQ (R101): the expected one is accepted, one behind is a
duplicate. -/
theorem Dev.rxBody_good (d : Dev) (p : Nat) (x : RxSlot) (early : Bool) (haOk : x.aOk = true) (hb : x.b = .ok)
    (hcrc : x.flit.hcrc = hcrcOf x.flit)
    (hlack : subMod 4096 (x.flit.lack.toNat + 1) (subMod 4096 (d.link p).txNext (d.link p).replayList.length) = 0)
    (hst : (d.link p).lstate = .active) :
    (x.flit.lseq.toNat = (d.link p).rxExpect → d.rxBody p x early =
      (let t := ((d.linkSettle p).seqTaken p x.flit.lseq.toNat).takeCredit p x.flit
       (if early then t.2 else t.2.checkDeliver p x.flit t.1 false
          ((d.link p).nakPending || behind 4096 x.flit.lseq.toNat (d.link p).rxHigh) false).linkSettle p)) ∧
    (x.flit.lseq.toNat ≠ (d.link p).rxExpect → behind 4096 x.flit.lseq.toNat (d.link p).rxExpect = true →
      d.rxBody p x early = ((d.linkSettle p).updLink p fun l => { l with
        rxHigh := if behind 4096 l.rxHigh (x.flit.lseq.toNat + 1) then (x.flit.lseq.toNat + 1) % 4096 else l.rxHigh }).count
          .PORT_DUP_CNT p) := by
  have hstomp := hcrc_ne_stomped (hcrcOf x.flit)
  have hsettled : (d.linkSettle p).link p = d.link p := by simp [Dev.linkSettle, hst]
  refine ⟨fun hseq => ?_, fun hseq hbehind => ?_⟩
  · simp [Dev.rxBody, haOk, hb, hcrc, hstomp, d.takeLack_nothing p x.flit hlack, hsettled, ← hseq, Dev.seqTaken]
  · simp [Dev.rxBody, haOk, hb, hcrc, hstomp, d.takeLack_nothing p x.flit hlack, hsettled, hseq, hbehind]

/-- A flit that takes its credit and its cell and waits for binding (R101, R183). -/
def Dev.flitDelivered (d : Dev) (p : Nat) (f : Flit) (replayed : Bool) : Dev :=
  ((d.updLink p fun l => { l with outst := updAt l.outst f.vl.toNat (· - 1) }).updCore fun c => { c with
      free := c.free - 1, backed := c.backed - 1 }).updLink p fun l => { l with
    rx := l.rx ++ [{ flit := f, replayed := replayed, early := false, time := d.fabricTime, age := d.cycle, extra := [] }] }

/-- A flit that breaks no rule, with a credit outstanding, on a port whose fence passes it (R101, R591). -/
theorem Dev.checkDeliver_delivers (d : Dev) (p : Nat) (f : Flit) (replayed : Bool) (hviol : flitViolation f = none)
    (htype : f.type ≠ 0) (hcred : 0 < at_ 0 (d.link p).outst f.vl.toNat)
    (hfence : fencePasses (d.fd F.FLT_FENCE_LEVEL p) f = true) :
    d.checkDeliver p f false false replayed false = d.flitDelivered p f replayed := by
  have hidle : ¬f.type = 0#4 := htype
  have hout : (at_ 0 (d.link p).outst f.vl.toNat == 0) = false := by
    rw [beq_eq_false_iff_ne]; omega
  simp [Dev.checkDeliver, hviol, hidle, hout, idleNonzero, hfence, Dev.flitDelivered, Dev.fabricTime]

/-- The expected flit accepted, its credits taken, and delivered, on a link that is ACTIVE (R101, R110). -/
def Dev.flitAccepted (d : Dev) (p : Nat) (f : Flit) (replayed : Bool) : Dev :=
  ((((d.linkSettle p).seqTaken p f.lseq.toNat).takeCredit p f).2.flitDelivered p f replayed).linkSettle p

theorem Dev.flitAccepted_spec (d : Dev) (p : Nat) (f : Flit) (replayed : Bool) (hst : (d.link p).lstate = .active)
    (hcred : at_ 0 (d.link p).avail f.cvl.toNat + f.cred.toNat ≤ 4095) :
    ((d.flitAccepted p f replayed).link p).rx = (d.link p).rx ++ [{
        flit := f, replayed := replayed, early := false, time := d.fabricTime, age := d.cycle, extra := [] }] ∧
      ((d.flitAccepted p f replayed).link p).rxExpect = ((d.link p).rxExpect + 1) % 4096 ∧
      ((d.flitAccepted p f replayed).link p).nakPending = false ∧
      ((d.flitAccepted p f replayed).link p).avail =
        updAt (d.link p).avail f.cvl.toNat (fun _ => at_ 0 (d.link p).avail f.cvl.toNat + f.cred.toNat) ∧
      ((d.flitAccepted p f replayed).link p).outst = updAt (d.link p).outst f.vl.toNat (· - 1) ∧
      ((d.flitAccepted p f replayed).link p).lstate = .active ∧
      (d.flitAccepted p f replayed).core = { d.core with free := d.core.free - 1, backed := d.core.backed - 1 } ∧
      sameLinksBut p d (d.flitAccepted p f replayed) ∧ (d.flitAccepted p f replayed).regs = d.regs ∧
      d.flitAccepted p f replayed = { d with
        links := (d.flitAccepted p f replayed).links, core := (d.flitAccepted p f replayed).core } := by
  refine ⟨?_, ?_, ?_, ?_, ?_, ?_, ?_, fun q hq => ?_, ?_, ?_⟩
  iterate 6
    simp [Dev.flitAccepted, Dev.flitDelivered, Dev.takeCredit, Dev.seqTaken, Dev.linkSettle, hst, Dev.fabricTime,
      Nat.min_eq_right hcred]
  · simp [Dev.flitAccepted, Dev.flitDelivered, Dev.takeCredit, Dev.seqTaken, Dev.linkSettle]
  · simp [Dev.flitAccepted, Dev.flitDelivered, Dev.takeCredit, Dev.seqTaken, Dev.linkSettle,
      Dev.updLink_link_other _ _ _ _ hq]
  · simp [Dev.flitAccepted, Dev.flitDelivered, Dev.takeCredit, Dev.seqTaken, Dev.linkSettle]
  · apply Dev.ext_fields <;> simp [Dev.flitAccepted, Dev.flitDelivered, Dev.takeCredit, Dev.seqTaken, Dev.linkSettle]

/-! ### RX_SLOT: what becomes of a whole slot -/

/-- After hearing a slot and then a step that leaves ports, core and all but links and registers, the device is as before
but for ports, links and registers. -/
theorem SlotHeard.rest_linkRegs {p : Nat} {a b c : Dev} (h : SlotHeard p a b)
    (k : c = { b with links := c.links, regs := c.regs, hot := c.hot }) : PortLinkRegs a c :=
  h.rest.trans (Eq.trans k (by rw [k]))

/-- A slot in error (R101, R102). -/
theorem Dev.rxSlot_lost (d : Dev) (p : Nat) (sig : Signal) (hst : (d.link p).lstate = .active)
    (hsteer : (d.port p).rxSteer = none) (hearly : (d.link p).early = none)
    (hbad : (d.rxDecode p sig).1.aOk = false ∨ (d.rxDecode p sig).1.b = .bad) (hb : (d.rxDecode p sig).1.b ≠ .later)
    (hpend : (d.link p).nakPending = false) :
    ((d.rxSlot p sig).link p).nakPending = true ∧ ((d.rxSlot p sig).link p).nakDue = some (d.link p).rxExpect ∧
      ((d.rxSlot p sig).link p).rx = (d.link p).rx ∧ ((d.rxSlot p sig).link p).rxExpect = (d.link p).rxExpect ∧
      (d.rxSlot p sig).rawF .PORT_FEC_UNCORR_CNT 0 p 0 = up1 (d.rawF .PORT_FEC_UNCORR_CNT 0 p 0) ∧
      (d.rxSlot p sig).rawF .PORT_NAK_TX_CNT 0 p 0 = up1 (d.rawF .PORT_NAK_TX_CNT 0 p 0) ∧
      (d.rxSlot p sig).fd F.FLT_STATUS_LINK_ERR = 1 ∧ sameRegsBut (corrRegs ++ lostRegs) d (d.rxSlot p sig) ∧
      samePortsBut p d (d.rxSlot p sig) ∧ sameLinksBut p d (d.rxSlot p sig) ∧ PortLinkRegs d (d.rxSlot p sig) := by
  have heard := d.slotHeard_heard p sig (d.rxDecode p sig).1 hsteer
  rw [d.rxSlot_whole p sig hst hsteer hearly hb]
  generalize d.slotHeard p sig (d.rxDecode p sig).1 = e at heard ⊢
  obtain ⟨scr, v, n, av, an, hlink⟩ := heard.link
  rw [e.rxBody_lost p _ false (hbad.imp id fun h => by simp [h]) (by rw [hlink]; exact hpend)]
  obtain ⟨llink, llinks, hfec, hnak, hflag, lregs, lports, lrest⟩ := e.slotLost_spec p
  refine ⟨by rw [llink], by rw [llink, hlink], by rw [llink, hlink], by rw [llink, hlink], ?_, ?_, hflag, ?_,
    fun q hq => ?_, fun q hq => (llinks q hq).trans (heard.links q hq), heard.rest_linkRegs lrest⟩
  · rw [hfec, heard.regs _ _ _ _ (by decide)]
  · rw [hnak, heard.regs _ _ _ _ (by decide)]
  · exact sameRegsBut_trans (sameRegsBut_mono heard.regs fun r hr => List.mem_append_left _ hr)
      (sameRegsBut_mono lregs fun r hr => List.mem_append_right _ hr)
  · simpa only [Dev.port, lports] using heard.ports q hq

/-- The expected flit is delivered (R101). -/
theorem Dev.rxSlot_accepts (d : Dev) (p : Nat) (sig : Signal) (f : Flit) (hst : (d.link p).lstate = .active)
    (hsteer : (d.port p).rxSteer = none) (hearly : (d.link p).early = none) (hf : (d.rxDecode p sig).1.flit = f)
    (haOk : (d.rxDecode p sig).1.aOk = true) (hb : (d.rxDecode p sig).1.b = .ok) (hcrc : f.hcrc = hcrcOf f)
    (hlack : subMod 4096 (f.lack.toNat + 1) (subMod 4096 (d.link p).txNext (d.link p).replayList.length) = 0)
    (hseq : f.lseq.toNat = (d.link p).rxExpect) (hviol : flitViolation f = none) (htype : f.type ≠ 0)
    (hout : 0 < at_ 0 (d.link p).outst f.vl.toNat)
    (hcred : at_ 0 (d.link p).avail f.cvl.toNat + f.cred.toNat ≤ 4095)
    (hfence : fencePasses (d.fd F.FLT_FENCE_LEVEL p) f = true) :
    ((d.rxSlot p sig).link p).rx = (d.link p).rx ++ [{
        flit := f, replayed := (d.link p).nakPending || behind 4096 f.lseq.toNat (d.link p).rxHigh, early := false
        time := d.fabricTime, age := d.cycle, extra := [] }] ∧
      ((d.rxSlot p sig).link p).rxExpect = ((d.link p).rxExpect + 1) % 4096 ∧
      ((d.rxSlot p sig).link p).nakPending = false ∧
      ((d.rxSlot p sig).link p).avail =
        updAt (d.link p).avail f.cvl.toNat (fun _ => at_ 0 (d.link p).avail f.cvl.toNat + f.cred.toNat) ∧
      ((d.rxSlot p sig).link p).outst = updAt (d.link p).outst f.vl.toNat (· - 1) ∧
      ((d.rxSlot p sig).link p).lstate = .active ∧
      (d.rxSlot p sig).core = { d.core with free := d.core.free - 1, backed := d.core.backed - 1 } ∧
      samePortsBut p d (d.rxSlot p sig) ∧ sameLinksBut p d (d.rxSlot p sig) ∧ sameRegsBut corrRegs d (d.rxSlot p sig) ∧
      d.rxSlot p sig = { d with
        ports := (d.rxSlot p sig).ports, links := (d.rxSlot p sig).links, core := (d.rxSlot p sig).core
        regs := (d.rxSlot p sig).regs, hot := (d.rxSlot p sig).hot } := by
  subst hf
  have heard := d.slotHeard_heard p sig (d.rxDecode p sig).1 hsteer
  rw [d.rxSlot_whole p sig hst hsteer hearly (by simp [hb])]
  generalize d.slotHeard p sig (d.rxDecode p sig).1 = e at heard ⊢
  generalize (d.rxDecode p sig).1 = x at *
  obtain ⟨scr, v, n, av, an, hlink⟩ := heard.link
  have hact : e.rxBody p x false = e.flitAccepted p x.flit
      ((e.link p).nakPending || behind 4096 x.flit.lseq.toNat (e.link p).rxHigh) := by
    rw [(e.rxBody_good p x false haOk hb hcrc (by simpa only [hlink] using hlack) (by simpa only [hlink] using hst)).1
      (by simpa only [hlink] using hseq)]
    have hovr : (((e.linkSettle p).seqTaken p x.flit.lseq.toNat).takeCredit p x.flit).1 = false := by
      simpa [Dev.takeCredit, Dev.seqTaken, Dev.linkSettle, hlink, hst] using hcred
    simp only [hovr, Bool.false_eq_true, if_false]
    rw [Dev.checkDeliver_delivers _ p x.flit _ hviol htype]
    · rfl
    · simpa [Dev.takeCredit, Dev.seqTaken, Dev.linkSettle, hlink, hst] using hout
    · have hfd : e.fd F.FLT_FENCE_LEVEL p = d.fd F.FLT_FENCE_LEVEL p := heard.regs.fd_eq _ _ _ (by decide)
      simpa [Dev.takeCredit, Dev.seqTaken, Dev.linkSettle, hfd] using hfence
  obtain ⟨hrx, hexp, hpend, havail, houtst, hlst, hcore, hlinks, hregs, hrest⟩ := e.flitAccepted_spec p x.flit
    ((e.link p).nakPending || behind 4096 x.flit.lseq.toNat (e.link p).rxHigh) (by simpa only [hlink] using hst)
    (by simpa only [hlink] using hcred)
  rw [hact]
  generalize e.flitAccepted p x.flit _ = g at *
  have hecore : e.core = d.core := by rw [heard.rest]
  have hetime : e.fabricTime = d.fabricTime := by rw [heard.rest]; rfl
  have hecycle : e.cycle = d.cycle := by rw [heard.rest]
  simp only [hlink, hetime, hecycle] at hrx hexp havail houtst
  rw [hecore] at hcore
  refine ⟨hrx, hexp, hpend, havail, houtst, hlst, hcore, fun q hq => ?_, fun q hq => (hlinks q hq).trans (heard.links q hq),
    sameRegsBut_trans heard.regs (sameRegsBut_of_regs hregs), ?_⟩
  · rw [hrest]; exact heard.ports q hq
  · exact Eq.trans hrest (by rw [hrest, heard.rest])

/-- A duplicate is counted (R101). -/
theorem Dev.rxSlot_duplicate (d : Dev) (p : Nat) (sig : Signal) (f : Flit) (hst : (d.link p).lstate = .active)
    (hsteer : (d.port p).rxSteer = none) (hearly : (d.link p).early = none) (hf : (d.rxDecode p sig).1.flit = f)
    (haOk : (d.rxDecode p sig).1.aOk = true) (hb : (d.rxDecode p sig).1.b = .ok) (hcrc : f.hcrc = hcrcOf f)
    (hlack : subMod 4096 (f.lack.toNat + 1) (subMod 4096 (d.link p).txNext (d.link p).replayList.length) = 0)
    (hseq : f.lseq.toNat ≠ (d.link p).rxExpect) (hbehind : behind 4096 f.lseq.toNat (d.link p).rxExpect = true) :
    (d.rxSlot p sig).rawF .PORT_DUP_CNT 0 p 0 = up1 (d.rawF .PORT_DUP_CNT 0 p 0) ∧
      ((d.rxSlot p sig).link p).rx = (d.link p).rx ∧ ((d.rxSlot p sig).link p).rxExpect = (d.link p).rxExpect ∧
      ((d.rxSlot p sig).link p).nakPending = (d.link p).nakPending ∧
      ((d.rxSlot p sig).link p).avail = (d.link p).avail ∧ samePortsBut p d (d.rxSlot p sig) ∧
      sameLinksBut p d (d.rxSlot p sig) ∧ sameRegsBut (corrRegs ++ [.PORT_DUP_CNT]) d (d.rxSlot p sig) ∧
      PortLinkRegs d (d.rxSlot p sig) := by
  subst hf
  have heard := d.slotHeard_heard p sig (d.rxDecode p sig).1 hsteer
  rw [d.rxSlot_whole p sig hst hsteer hearly (by simp [hb])]
  generalize d.slotHeard p sig (d.rxDecode p sig).1 = e at heard ⊢
  generalize (d.rxDecode p sig).1 = x at *
  obtain ⟨scr, v, n, av, an, hlink⟩ := heard.link
  rw [(e.rxBody_good p x false haOk hb hcrc (by simpa only [hlink] using hlack) (by simpa only [hlink] using hst)).2
      (by simpa only [hlink] using hseq) (by simpa only [hlink] using hbehind)]
  refine ⟨?_, ?_, ?_, ?_, ?_, fun q hq => ?_, fun q hq => ?_, ?_, ?_⟩
  · rw [Dev.count_rawF_same, Dev.updLink_rawF, Dev.linkSettle_rawF, heard.regs _ _ _ _ (by decide)]
  iterate 4 simp [Dev.linkSettle, hlink, hst]
  · simpa [Dev.linkSettle] using heard.ports q hq
  · simpa [Dev.linkSettle, Dev.updLink_link_other _ _ _ _ hq] using heard.links q hq
  · refine sameRegsBut_trans (sameRegsBut_trans (sameRegsBut_mono heard.regs fun r hr => List.mem_append_left _ hr)
      (sameRegsBut_of_regs ?_)) (sameRegsBut_count _ .PORT_DUP_CNT p 0 (by simp))
    simp [Dev.linkSettle]
  · exact heard.rest_linkRegs (by apply Dev.ext_fields <;> simp [Dev.linkSettle])

end Sys2Proof.Machine
end

section
/-! Link layer: a boundary sends (03: R87, R88, R100, R104, R106, R118, R120, R125). -/

namespace Sys2Proof.Machine

/-! ### Sending steps -/

/-- From a to b the outputs os go out, link p has become l, and all else is as before. -/
structure Sends (p : Nat) (l : LinkSt) (os : List Output) (a b : Dev) : Prop where
  out : b.out = a.out ++ os
  link : b.link p = l
  links : sameLinksBut p a b
  rest : b = { a with links := b.links, out := b.out }

theorem Sends.refl (p : Nat) (a : Dev) : Sends p (a.link p) [] a a :=
  ⟨(List.append_nil _).symm, rfl, fun _ _ => rfl, rfl⟩

theorem Sends.trans {p : Nat} {l l' : LinkSt} {os os' : List Output} {a b c : Dev} (h : Sends p l os a b)
    (k : Sends p l' os' b c) : Sends p l' (os ++ os') a c :=
  ⟨by rw [k.out, h.out, List.append_assoc], k.link, fun q hq => (k.links q hq).trans (h.links q hq),
    Eq.trans k.rest (by rw [h.rest])⟩

theorem Sends.emit {p : Nat} {l : LinkSt} {os : List Output} {a b : Dev} (h : Sends p l os a b) (o : Output) :
    Sends p l (os ++ [o]) a (b.emit o) :=
  h.trans ⟨b.emit_out o, (b.emit_link_at o p).trans h.link, fun q _ => b.emit_link_at o q, rfl⟩

theorem Sends.updLink {p : Nat} {l l' : LinkSt} {os : List Output} {a b : Dev} (h : Sends p l os a b)
    {f : LinkSt → LinkSt} (hl : f l = l') : Sends p l' os a (b.updLink p f) := by
  have hstep : Sends p l' [] b (b.updLink p f) :=
    ⟨(List.append_nil _).symm, by rw [Dev.updLink_link_same, h.link, hl], b.sameLinksBut_updLink p f, rfl⟩
  simpa using h.trans hstep

theorem Sends.port_eq {p : Nat} {l : LinkSt} {os : List Output} {a b : Dev} (h : Sends p l os a b) (q : Nat) :
    b.port q = a.port q := by
  rw [h.rest]
  rfl

theorem Sends.linkSettle {p : Nat} {l : LinkSt} {os : List Output} {a b : Dev} (h : Sends p l os a b) :
    Sends p (if l.lstate == .init && l.gotRx && l.gotAck then { l with lstate := .active, keep := true }
      else if l.lstate == .replay && l.cursor.isNone then { l with lstate := .active } else l) os a (b.linkSettle p) := by
  unfold Dev.linkSettle
  exact h.updLink rfl

/-- A link after a marker (R87, R88). -/
def LinkSt.marked (l : LinkSt) : LinkSt :=
  { l with mcountTx := (l.mcountTx + 1) % 65536, scrTx := (List.range 4).map scrSeed, blkTx := 0 }

theorem Dev.sendMarker_sends (d : Dev) (p w : Nat) (map : BitVec 12) (rstr : Bool) (on : Nat → Bool) :
    Sends p (d.link p).marked [.markers p (markerSignal w map (d.link p).mcountTx rstr on)] d
      (d.sendMarker p w map rstr on) := by
  unfold Dev.sendMarker
  exact ((Sends.refl p d).emit _).updLink rfl

/-- What goes before a slot sent at width w on a map, the scramblers that it finds, and the blocks and markers counted
so far: a marker when 6,472 data blocks have gone (R87, R88). -/
def slotStart (p w : Nat) (map : BitVec 12) (l : LinkSt) (pre : List Output) (scr : List Nat) (n m : Nat) : Prop :=
  (l.blkTx < 6472 ∧ pre = [] ∧ scr = l.scrTx ∧ n = l.blkTx ∧ m = l.mcountTx) ∨
    (6472 ≤ l.blkTx ∧ pre = [.markers p (markerSignal w map l.mcountTx false fun _ => true)] ∧
      scr = (List.range 4).map scrSeed ∧ n = 0 ∧ m = (l.mcountTx + 1) % 65536)

theorem Dev.sendOn_sends (d : Dev) (p w : Nat) (map : BitVec 12) (lc : BitVec 16) (f : Flit) {pre : List Output}
    {scr : List Nat} {n m : Nat} (hstart : slotStart p w map (d.link p) pre scr n m)
    (hspare : (d.port p).spareOp = 0) :
    Sends p { d.link p with scrTx := (slotSignal w map scr lc 0 f).2, blkTx := n + 4 / w, mcountTx := m }
      (pre ++ [.flitTx p lc f (slotSignal w map scr lc 0 f).1]) d (d.sendOn p w map lc f) := by
  obtain ⟨hblk, rfl, rfl, rfl, rfl⟩ | ⟨hblk, rfl, rfl, rfl, rfl⟩ := hstart
  · rw [Dev.sendOn, if_neg (by omega), hspare]
    exact ((Sends.refl p d).emit _).updLink rfl
  · have hmark := d.sendMarker_sends p w map false fun _ => true
    rw [Dev.sendOn, if_pos hblk, hmark.port_eq, hspare, hmark.link]
    exact (hmark.emit _).updLink rfl

/-- With no steer under way spare idle blocks carry NOP (R91). -/
theorem PortSt.spareOp_none {x : PortSt} (h : x.txSteer = none) : x.spareOp = 0 := by
  simp [PortSt.spareOp, h]

/-! ### The boundary of a link that carries flits (R100-R108) -/

/-- A boundary of a port UP or DEGRADED that does not doze. -/
theorem Dev.txBoundary_flits (d : Dev) (p : Nat) (hup : portUp (d.port p).state = true)
    (hst : (d.link p).lstate ≠ .doze) : d.txBoundary p = d.txSlot p := by
  cases h : (d.port p).state <;> simp_all [Dev.txBoundary, portUp]

/-- A boundary of a port in RESTRIPE with nothing left to announce (R118). -/
theorem Dev.txBoundary_restripe (d : Dev) (p : Nat) (r : Restripe) (hst : (d.port p).state = .restripe)
    (hr : (d.port p).restripe = some r) (hann : r.announce = []) :
    d.txBoundary p = d.sendMarker p r.width (laneMap (d.port p).txFail (d.port p).spareEn r.width) true fun i =>
      (goodWaves (d.port p).txFail (d.port p).spareEn).contains i := by
  simp [Dev.txBoundary, hst, Dev.txRestripe, hr, hann]

/-- A boundary of a dozing port that relocks (R125). -/
theorem Dev.txBoundary_relock (d : Dev) (p : Nat) (hup : portUp (d.port p).state = true) (hst : (d.link p).lstate = .doze)
    (hwake : (d.link p).waking = true) :
    d.txBoundary p = d.sendMarker p (d.port p).width (d.port p).txMap false fun _ => true := by
  cases h : (d.port p).state <;> simp_all [Dev.txBoundary, portUp, Dev.sendMarkers]

/-- With no steer that switches now and no DOZE_ACK gone, a boundary is the flit's. -/
theorem Dev.txSlot_of_txFlit (d : Dev) (p : Nat) (hst : (d.link p).lstate = .active ∨ (d.link p).lstate = .replay)
    (hsteer : (d.port p).txSteer = none) (hack : ((d.txFlit p).link p).dozeAck = (d.link p).dozeAck) :
    d.txSlot p = d.txFlit p := by
  have hstay : ((d.link p).dozeAck = 1 && (d.link p).dozeAck = 0 : Bool) = false := by
    rw [Bool.and_eq_false_iff, decide_eq_false_iff_not, decide_eq_false_iff_not]; omega
  rcases hst with h | h <;> simp [Dev.txSlot, h, hsteer, steerDue, hack, hstay]

/-- With no credits due a slot carries none. -/
theorem Dev.creditDue_none (d : Dev) (p : Nat)
    (h : ∀ v, v < 8 → at_ 0 (d.link p).initDue v = 0 ∧ at_ 0 (d.link p).due v = 0) : d.creditDue p = (0, 0, d) := by
  have hinit : ((List.range 8).find? fun v => decide (0 < at_ 0 (d.link p).initDue v)) = none := by
    simpa [List.find?_eq_none] using fun v hv => (h v hv).1
  have hdue : ((List.range 8).find? fun v => decide (0 < at_ 0 (d.link p).due v)) = none := by
    simpa [List.find?_eq_none] using fun v hv => (h v hv).2
  simp [Dev.creditDue, hinit, hdue]

theorem Dev.takeS2_none (d : Dev) (p : Nat) (h : d.s2Of p = []) : d.takeS2 p = d := by
  simp [Dev.takeS2, h]

/-- With nothing to replay and no flit selected that has a credit, an idle flit goes (R100, R110). -/
theorem Dev.txFlit_idle (d : Dev) (p : Nat) (hcur : (d.link p).cursor = none) (hlen : (d.link p).replayList.length < 2048)
    (hs2 : d.s2Of p = []) (hsel : ∀ c, (d.link p).txSel.head? = some c → at_ 0 (d.link p).avail c.cell.flit.vl.toNat = 0)
    (hlc : d.lcDue p = (0, d)) (hcred : d.creditDue p = (0, 0, d)) :
    d.txFlit p = (d.sendIdle p 0 0 0).steerTick p false := by
  have hnone : ((d.link p).txSel.head?.filter fun s => decide (0 < at_ 0 (d.link p).avail s.cell.flit.vl.toNat)) = none := by
    rw [Option.filter_eq_none_iff]
    intro c hc
    simp [hsel c hc]
  simp [Dev.txFlit, hcur, Nat.not_le.mpr hlen, d.takeS2_none p hs2, hnone, hlc, hcred]

/-- A flit selected that has a credit and is whole goes (R100, R110). -/
theorem Dev.txFlit_new (d : Dev) (p : Nat) (c : TxSel) (rest : List TxSel) (hcur : (d.link p).cursor = none)
    (hlen : (d.link p).replayList.length < 2048) (hs2 : d.s2Of p = []) (hsel : (d.link p).txSel = c :: rest)
    (havail : 0 < at_ 0 (d.link p).avail c.cell.flit.vl.toNat) (hearly : c.cell.early = false)
    (hlc : d.lcDue p = (0, d)) (hcred : d.creditDue p = (0, 0, d)) :
    d.txFlit p = (d.sendNew p c 0 0 0).steerTick p false := by
  simp [Dev.txFlit, hcur, Nat.not_le.mpr hlen, d.takeS2_none p hs2, hsel, Option.filter_some, havail, hearly, hlc, hcred]

/-- A countdown is the port's, not the link's. -/
theorem Dev.steerTick_updLink (d : Dev) (p : Nat) (rx : Bool) (f : LinkSt → LinkSt) :
    (d.steerTick p rx).updLink p f = (d.updLink p f).steerTick p rx := by
  cases rx <;> rfl

/-- In a replay the flit at the cursor goes again (R106). -/
theorem Dev.txFlit_replay (d : Dev) (p i : Nat) (t : SentFlit) (hcur : (d.link p).cursor = some i)
    (ht : (d.link p).replayList[i]? = some t) (hlc : d.lcDue p = (0, d)) :
    d.txFlit p = (((d.resendFlit p (d.port p).width (d.port p).txMap 0 t).updLink p fun l => { l with
      cursor := if i + 1 < l.replayList.length then some (i + 1) else none }).linkSettle p).steerTick p false := by
  simp [Dev.txFlit, hcur, ht, hlc, Dev.linkSettle, Dev.steerTick_updLink]

/-! ### What goes out -/

/-- An idle flit, new (R100, R108). -/
theorem Dev.sendIdle_sends (d : Dev) (p : Nat) (lc : BitVec 16) (cvl cred : Nat) (f : Flit) {pre : List Output}
    {scr : List Nat} {n m : Nat} (hf : f = withHop Flit.idle (d.link p).txNext (d.link p).lack cred cvl false)
    (hstart : slotStart p (d.port p).width (d.port p).txMap (d.link p) pre scr n m) (hsteer : (d.port p).txSteer = none) :
    Sends p { d.link p with
        txNext := ((d.link p).txNext + 1) % 4096
        replayList := (d.link p).replayList ++ [{ flit := f, stomped := false, cell := none }]
        scrTx := (slotSignal (d.port p).width (d.port p).txMap scr lc 0 f).2, blkTx := n + 4 / (d.port p).width
        mcountTx := m }
      (pre ++ [.flitTx p lc f (slotSignal (d.port p).width (d.port p).txMap scr lc 0 f).1]) d
      (d.sendIdle p lc cvl cred) := by
  subst hf
  have hkept := (Sends.refl p d).updLink (f := fun l => { l with
    txNext := (l.txNext + 1) % 4096
    replayList := l.replayList ++ [{
      flit := withHop Flit.idle (d.link p).txNext (d.link p).lack cred cvl false, stomped := false, cell := none }] }) rfl
  have hslot := Dev.sendOn_sends (d.updLink p _) p (d.port p).width (d.port p).txMap lc
    (withHop Flit.idle (d.link p).txNext (d.link p).lack cred cvl false) (by rw [hkept.link]; exact hstart)
    (by rw [Dev.updLink_port_at]; exact PortSt.spareOp_none hsteer)
  rw [hkept.link] at hslot
  simpa [Dev.sendIdle, Dev.sendSlot] using hkept.trans hslot

/-- A flit held for replay, again (R106). -/
theorem Dev.resendFlit_sends (d : Dev) (p : Nat) (t : SentFlit) (f : Flit) {pre : List Output} {scr : List Nat}
    {n m : Nat} (hstomp : t.stomped = false)
    (hf : f = withHop t.flit t.flit.lseq.toNat (d.link p).lack t.flit.cred.toNat t.flit.cvl.toNat false)
    (hstart : slotStart p (d.port p).width (d.port p).txMap (d.link p) pre scr n m) (hsteer : (d.port p).txSteer = none) :
    Sends p { d.link p with
        scrTx := (slotSignal (d.port p).width (d.port p).txMap scr 0 0 f).2, blkTx := n + 4 / (d.port p).width
        mcountTx := m }
      (pre ++ [.flitTx p 0 f (slotSignal (d.port p).width (d.port p).txMap scr 0 0 f).1]) d
      (d.resendFlit p (d.port p).width (d.port p).txMap 0 t) := by
  subst hf
  simp only [Dev.resendFlit, hstomp, Bool.false_eq_true, if_false]
  exact d.sendOn_sends p _ _ 0 _ hstart (PortSt.spareOp_none hsteer)

/-- A flit that is no time flit takes no stamp (R245). -/
theorem Dev.stamp_toPeerDst (d : Dev) (p : Nat) (c : QCell) (h : c.flit.type ≠ 7) :
    d.stamp (d.toPeerDst p c) = d.toPeerDst p c := by
  have htype : ¬(d.toPeerDst p c).type = 7#4 := by
    unfold Dev.toPeerDst
    split <;> exact h
  simp [Dev.stamp, htype]

/-- b is a but for the capture units and the counts of the cells' copies. -/
def CellSent (a b : Dev) : Prop := b = { a with capt := b.capt, core := { a.core with refs := b.core.refs } }

/-- A cell's copy is off and mirrored: a matter of the capture units and the cells' counts (R175). -/
theorem Dev.copyLeft_mirrorQ_cellSent (d : Dev) (p q : Nat) (c : QCell) :
    CellSent d ((d.copyLeft c.id).mirrorQ 2 p q c) := by
  unfold Dev.mirrorQ Dev.mirror
  split <;> rfl

/-- A flit selected, new (R100, R108, R110). -/
theorem Dev.sendNew_sends (d : Dev) (p : Nat) (c : TxSel) (rest : List TxSel) (f : Flit) {pre : List Output}
    {scr : List Nat} {n m : Nat} (hsel : (d.link p).txSel = c :: rest) (hstomp : c.stomp = false)
    (htype : c.cell.flit.type ≠ 7)
    (hf : f = withHop (d.toPeerDst p c.cell) (d.link p).txNext (d.link p).lack 0 0 false)
    (hstart : slotStart p (d.port p).width (d.port p).txMap (d.link p) pre scr n m) (hsteer : (d.port p).txSteer = none) :
    ∃ e, CellSent d e ∧ Sends p { d.link p with
        txSel := rest, txNext := ((d.link p).txNext + 1) % 4096
        avail := updAt (d.link p).avail c.cell.flit.vl.toNat (· - 1)
        replayList := (d.link p).replayList ++ [{ flit := f, stomped := false, cell := some c.cell.id }]
        scrTx := (slotSignal (d.port p).width (d.port p).txMap scr 0 0 f).2, blkTx := n + 4 / (d.port p).width
        mcountTx := m }
      (pre ++ [.flitTx p 0 f (slotSignal (d.port p).width (d.port p).txMap scr 0 0 f).1]) e (d.sendNew p c 0 0 0) := by
  subst hf
  have hcell := d.copyLeft_mirrorQ_cellSent p (if c.queue = 16 then 2 else c.queue) c.cell
  refine ⟨_, hcell, ?_⟩
  simp only [Dev.sendNew, hstomp, Bool.false_eq_true, if_false, d.stamp_toPeerDst p c.cell htype, Dev.sendSlot]
  generalize (d.copyLeft c.cell.id).mirrorQ 2 p (if c.queue = 16 then 2 else c.queue) c.cell = e at hcell ⊢
  have hlink : e.link p = d.link p := by rw [hcell]; rfl
  have hport : e.port p = d.port p := by rw [hcell]; rfl
  have hkept := (Sends.refl p e).updLink (f := fun l => { l with
    txSel := l.txSel.tail, txNext := (l.txNext + 1) % 4096
    avail := updAt l.avail c.cell.flit.vl.toNat (· - 1)
    replayList := l.replayList ++ [{
      flit := withHop (d.toPeerDst p c.cell) (d.link p).txNext (d.link p).lack 0 0 false
      stomped := false, cell := some c.cell.id }] }) rfl
  have hslot := Dev.sendOn_sends (e.updLink p _) p (d.port p).width (d.port p).txMap 0
    (withHop (d.toPeerDst p c.cell) (d.link p).txNext (d.link p).lack 0 0 false)
    (by rw [hkept.link, hlink]; exact hstart)
    (by rw [Dev.updLink_port_at, hport]; exact PortSt.spareOp_none hsteer)
  rw [hkept.link, hlink] at hslot
  simpa [hport, hsel] using hkept.trans hslot

/-! ### The obligation -/

/-- With no steer under way a slot that has gone is all that a boundary sends. -/
theorem Sends.steerTick {p : Nat} {l : LinkSt} {pre : List Output} {o : Output} {a b : Dev}
    (h : Sends p l (pre ++ [o]) a b) (hsteer : (a.port p).txSteer = none) :
    (b.steerTick p false).out = a.out ++ pre ++ [o] ∧ (b.steerTick p false).link p = l ∧
      (∀ q, (b.steerTick p false).port q = a.port q) ∧ sameLinksBut p a (b.steerTick p false) ∧
      b.steerTick p false = { a with
        ports := (b.steerTick p false).ports, links := (b.steerTick p false).links, out := (b.steerTick p false).out } := by
  refine ⟨?_, (b.steerTick_link p false p).trans h.link, fun q => ?_,
    fun q hq => (b.steerTick_link p false q).trans (h.links q hq), ?_⟩
  · rw [List.append_assoc]
    exact h.out
  · rw [b.steerTick_port p false (by simpa [h.port_eq] using hsteer), h.port_eq]
  · rw [h.rest]
    rfl

theorem CellSent.sent {a e b : Dev} (h : CellSent a e) (k : b = { e with ports := b.ports, links := b.links, out := b.out }) :
    b = { a with
      ports := b.ports, links := b.links, out := b.out, capt := b.capt, core := { a.core with refs := b.core.refs } } := by
  have hcapt : b.capt = e.capt := by rw [k]
  have hcore : b.core = e.core := by rw [k]
  rw [hcapt, hcore]
  exact Eq.trans k (by rw [h])

/-- A boundary of a port UP or DEGRADED whose link is ACTIVE or in a replay, with no steer under way, is its flit's when
no DOZE_ACK goes. -/
theorem Dev.txBoundary_of_txFlit (d b : Dev) (p : Nat) (hup : portUp (d.port p).state = true)
    (hst : (d.link p).lstate = .active ∨ (d.link p).lstate = .replay) (hsteer : (d.port p).txSteer = none)
    (hflit : d.txFlit p = b) (hack : (b.link p).dozeAck = (d.link p).dozeAck) : d.txBoundary p = b := by
  rw [d.txBoundary_flits p hup (by rcases hst with h | h <;> simp [h]),
    d.txSlot_of_txFlit p hst hsteer (by rw [hflit, hack]), hflit]

/-- Settles O41: a whole slot goes to `rxSlot_lost`, `rxSlot_accepts` or `rxSlot_duplicate` by what it decodes to, a
boundary to the flit that it sends. -/
theorem slotsAreReceivedAndSent : Obligations.SlotsAreReceivedAndSent := by
  unfold Obligations.SlotsAreReceivedAndSent
  rintro s p l y hcore rfl rfl
  refine ⟨fun hst sig x hx hsteer hearly => ⟨fun hbad hb hpend => ?lost, fun haOk hb hcrc hlack =>
      ⟨fun hseq hviol htype hout hcred hfence => ?accepted, fun hseq hbehind => ?duplicate⟩⟩,
    fun hup hsteer hlc pre scr n m hstart => ⟨fun hst hcur hlen hs2 hdue =>
      ⟨fun f hf hsel => ?idle, fun c rest f hsel hstomp hearly htype havail hf => ?new⟩,
      fun hst i t f hcur ht hstomp hf => ?replayed⟩,
    fun r hst hr hann => ?restripe, fun hst hstep t ht => ?training, fun hup hst hwake => ?relock⟩
  case lost =>
    subst hx
    exact ⟨_, coreDone_of_coreUp _ s hcore, s.dev.rxSlot_lost p.val sig hst hsteer hearly hbad hb hpend⟩
  case accepted =>
    subst hx
    exact ⟨_, coreDone_of_coreUp _ s hcore, s.dev.rxSlot_accepts p.val sig _ hst hsteer hearly rfl haOk hb hcrc hlack hseq
      hviol htype hout hcred hfence⟩
  case duplicate =>
    subst hx
    exact ⟨_, coreDone_of_coreUp _ s hcore, s.dev.rxSlot_duplicate p.val sig _ hst hsteer hearly rfl haOk hb hcrc hlack
      hseq hbehind⟩
  case idle =>
    have hsent := s.dev.sendIdle_sends p.val 0 0 0 f hf hstart hsteer
    refine ⟨_, coreDone_of_coreUp _ s hcore, ?_⟩
    rw [s.dev.txBoundary_of_txFlit _ p.val hup (.inl hst) hsteer
      (s.dev.txFlit_idle p.val hcur hlen hs2 hsel hlc (s.dev.creditDue_none p.val hdue))
      (by rw [Dev.steerTick_link, hsent.link])]
    exact hsent.steerTick hsteer
  case new =>
    obtain ⟨e, hcell, hsent⟩ := s.dev.sendNew_sends p.val c rest f hsel hstomp htype hf hstart hsteer
    have hport (q : Nat) : e.port q = s.dev.port q := by rw [hcell]; rfl
    have hlink (q : Nat) : e.link q = s.dev.link q := by rw [hcell]; rfl
    have hout : e.out = s.dev.out := by rw [hcell]
    refine ⟨_, coreDone_of_coreUp _ s hcore, ?_⟩
    rw [s.dev.txBoundary_of_txFlit _ p.val hup (.inl hst) hsteer
      (s.dev.txFlit_new p.val c rest hcur hlen hs2 hsel havail hearly hlc (s.dev.creditDue_none p.val hdue))
      (by rw [Dev.steerTick_link, hsent.link])]
    obtain ⟨tout, tlink, tport, tlinks, trest⟩ := hsent.steerTick (by rw [hport]; exact hsteer)
    exact ⟨by rw [tout, hout], tlink, fun q => (tport q).trans (hport q), fun q hq => (tlinks q hq).trans (hlink q),
      hcell.sent trest⟩
  case replayed =>
    have hsent := ((s.dev.resendFlit_sends p.val t f hstomp hf hstart hsteer).updLink (f := fun l => { l with
      cursor := if i + 1 < l.replayList.length then some (i + 1) else none }) rfl).linkSettle
    refine ⟨_, coreDone_of_coreUp _ s hcore, ?_⟩
    rw [s.dev.txBoundary_of_txFlit _ p.val hup (.inr hst) hsteer (s.dev.txFlit_replay p.val i t hcur ht hlc)
      (by rw [Dev.steerTick_link, hsent.link]; simp [hst]; split <;> rfl)]
    obtain ⟨tout, tlink, htail⟩ := hsent.steerTick hsteer
    refine ⟨tout, ?_, htail⟩
    rw [tlink]
    by_cases hi : i + 1 < (s.dev.link p.val).replayList.length <;> simp [hst, hi]
  case restripe =>
    refine ⟨_, coreDone_of_coreUp _ s hcore, ?_⟩
    rw [s.dev.txBoundary_restripe p.val r hst hr hann]
    obtain ⟨hout, hlink, hlinks, hrest⟩ := s.dev.sendMarker_sends p.val r.width _ true _
    exact ⟨hout, hlink, hlinks, hrest⟩
  case training =>
    subst ht
    refine (coreDone_of_coreUp _ s hcore).trans ?_
    simp [Dev.txBoundary, hst, Dev.txTraining, hstep, Dev.sendTrain]
  case relock =>
    refine ⟨_, coreDone_of_coreUp _ s hcore, ?_⟩
    rw [s.dev.txBoundary_relock p.val hup hst hwake]
    obtain ⟨hout, -, hlinks, hrest⟩ := s.dev.sendMarker_sends p.val (s.dev.port p.val).width (s.dev.port p.val).txMap
      false fun _ => true
    exact ⟨hout, hlinks, hrest⟩

end Sys2Proof.Machine
end

section
/-! Link layer: markers align a port, doze is asked for, entered and left (03: R87, R90, R115, R124, R125). -/

namespace Sys2Proof.Machine

/-! ### Alignment (R90) -/

/-- What a list reads after one of its elements is put. -/
theorem at_updAt_put {α : Type} (d v : α) (l : List α) (i : Nat) (hv : l.length ≤ i → v = d) :
    at_ d (updAt l i fun _ => v) i = v := by
  by_cases hi : i < l.length
  · simp [at_, updAt, List.getD, hi]
  · simp [at_, updAt, List.getD, List.getElem?_eq_none (Nat.not_lt.mp hi), hv (Nat.not_lt.mp hi)]

/-- A marker missed clears the lane's run, and the fourth in a row loses alignment. -/
theorem LinkSt.markerMissed_spec (l : LinkSt) (lane : Nat) :
    (l.markerMissed lane).laneMiss = updAt l.laneMiss lane (· + 1) ∧ at_ 0 (l.markerMissed lane).laneGood lane = 0 ∧
      (l.markerMissed lane).aligned = (l.aligned && !(4 ≤ at_ 0 (updAt l.laneMiss lane (· + 1)) lane)) ∧
      (l.markerMissed lane).lstate = l.lstate := by
  simp only [LinkSt.markerMissed]
  split
  next h =>
    refine ⟨rfl, ?_, by simp [h], rfl⟩
    rcases lane with _ | _ | _ | _ | _ <;> rfl
  next h => exact ⟨rfl, at_updAt_put 0 0 _ _ fun _ => rfl, by simp [h], rfl⟩

/-- The marker of a lane, at its distance and with the next count, extends the lane's run; the link that dozes no longer
keeps all of it. -/
theorem LinkSt.markerTaken_relocked_spec (l : LinkSt) (w lane mcount : Nat)
    (hmark : at_ none l.laneMark lane = some ((mcount + 65535) % 65536)) :
    let l' := (l.markerTaken w lane 6473 mcount).relocked
    l'.laneGood = updAt l.laneGood lane (· + 1) ∧ l'.laneMiss = updAt l.laneMiss lane (fun _ => 0) ∧
      l'.scrRx = updAt l.scrRx lane (fun _ => scrSeed lane) ∧
      l'.aligned = (l.aligned || (List.range (max 1 w)).all fun i => 2 ≤ at_ 0 (updAt l.laneGood lane (· + 1)) i &&
        at_ none (updAt l.laneMark lane fun _ => some mcount) i == some mcount) := by
  unfold LinkSt.relocked
  split <;> simp [LinkSt.markerTaken, hmark]

/-! ### Entering doze (R125) -/

/-- n markers, back to back. -/
theorem Dev.sendMarkers_sends (d : Dev) (p n : Nat) :
    ∃ m scr blk ms, Sends p { d.link p with mcountTx := m, scrTx := scr, blkTx := blk } ms d (d.sendMarkers p n) ∧
      ms.length = n ∧ ∀ o, o ∈ ms → ∃ sig, o = .markers p sig := by
  induction n with
  | zero => exact ⟨_, _, _, [], Sends.refl p d, rfl, by simp⟩
  | succ n ih =>
    obtain ⟨m, scr, blk, ms, hsent, hlen, hall⟩ := ih
    have hsnoc : d.sendMarkers p (n + 1) = (d.sendMarkers p n).sendMarker p ((d.sendMarkers p n).port p).width
        ((d.sendMarkers p n).port p).txMap false fun _ => true := by
      simp only [Dev.sendMarkers, List.range_succ, List.foldl_append, List.foldl_cons, List.foldl_nil]
    have hone := (d.sendMarkers p n).sendMarker_sends p ((d.sendMarkers p n).port p).width
      ((d.sendMarkers p n).port p).txMap false fun _ => true
    rw [← hsnoc, hsent.link] at hone
    refine ⟨_, _, _, _, hsent.trans hone, by simp [hlen], fun o ho => ?_⟩
    rcases List.mem_append.mp ho with h | h
    · exact hall o h
    · exact ⟨_, List.mem_singleton.mp h⟩

/-- Doze is entered after 16 markers; sequence, credit and replay state stay. -/
theorem Dev.enterDoze_sends (d : Dev) (p : Nat) :
    ∃ m scr blk ms, Sends p { d.link p with
        mcountTx := m, scrTx := scr, blkTx := blk, lstate := .doze, dozeReq := false, dozeTries := 0, dozeAck := 0
        aligned := false, waking := false } ms d (d.enterDoze p) ∧
      ms.length = 16 ∧ ∀ o, o ∈ ms → ∃ sig, o = .markers p sig := by
  obtain ⟨m, scr, blk, ms, hsent, hms⟩ := d.sendMarkers_sends p 16
  exact ⟨m, scr, blk, ms, hsent.updLink rfl, hms⟩

/-- An accepted DOZE_REQ on an ACTIVE link with nothing selected (R115). -/
theorem Dev.dozeReqRx_acts (d : Dev) (p : Nat) (hst : (d.link p).lstate = .active)
    (hacc : (d.link p).accepted 0x8000 = true) (hsel : (d.link p).txSel = []) :
    d.dozeReqRx p = (d.lcUse p).updLink p fun l => { l with dozeAck := if l.dozeAck = 0 then 16 else l.dozeAck } := by
  simp [Dev.dozeReqRx, hst, hacc, hsel]

/-- An accepted DOZE_ACK completes the device's own request (R125). -/
theorem Dev.dozeAckRx_acts (d : Dev) (p : Nat) (hst : (d.link p).lstate = .active)
    (hacc : (d.link p).accepted 0x9000 = true) (hreq : (d.link p).dozeReq = true) :
    d.dozeAckRx p = (d.lcUse p).enterDoze p := by
  simp [Dev.dozeAckRx, hst, hacc, hreq]

/-! ### The last DOZE_ACK goes out (R115, R125) -/

/-- One DOZE_ACK fewer is due. -/
def Dev.ackGone (d : Dev) (p : Nat) : Dev := d.updLink p fun l => { l with dozeAck := l.dozeAck - 1 }

/-- The last DOZE_ACK is due and nothing before it. -/
theorem Dev.lcDue_lastAck (d : Dev) (p : Nat) (hack : (d.link p).dozeAck = 1) (hnak : (d.link p).nakDue = none)
    (hcut : (d.link p).cutNotice = false) (hreq : (d.link p).dozeReq = false) (htx : (d.port p).txSteer = none)
    (hrx : (d.port p).rxSteer = none) (hsteer : (d.port p).steerReq = none) :
    d.lcDue p = (0x9000, d.ackGone p) := by
  simp [Dev.lcDue, hack, hnak, hcut, hreq, PortSt.spareOp_none htx, hrx, hsteer, Dev.ackGone]

/-- What giving credits to a slot leaves: of link p all but its credits, and all but links and the buffer's books. -/
theorem Dev.creditDue_spec (d : Dev) (p : Nat) :
    (∃ i u o, (d.creditDue p).2.2.link p = { d.link p with initDue := i, due := u, outst := o }) ∧
      sameLinksBut p d (d.creditDue p).2.2 ∧
      (d.creditDue p).2.2 = { d with links := (d.creditDue p).2.2.links, core := (d.creditDue p).2.2.core } := by
  simp only [Dev.creditDue]
  split
  next v _ => exact ⟨⟨_, _, _, by rw [Dev.updCore_link_at, Dev.updLink_link_same]⟩,
      fun q hq => by rw [Dev.updCore_link_at, Dev.updLink_link_other _ _ _ _ hq], rfl⟩
  next =>
    split
    next v _ => exact ⟨⟨_, _, _, by rw [Dev.updLink_link_same]⟩, d.sameLinksBut_updLink p _, rfl⟩
    next => exact ⟨⟨_, _, _, rfl⟩, fun _ _ => rfl, rfl⟩

/-- A slot finds the count of data blocks below the limit or at it. -/
theorem slotStart_exists (p w : Nat) (map : BitVec 12) (l : LinkSt) : ∃ pre scr n m, slotStart p w map l pre scr n m := by
  rcases Nat.lt_or_ge l.blkTx 6472 with h | h
  · exact ⟨_, _, _, _, .inl ⟨h, rfl, rfl, rfl, rfl⟩⟩
  · exact ⟨_, _, _, _, .inr ⟨h, rfl, rfl, rfl, rfl⟩⟩

/-- An idle slot with the last DOZE_ACK: no other acknowledgement is left, and no other link and no unit is touched. -/
theorem Dev.txFlit_lastAck (d : Dev) (p : Nat) (hack : (d.link p).dozeAck = 1) (hcur : (d.link p).cursor = none)
    (hlen : (d.link p).replayList.length < 2048) (hsel : (d.link p).txSel = []) (hs2 : d.s2Of p = [])
    (hsteer : (d.port p).txSteer = none) (hlc : d.lcDue p = (0x9000, d.ackGone p)) :
    ((d.txFlit p).link p).dozeAck = 0 ∧ sameLinksBut p d (d.txFlit p) ∧ sameCompute d (d.txFlit p) := by
  have hact : d.txFlit p = (((d.ackGone p).creditDue p).2.2.sendIdle p 0x9000 ((d.ackGone p).creditDue p).1
      ((d.ackGone p).creditDue p).2.1).steerTick p false := by
    simp [Dev.txFlit, hcur, Nat.not_le.mpr hlen, d.takeS2_none p hs2, hsel, hlc]
  have htaken : sameLinksBut p d (d.ackGone p) := d.sameLinksBut_updLink p _
  have hleft : (d.ackGone p).link p = { d.link p with dozeAck := 0 } := by simp [Dev.ackGone, hack]
  obtain ⟨⟨i, u, o, clink⟩, clinks, crest⟩ := (d.ackGone p).creditDue_spec p
  rw [hleft] at clink
  rw [hact]
  generalize (d.ackGone p).creditDue p = c at clink clinks crest ⊢
  have hport : (c.2.2.port p).txSteer = none := by rw [crest]; exact hsteer
  obtain ⟨pre, scr, n, m, hstart⟩ := slotStart_exists p (c.2.2.port p).width (c.2.2.port p).txMap (c.2.2.link p)
  have hsent := c.2.2.sendIdle_sends p 0x9000 c.1 c.2.1 _ rfl hstart hport
  obtain ⟨-, tlink, -, tlinks, trest⟩ := hsent.steerTick hport
  refine ⟨by rw [tlink, clink], fun q hq => ?_, ?_⟩
  · rw [tlinks q hq, clinks q hq, htaken q hq]
  · rw [trest, crest]
    exact ⟨rfl, rfl, rfl⟩

/-- After the last DOZE_ACK the link dozes (R115, R125). -/
theorem Dev.txBoundary_lastAck (d : Dev) (p : Nat) (hup : portUp (d.port p).state = true)
    (hst : (d.link p).lstate = .active) (hack : (d.link p).dozeAck = 1) (hsteer : (d.port p).txSteer = none)
    (hleft : ((d.txFlit p).link p).dozeAck = 0) : d.txBoundary p = (d.txFlit p).enterDoze p := by
  rw [d.txBoundary_flits p hup (by simp [hst])]
  simp [Dev.txSlot, hst, hsteer, steerDue, hack, hleft]

/-! ### A DOZE_REQ is not answered, a relock fails (R115, R124) -/

/-- A request not answered is counted and a try is over. -/
def Dev.dozeNak (d : Dev) (p : Nat) : Dev :=
  (d.updLink p fun l => { l with dozeReq := false, dozeTries := l.dozeTries + 1 }).count .PWR_DOZE_NAK_CNT

theorem Dev.dozeNak_step (d : Dev) (p : Nat) :
    LinkStep p { d.link p with dozeReq := false, dozeTries := (d.link p).dozeTries + 1 } [.PWR_DOZE_NAK_CNT] d
      (d.dozeNak p) := by
  unfold Dev.dozeNak
  exact ((LinkStep.refl p [.PWR_DOZE_NAK_CNT] d).updLink
    (f := fun l => { l with dozeReq := false, dozeTries := l.dozeTries + 1 }) rfl).count .PWR_DOZE_NAK_CNT 0 0 (by simp)

theorem Dev.dozeNak_rawF_same (d : Dev) (p : Nat) :
    (d.dozeNak p).rawF .PWR_DOZE_NAK_CNT 0 0 0 = up1 (d.rawF .PWR_DOZE_NAK_CNT 0 0 0) := by
  rw [Dev.dozeNak, Dev.count_rawF_same, Dev.updLink_rawF]

/-- Outside an A3 entry the request ends. -/
theorem Dev.dozeTimeout_ends (d : Dev) (p : Nat) (hreq : (d.link p).dozeReq = true) (hstep : d.sys.pwr.step ≠ 6) :
    d.dozeTimeout p = (d.dozeNak p).updLink p fun l => { l with dozeTries := 0 } := by
  simp [Dev.dozeTimeout, hreq, hstep, Dev.dozeNak]

/-- In an A3 entry it is asked again until the third try. -/
theorem Dev.dozeTimeout_asks (d : Dev) (p : Nat) (x : Desc) (hreq : (d.link p).dozeReq = true)
    (hstep : d.sys.pwr.step = 6) (hcur : d.sys.pwr.cur = some x) (hx : x.arg 28 1 % 4 = 3)
    (htries : (d.link p).dozeTries < 2) (hst : (d.link p).lstate = .active) (hup : portUp (d.port p).state = true) :
    d.dozeTimeout p = (d.dozeNak p).updLink p fun l => { l with dozeReq := true } := by
  have hmore : ¬3 ≤ (d.link p).dozeTries + 1 := by omega
  simp [Dev.dozeTimeout, hreq, hstep, hcur, hx, hmore, Dev.dozeNak, Dev.dozeAsk, hst, hup]

/-- The third try of an A3 entry aborts it (R525). -/
theorem Dev.dozeTimeout_aborts (d : Dev) (p : Nat) (x : Desc) (hreq : (d.link p).dozeReq = true)
    (hstep : d.sys.pwr.step = 6) (hcur : d.sys.pwr.cur = some x) (hx : x.arg 28 1 % 4 = 3)
    (htries : 2 ≤ (d.link p).dozeTries) :
    d.dozeTimeout p = ((d.dozeNak p).updLink p fun l => { l with dozeTries := 0 }).entryAbort 2 p := by
  simp [Dev.dozeTimeout, hreq, hstep, hcur, hx, htries, Dev.dozeNak]

/-- A relock that fails begins a full training (R124). -/
theorem Dev.dozeRelock_acts (d : Dev) (p : Nat) (hst : (d.link p).lstate = .doze) (hwake : (d.link p).waking = true)
    (hup : portUp (d.port p).state = true) : d.dozeRelock p = d.toTraining p true := by
  simp [Dev.dozeRelock, hst, hwake, d.retrain_of_up p hup]

/-- The wake pattern on a dozing port whose domains are ON (R125, R526). -/
theorem Dev.wakeDetect_relocks (d : Dev) (p : Nat) (hst : (d.link p).lstate = .doze) (hwake : (d.link p).waking = false)
    (heng : d.domState (engineDom (p / 16)) = 2) (hcore : d.domState coreDom = 2) :
    d.wakeDetect p = d.updLink p fun l => { l with
      waking := true, aligned := false, laneMark := [none, none, none, none], laneGood := [0, 0, 0, 0]
      laneMiss := [0, 0, 0, 0] } := by
  simp [Dev.wakeDetect, heng, hcore, Dev.relockPort, hst, hwake]

end Sys2Proof.Machine
end

section
/-! Power: an entry into A3 that a port holds up is aborted (14: R525; 03: R115). -/

namespace Sys2Proof.Machine

/-! ### What wakes and events leave of a request -/

/-- The parts of the device that a power request lives in are as before: fabric time, the request in progress and the one
behind it, and the command rings. -/
structure RequestFrame (a b : Dev) : Prop where
  time : b.time = a.time
  cur : b.sys.pwr.cur = a.sys.pwr.cur
  pend : b.sys.pwr.pend = a.sys.pwr.pend
  rings : ∀ h, (b.fn h).rings = (a.fn h).rings

theorem RequestFrame.refl (a : Dev) : RequestFrame a a := ⟨rfl, rfl, rfl, fun _ => rfl⟩

theorem RequestFrame.trans {a b c : Dev} (h : RequestFrame a b) (k : RequestFrame b c) : RequestFrame a c :=
  ⟨k.time.trans h.time, k.cur.trans h.cur, k.pend.trans h.pend, fun x => (k.rings x).trans (h.rings x)⟩

theorem RequestFrame.foldl (f : Dev → Nat → Dev) (hf : ∀ d x, RequestFrame d (f d x)) (l : List Nat) (d : Dev) :
    RequestFrame d (l.foldl f d) := by
  induction l generalizing d with
  | nil => exact .refl d
  | cons x l ih => exact (hf d x).trans (ih (f d x))

/-- A change of registers and outputs leaves the requests. -/
theorem RequestFrame.of_parts {a b : Dev} (htime : b.time = a.time) (hsys : b.sys = a.sys) (hfns : b.fns = a.fns) :
    RequestFrame a b :=
  ⟨htime, by rw [hsys], by rw [hsys], fun h => by simp only [Dev.fn, hfns]⟩

theorem Dev.updPwr_requestFrame (d : Dev) (f : PwrSt → PwrSt) (hcur : (f d.sys.pwr).cur = d.sys.pwr.cur)
    (hpend : (f d.sys.pwr).pend = d.sys.pwr.pend) : RequestFrame d (d.updPwr f) :=
  ⟨rfl, hcur, hpend, fun _ => rfl⟩

theorem Dev.updEq_requestFrame (d : Dev) (h e : Nat) (g : EqSt → EqSt) : RequestFrame d (d.updEq h e g) := by
  refine ⟨rfl, rfl, rfl, fun x => ?_⟩
  rw [Dev.updEq, Dev.updFn_fn]
  split
  next hx => rw [hx]
  next => rfl

theorem Dev.updLink_requestFrame (d : Dev) (p : Nat) (f : LinkSt → LinkSt) : RequestFrame d (d.updLink p f) :=
  .of_parts rfl rfl rfl

theorem Dev.emit_requestFrame (d : Dev) (o : Output) : RequestFrame d (d.emit o) := .of_parts rfl rfl rfl

theorem Dev.countFN_requestFrame (d : Dev) (r : RegName) (fn i j n : Nat) : RequestFrame d (d.countFN r fn i j n) :=
  .of_parts (by simp) (by simp) (by simp)

theorem Dev.countN_requestFrame (d : Dev) (r : RegName) (i j n : Nat) : RequestFrame d (d.countN r i j n) :=
  .of_parts (by simp) (by simp) (by simp)

theorem Dev.captureOnce_requestFrame (d : Dev) (f : Fld) (p v : Nat) : RequestFrame d (d.captureOnce f p v) := by
  simp only [Dev.captureOnce, Dev.captureAt]
  split <;> exact .of_parts (by simp) (by simp) (by simp)

/-! ### Events (R494-R496) -/

theorem Dev.hostWrite_requestFrame (d : Dev) (h addr : Nat) (bytes : List (BitVec 8)) :
    RequestFrame d (d.hostWrite h addr bytes) := by
  simp only [Dev.hostWrite]
  split
  · exact d.emit_requestFrame _
  · exact .refl d

theorem Dev.sbWrite_requestFrame (d : Dev) (h off : Nat) (bytes : List (BitVec 8)) :
    RequestFrame d (d.sbWrite h off bytes) := by
  simp only [Dev.sbWrite]
  split
  · exact .refl d
  · exact d.hostWrite_requestFrame h _ bytes

theorem Dev.msixSend_requestFrame (d : Dev) (h vec : Nat) : RequestFrame d (d.msixSend h vec) := by
  simp only [Dev.msixSend]
  split
  · exact d.emit_requestFrame _
  · exact .refl d

theorem Dev.eqSignal_requestFrame (d : Dev) (h e : Nat) : RequestFrame d (d.eqSignal h e) := by
  unfold Dev.eqSignal
  split
  · exact (d.msixSend_requestFrame h _).trans (Dev.updEq_requestFrame _ h e _)
  · exact .refl d

theorem Dev.postTo_requestFrame (d : Dev) (h : Nat) (e : Evt) : RequestFrame d (d.postTo h e) := by
  simp only [Dev.postTo]
  split
  · exact (((d.hostWrite_requestFrame h _ _).trans (Dev.updEq_requestFrame _ h _ _)).trans
      (Dev.sbWrite_requestFrame _ h _ _)).trans (Dev.eqSignal_requestFrame _ h _)
  · exact (d.updEq_requestFrame h _ _).trans (Dev.countFN_requestFrame _ _ h _ 0 1)

theorem Dev.report_requestFrame (d : Dev) (e : Evt) : RequestFrame d (d.report e) := by
  unfold Dev.report
  split
  · exact .of_parts rfl rfl rfl
  · exact .refl d

theorem Dev.post_requestFrame (d : Dev) (e : Evt) : RequestFrame d (d.post e) := by
  simp only [Dev.post]
  refine RequestFrame.trans ?_ (Dev.report_requestFrame _ e)
  split
  · exact d.postTo_requestFrame _ e
  · exact .refl d

/-- The outcome of a refused or aborted entry is registers and an event (R525). -/
theorem Dev.refuseNote_requestFrame (d : Dev) (target cls index : Nat) (abort : Bool) :
    RequestFrame d (d.refuseNote target cls index abort) := by
  unfold Dev.refuseNote Dev.powerEvent
  exact ((d.captureOnce_requestFrame _ _ _).trans (Dev.countN_requestFrame _ _ _ _ _)).trans (Dev.post_requestFrame _ _)

/-! ### Wakes (R519, R526, R529) -/

theorem Dev.wakeDom_requestFrame (d : Dev) (n : Nat) : RequestFrame d (d.wakeDom n) := by
  unfold Dev.wakeDom
  exact .of_parts (by simp) (by simp) (by simp)

theorem Dev.unwakeDom_requestFrame (d : Dev) (n : Nat) : RequestFrame d (d.unwakeDom n) := by
  unfold Dev.unwakeDom
  exact .of_parts (by simp) (by simp) (by simp)

theorem Dev.demandWave_requestFrame (d : Dev) (n : Nat) : RequestFrame d (d.demandWave n) := by
  simp only [Dev.demandWave]
  split
  · exact .refl d
  · split
    · exact (d.wakeDom_requestFrame n).trans (Dev.updPwr_requestFrame _ _ rfl rfl)
    · split
      · exact ((d.unwakeDom_requestFrame _).trans (Dev.wakeDom_requestFrame _ n)).trans (Dev.updPwr_requestFrame _ _ rfl rfl)
      · exact RequestFrame.trans (.of_parts (by simp) (by simp) (by simp)) (Dev.updPwr_requestFrame _ _ rfl rfl)

theorem Dev.demandLater_requestFrame (d : Dev) (n : Nat) : RequestFrame d (d.demandLater n) :=
  d.updPwr_requestFrame _ rfl rfl

theorem Dev.demand_requestFrame (d : Dev) (n : Nat) : RequestFrame d (d.demand n) := by
  unfold Dev.demand
  split
  · exact .refl d
  · split
    · split
      · exact d.demandWave_requestFrame n
      · split
        · exact d.demandLater_requestFrame n
        · exact d.wakeDom_requestFrame n
    · exact d.demandLater_requestFrame n
    · exact .refl d

theorem Dev.rewake_requestFrame (d : Dev) (l : List Nat) : RequestFrame d (d.rewake l) := by
  refine RequestFrame.foldl _ (fun d n => ?_) l d
  split
  · exact d.demand_requestFrame n
  · split
    · exact d.wakeDom_requestFrame n
    · exact d.updPwr_requestFrame _ rfl rfl
    · exact .refl d

theorem Dev.wakePort_requestFrame (d : Dev) (p : Nat) : RequestFrame d (d.wakePort p) := by
  unfold Dev.wakePort
  split
  · unfold Dev.relockPort
    split
    · exact (d.emit_requestFrame _).trans (Dev.updLink_requestFrame _ p _)
    · exact d.emit_requestFrame _
  · exact .refl d

theorem Dev.wakePorts_requestFrame (d : Dev) (y : Nat) : RequestFrame d (d.wakePorts y) := by
  unfold Dev.wakePorts
  split
  · exact .refl d
  · exact RequestFrame.foldl _ (fun d p => d.wakePort_requestFrame p) _ d

/-! ### The abort (R525) -/

/-- A command that completes waits to be told on its ring (R492). -/
theorem Dev.complete_completedTo (d : Dev) (x : Desc) (status reason result : Nat) :
    completedTo x status reason result d (d.complete x status reason result) := by
  simp [completedTo, Dev.complete, Dev.updRing, Dev.ring, FnSt.ring]

/-- A completion stays one when time and rings before it and the rings after it are kept. -/
theorem completedTo.of_rings {a b c e : Dev} {x : Desc} {status reason result : Nat}
    (hc : completedTo x status reason result b c) (htime : b.time = a.time)
    (hbefore : ∀ h, (b.fn h).rings = (a.fn h).rings) (hafter : ∀ h, (e.fn h).rings = (c.fn h).rings) :
    completedTo x status reason result a e := by
  simpa only [completedTo, Dev.ring, FnSt.ring, Dev.fabricTime, htime, hbefore, hafter] using hc

/-- An entry aborted with no request behind it: no request is in progress, and its command completes with 0xE1. -/
theorem Dev.entryAbort_spec (d : Dev) (cls index : Nat) (x : Desc) (hcur : d.sys.pwr.cur = some x)
    (hpend : d.sys.pwr.pend = none) :
    (d.entryAbort cls index).sys.pwr.cur = none ∧ completedTo x 2 0xE1 0 d (d.entryAbort cls index) := by
  have hnote := d.refuseNote_requestFrame (x.arg 28 1 % 4) cls index true
  simp only [Dev.entryAbort, hcur, Dev.refuse]
  generalize d.refuseNote (x.arg 28 1 % 4) cls index true = e at hnote ⊢
  have hdone := e.complete_completedTo x 2 0xE1 0
  have hbehind : (e.complete x 2 0xE1 0).sys.pwr.pend = none := hnote.pend.trans hpend
  generalize e.complete x 2 0xE1 0 = c at hdone hbehind ⊢
  generalize hended : c.updPwr _ = f
  have hwake := (f.rewake_requestFrame d.sys.pwr.off).trans (Dev.wakePorts_requestFrame _ f.pwrState)
  have hstart : ∀ g : Dev, RequestFrame f g → g.pendStart = g := fun g hg => by
    have hnone : g.sys.pwr.pend = none := by rw [hg.pend, ← hended]; exact hbehind
    simp [Dev.pendStart, hnone]
  rw [hstart _ hwake]
  refine ⟨?_, hdone.of_rings hnote.time hnote.rings fun h => ?_⟩
  · rw [hwake.cur, ← hended]
    rfl
  · rw [hwake.rings, ← hended]
    rfl

end Sys2Proof.Machine
end

section
/-! Link layer: codeword B settles an express flit (03: R101, R112), and what the link's rows do together. -/

namespace Sys2Proof.Machine

/-! ### The early flit where it waits (R112, R156) -/

/-- What settling an early flit leaves: of link p all but the flits that it has received and selected and its credits; and
ports, registers and the units that compute. -/
structure Settled (p : Nat) (a b : Dev) : Prop where
  link : ∃ rx tx due out, b.link p = { a.link p with rx := rx, txSel := tx, due := due, outst := out }
  ports : b.ports = a.ports
  regs : b.regs = a.regs
  compute : sameCompute a b

theorem Settled.refl (p : Nat) (a : Dev) : Settled p a a := ⟨⟨_, _, _, _, rfl⟩, rfl, rfl, rfl, rfl, rfl⟩

theorem Settled.trans {p : Nat} {a b c : Dev} (h : Settled p a b) (k : Settled p b c) : Settled p a c := by
  obtain ⟨⟨rx, tx, due, out, hlink⟩, hports, hregs, hctxs, htiles, hhbm⟩ := h
  obtain ⟨⟨rx', tx', due', out', klink⟩, kports, kregs, kctxs, ktiles, khbm⟩ := k
  rw [hlink] at klink
  exact ⟨⟨rx', tx', due', out', klink⟩, kports.trans hports, kregs.trans hregs, hctxs.trans kctxs, htiles.trans ktiles,
    hhbm.trans khbm⟩

theorem CoreOnly.settled {a b : Dev} (h : CoreOnly a b) (p : Nat) : Settled p a b := by
  obtain ⟨f, rfl⟩ := h
  exact ⟨⟨_, _, _, _, rfl⟩, rfl, rfl, rfl, rfl, rfl⟩

theorem Dev.updLink_settled (d : Dev) (p : Nat) (f : LinkSt → LinkSt)
    (h : ∃ rx tx due out, f (d.link p) = { d.link p with rx := rx, txSel := tx, due := due, outst := out }) :
    Settled p d (d.updLink p f) := by
  obtain ⟨rx, tx, due, out, hf⟩ := h
  exact ⟨⟨rx, tx, due, out, (d.updLink_link_same p f).trans hf⟩, rfl, rfl, rfl, rfl, rfl⟩

/-- Marking the flits selected on all links. -/
theorem Dev.markSelected_settled (d : Dev) (p : Nat) (mark : TxSel → TxSel) :
    Settled p d { d with links := tblMap LinkSt.reset (fun _ l => { l with txSel := l.txSel.map mark }) d.links } :=
  ⟨⟨_, _, _, _, tblGet_tblMap LinkSt.reset (fun _ l => { l with txSel := l.txSel.map mark }) d.links p rfl⟩, rfl, rfl, rfl,
    rfl, rfl⟩

theorem Dev.dropCopy_coreOnly (d : Dev) (id : Nat) : CoreOnly d (d.dropCopy id) :=
  (d.updCore_coreOnly _).trans (Dev.copyDone_coreOnly _ id)

theorem Dev.freeCells_coreOnly (d : Dev) (l : List Nat) : CoreOnly d (d.freeCells l) :=
  CoreOnly.foldl _ (fun d id => d.dropCopy_coreOnly id) l d

/-- Express flits leave S2 with what is done for each (R156). -/
theorem Dev.dropS2_coreOnly (d : Dev) (hit : S2Wait → Bool) (f : Dev → S2Wait → Dev) (hf : ∀ d w, CoreOnly d (f d w)) :
    CoreOnly d (d.dropS2 hit f) := by
  refine (d.updCore_coreOnly _).trans (CoreOnly.foldl _ (fun d w => ?_) _ _)
  split
  · exact (d.updCore_coreOnly _).trans (hf _ w)
  · exact hf d w

/-- The credit of an early flit that binding took (R109, R163). -/
theorem Dev.earlyCredit_settled (d : Dev) (p : Nat) (taken held : Bool) :
    Settled p d (if taken then (if held then d.dueCredit p 2 16 else d.returnCredit p 2) else d) := by
  split
  · split
    · exact (d.updCore_coreOnly _).settled p
    · exact ((d.updCore_coreOnly _).settled p).trans (Dev.updLink_settled _ p _ ⟨_, _, _, _, rfl⟩)
  · exact .refl p d

theorem Dev.settleEarly_settled (d : Dev) (p : Nat) (good : Bool) (f : Flit) : Settled p d (d.settleEarly p good f) := by
  simp only [Dev.settleEarly]
  refine Settled.trans ?_ (Dev.earlyCredit_settled _ p _ _)
  refine Settled.trans ?_ (Dev.markSelected_settled _ p _)
  refine Settled.trans ?_ ((Dev.updCore_coreOnly _ _).settled p)
  cases good with
  | true =>
    simp only [if_true]
    refine Settled.trans (d.updLink_settled p _ ?_) ((Dev.updCore_coreOnly _ _).settled p)
    exact ⟨_, _, _, _, rfl⟩
  | false =>
    simp only [Bool.false_eq_true, if_false]
    refine Settled.trans ?_ ((Dev.dropS2_coreOnly _ _ _ fun d w => d.dropCopy_coreOnly w.cell.id).settled p)
    refine Settled.trans (d.updLink_settled p _ ?_) ((CoreOnly.foldl _ (fun d r => ?_) _ _).settled p)
    · exact ⟨_, _, _, _, rfl⟩
    · exact (d.freeCells_coreOnly r.extra).trans (Dev.updCore_coreOnly _ _)

/-! ### EXPRESS_B_DECODE (R112) -/

/-- The flit of an early slot x with codeword B, when it was decoded. -/
def earlyFlit (x : RxSlot) (b : Option (List Nat × List Nat)) : Flit :=
  match b with
  | some r =>
    { x.flit with
      hcrc := BitVec.ofNat 32 (messageOf r.1)
      payload := BitVec.ofNat 2048 (x.flit.payload.toNat % 2 ^ 920 + swapBytes 141 (messageOf r.1 / 2 ^ 32) * 2 ^ 920) }
  | none => x.flit

/-- The device before the slot of an early flit x goes to on_slot: the rest of the slot noted and the flit settled. -/
def Dev.earlyHeard (d : Dev) (p : Nat) (x : RxSlot) (sig idle : Signal) (good : Bool) : Dev :=
  let b := (d.rxDecodeB p sig).1
  let e := (d.updLink p fun l => { l with early := none, scrRx := (d.rxDecodeB p sig).2 }).slotNote p x
    (spareOps (d.port p).rxMap idle)
  let e := (match b with
    | some r => e.countCorr p r.2
    | none => e).settleEarly p good (earlyFlit x b)
  if good then e
  else (e.updLink p fun l => { l with outst := updAt l.outst 2 (· + 1) }).updCore fun k => { k with backed := k.backed + 1 }

theorem Dev.expressB_none (d : Dev) (p : Nat) (sig idle : Signal) (h : (d.link p).early = none) :
    d.expressB p sig idle = d := by
  simp [Dev.expressB, h]

theorem Dev.expressB_some (d : Dev) (p : Nat) (sig idle : Signal) (x : RxSlot) (good : Bool) (h : (d.link p).early = some x)
    (hgood : good = ((d.rxDecodeB p sig).1.isSome &&
      (earlyFlit x (d.rxDecodeB p sig).1).hcrc == hcrcOf (earlyFlit x (d.rxDecodeB p sig).1))) :
    d.expressB p sig idle = (d.earlyHeard p x sig idle good).rxBody p
      { x with b := if (d.rxDecodeB p sig).1.isSome then .ok else .bad, flit := earlyFlit x (d.rxDecodeB p sig).1 } good := by
  subst hgood
  simp only [Dev.expressB, h]
  rfl

/-- What hearing the rest of an early flit's slot leaves: sequence, acknowledgement and state of the link, ports, units that
compute, and all registers but the counts of corrected symbols. -/
structure EarlyHeard (p : Nat) (a b : Dev) : Prop where
  early : (b.link p).early = none
  lstate : (b.link p).lstate = (a.link p).lstate
  nakPending : (b.link p).nakPending = (a.link p).nakPending
  rxExpect : (b.link p).rxExpect = (a.link p).rxExpect
  txNext : (b.link p).txNext = (a.link p).txNext
  replayList : (b.link p).replayList = (a.link p).replayList
  port : ∀ q, b.port q = a.port q
  regs : sameRegsBut corrRegs a b
  compute : sameCompute a b

theorem EarlyHeard.settled {p : Nat} {a b c : Dev} (h : EarlyHeard p a b) (k : Settled p b c) : EarlyHeard p a c := by
  obtain ⟨⟨rx, tx, due, out, klink⟩, kports, kregs, kctxs, ktiles, khbm⟩ := k
  obtain ⟨hctxs, htiles, hhbm⟩ := h.compute
  refine ⟨?_, ?_, ?_, ?_, ?_, ?_, fun q => ?_, sameRegsBut_trans h.regs (sameRegsBut_of_regs kregs), hctxs.trans kctxs,
    htiles.trans ktiles, hhbm.trans khbm⟩
  · rw [klink, h.early]
  · rw [klink, h.lstate]
  · rw [klink, h.nakPending]
  · rw [klink, h.rxExpect]
  · rw [klink, h.txNext]
  · rw [klink, h.replayList]
  · simp only [Dev.port, kports]
    exact h.port q

theorem Dev.earlyHeard_heard (d : Dev) (p : Nat) (x : RxSlot) (sig idle : Signal) (good : Bool)
    (h : (d.port p).rxSteer = none) : EarlyHeard p d (d.earlyHeard p x sig idle good) := by
  simp only [Dev.earlyHeard]
  generalize hcut : d.updLink p _ = e
  have hlink : e.link p = { d.link p with early := none, scrRx := (d.rxDecodeB p sig).2 } := by simp [← hcut]
  have hport (q : Nat) : e.port q = d.port q := by simp [← hcut]
  have hnoted : Noted p e (match (d.rxDecodeB p sig).1 with
      | some r => (e.slotNote p x (spareOps (d.port p).rxMap idle)).countCorr p r.2
      | none => e.slotNote p x (spareOps (d.port p).rxMap idle)) := by
    have hnote := e.slotNote_noted p x (spareOps (d.port p).rxMap idle) (by rw [hport]; exact h)
    split
    · exact hnote.countCorr _
    · exact hnote
  generalize (match (d.rxDecodeB p sig).1 with
      | some r => (e.slotNote p x (spareOps (d.port p).rxMap idle)).countCorr p r.2
      | none => e.slotNote p x (spareOps (d.port p).rxMap idle)) = n at hnoted ⊢
  obtain ⟨⟨v, c, av, an, nlink⟩, -, nport, nregs, nrest⟩ := hnoted
  rw [hlink] at nlink
  have hheard : EarlyHeard p d n := by
    refine ⟨by rw [nlink], by rw [nlink], by rw [nlink], by rw [nlink], by rw [nlink], by rw [nlink],
      fun q => (nport q).trans (hport q), sameRegsBut_trans (sameRegsBut_of_regs ?_) nregs, ?_⟩
    · simp [← hcut]
    · rw [nrest, ← hcut]
      exact ⟨rfl, rfl, rfl⟩
  have hsettled := hheard.settled (n.settleEarly_settled p good (earlyFlit x (d.rxDecodeB p sig).1))
  split
  · exact hsettled
  · exact (hsettled.settled (Dev.updLink_settled _ p _ ⟨_, _, _, _, rfl⟩)).settled ((Dev.updCore_coreOnly _ _).settled p)

/-- A bad codeword B (R101, R112). -/
theorem Dev.expressB_bad (d : Dev) (p : Nat) (sig idle : Signal) (x : RxSlot) (h : (d.link p).early = some x)
    (hsteer : (d.port p).rxSteer = none) (hb : (d.rxDecodeB p sig).1 = none) (hpend : (d.link p).nakPending = false) :
    ((d.expressB p sig idle).link p).early = none ∧ ((d.expressB p sig idle).link p).nakPending = true ∧
      ((d.expressB p sig idle).link p).nakDue = some (d.link p).rxExpect ∧
      ((d.expressB p sig idle).link p).rxExpect = (d.link p).rxExpect ∧
      (d.expressB p sig idle).rawF .PORT_FEC_UNCORR_CNT 0 p 0 = up1 (d.rawF .PORT_FEC_UNCORR_CNT 0 p 0) ∧
      (d.expressB p sig idle).fd F.FLT_STATUS_LINK_ERR = 1 ∧ (∀ q, (d.expressB p sig idle).port q = d.port q) ∧
      sameCompute d (d.expressB p sig idle) := by
  have heard := d.earlyHeard_heard p x sig idle false hsteer
  rw [d.expressB_some p sig idle x false h (by simp [hb])]
  generalize d.earlyHeard p x sig idle false = e at heard ⊢
  rw [e.rxBody_lost p _ false (.inr (by simp [hb])) (heard.nakPending.trans hpend)]
  obtain ⟨llink, -, hfec, -, hflag, -, lports, lrest⟩ := e.slotLost_spec p
  generalize e.slotLost p = g at llink hfec hflag lports lrest ⊢
  refine ⟨by rw [llink]; exact heard.early, by rw [llink], by rw [llink, heard.rxExpect], by rw [llink]; exact heard.rxExpect,
    ?_, hflag, fun q => ?_, ?_⟩
  · rw [hfec, heard.regs _ _ _ _ (by decide)]
  · simp only [Dev.port, lports]
    exact heard.port q
  · rw [lrest]
    exact heard.compute

/-- The expected flit, its credits taken; it was delivered early (R101, R112). -/
theorem Dev.rxBody_early (d : Dev) (p : Nat) (x : RxSlot) (haOk : x.aOk = true) (hb : x.b = .ok)
    (hcrc : x.flit.hcrc = hcrcOf x.flit)
    (hlack : subMod 4096 (x.flit.lack.toNat + 1) (subMod 4096 (d.link p).txNext (d.link p).replayList.length) = 0)
    (hst : (d.link p).lstate = .active) (hseq : x.flit.lseq.toNat = (d.link p).rxExpect) :
    ((d.rxBody p x true).link p).early = (d.link p).early ∧
      ((d.rxBody p x true).link p).rxExpect = ((d.link p).rxExpect + 1) % 4096 ∧
      ((d.rxBody p x true).link p).nakPending = false ∧ (d.rxBody p x true).ports = d.ports ∧
      sameCompute d (d.rxBody p x true) := by
  rw [(d.rxBody_good p x true haOk hb hcrc hlack hst).1 hseq]
  refine ⟨?_, ?_, ?_, ?_, ?_⟩
  iterate 3 simp [Dev.takeCredit, Dev.seqTaken, Dev.linkSettle, hst]
  · simp [Dev.takeCredit, Dev.seqTaken, Dev.linkSettle]
  · simp [sameCompute, Dev.takeCredit, Dev.seqTaken, Dev.linkSettle]

/-- A good codeword B of the expected flit (R101, R112). -/
theorem Dev.expressB_good (d : Dev) (p : Nat) (sig idle : Signal) (x : RxSlot) (syms pos : List Nat) (f : Flit)
    (h : (d.link p).early = some x) (hsteer : (d.port p).rxSteer = none) (hb : (d.rxDecodeB p sig).1 = some (syms, pos))
    (hf : f = earlyFlit x (some (syms, pos))) (haOk : x.aOk = true) (hcrc : f.hcrc = hcrcOf f)
    (hseq : f.lseq.toNat = (d.link p).rxExpect) (hst : (d.link p).lstate = .active)
    (hlack : subMod 4096 (f.lack.toNat + 1) (subMod 4096 (d.link p).txNext (d.link p).replayList.length) = 0) :
    ((d.expressB p sig idle).link p).early = none ∧
      ((d.expressB p sig idle).link p).rxExpect = ((d.link p).rxExpect + 1) % 4096 ∧
      ((d.expressB p sig idle).link p).nakPending = false ∧ (∀ q, (d.expressB p sig idle).port q = d.port q) ∧
      sameCompute d (d.expressB p sig idle) := by
  have heard := d.earlyHeard_heard p x sig idle true hsteer
  rw [d.expressB_some p sig idle x true h (by simp [hb, ← hf, hcrc])]
  generalize d.earlyHeard p x sig idle true = e at heard ⊢
  rw [hb, ← hf]
  obtain ⟨bearly, bexp, bpend, bports, bctxs, btiles, bhbm⟩ := e.rxBody_early p { x with b := .ok, flit := f } haOk rfl hcrc
    (by rw [heard.txNext, heard.replayList]; exact hlack) (heard.lstate.trans hst) (hseq.trans heard.rxExpect.symm)
  obtain ⟨hctxs, htiles, hhbm⟩ := heard.compute
  refine ⟨bearly.trans heard.early, by rw [← heard.rxExpect]; exact bexp, bpend, fun q => ?_, hctxs.trans bctxs,
    htiles.trans btiles, hhbm.trans bhbm⟩
  rw [← heard.port q]
  exact congrArg (fun t => tblGet PortSt.reset t q) bports

end Sys2Proof.Machine
end

section
/-! Link layer: alignment, doze and early flits together (03: R90, R112, R115, R124, R125; 14: R526). -/

namespace Sys2Proof.Machine

/-- A command that the host I/O die carries out, unless the device is held in reset. -/
theorem hostDone_of_running (f : Dev → Dev) (s : State) (h : s.dev.inReset = false) :
    hostDone f s = .next { s with dev := f s.dev } := by
  simp [hostDone, done, State.onDev, h]

/-- A missed marker, as a row of the device. -/
theorem Dev.markerRx_missed (d : Dev) (p lane gap : Nat) (blk : Block)
    (h : ∀ m, acceptMarker blk = some m → m.lane.toNat ≠ lane ∨ m.rstr = true) :
    d.markerRx p lane gap blk = d.updLink p fun l => l.markerMissed lane := by
  have hnone : ((acceptMarker blk).filter fun m => m.lane.toNat == lane && !m.rstr) = none := by
    rw [Option.filter_eq_none_iff]
    intro m hm
    rcases h m hm with hl | hr
    · simp [hl]
    · simp [hr]
  simp [Dev.markerRx, hnone]

/-- A marker of the lane, as a row of the device. -/
theorem Dev.markerRx_taken (d : Dev) (p lane gap : Nat) (blk : Block) (m : Marker) (hm : acceptMarker blk = some m)
    (hlane : m.lane.toNat = lane) (hrstr : m.rstr = false) :
    d.markerRx p lane gap blk =
      d.updLink p fun l => (l.markerTaken (d.port p).width lane gap m.mcount.toNat).relocked := by
  simp [Dev.markerRx, hm, Option.filter_some, hlane, hrstr]

/-- Settles O44: one lemma per row says what the row is when its condition holds; markers sent and slots heard are steps of
one link, and an entry's abort leaves its request completed. -/
theorem linksAlignDozeAndSettle : Obligations.LinksAlignDozeAndSettle := by
  unfold Obligations.LinksAlignDozeAndSettle
  rintro s p l x rfl rfl
  refine ⟨fun hcore => ⟨fun lane gap blk => ⟨fun hmiss hlen => ?missed, fun m g hm hlane hrstr hgap hmark hg => ?taken⟩,
    fun hst => ⟨fun hacc hsel => ?request, fun hacc hreq => ?answer,
      fun hack hcur hlen hsel hnak hcut hreq hs2 hup htx hrx hsteer => ?lastAnswer⟩,
    fun hreq hstep => ?unanswered,
    fun e hreq hstep hcur he => ⟨fun htries hst hup => ?again, fun htries hpend => ?third⟩,
    fun hst hwake hup => ?relock, fun sig idle hearly => ?noEarly,
    fun e sig idle hearly hsteer => ⟨fun hb hpend => ?badB,
      fun m syms pos f hb hm hf haOk hcrc hseq hst hlack => ?goodB⟩⟩,
    fun hrun hst hwake heng hcoreDom => ?wake⟩
  case missed =>
    refine ⟨_, coreDone_of_coreUp _ s hcore, ?_⟩
    obtain ⟨hmisses, hgood, haligned, hlst⟩ := (s.dev.link p.val).markerMissed_spec lane.val
    rw [s.dev.markerRx_missed p.val lane.val gap blk hmiss, Dev.updLink_link_same]
    exact ⟨hmisses, hgood, haligned, hlst, s.dev.sameLinksBut_updLink p.val _, rfl⟩
  case taken =>
    subst hgap hg
    refine ⟨_, coreDone_of_coreUp _ s hcore, ?_⟩
    obtain ⟨hgood, hmisses, hscr, haligned⟩ := (s.dev.link p.val).markerTaken_relocked_spec (s.dev.port p.val).width lane.val
      m.mcount.toNat hmark
    rw [s.dev.markerRx_taken p.val lane.val 6473 blk m hm hlane hrstr, Dev.updLink_link_same]
    refine ⟨hgood, hmisses, hscr, fun h => ?_, fun hall => ?_, s.dev.sameLinksBut_updLink p.val _, rfl⟩
    · rw [haligned, h, Bool.true_or]
    · rw [haligned, Bool.or_eq_true, List.all_eq_true]
      exact .inr fun i hi => by simpa using hall i (List.mem_range.mp hi)
  case request =>
    refine ⟨_, coreDone_of_coreUp _ s hcore, ?_⟩
    rw [s.dev.dozeReqRx_acts p.val hst hacc hsel]
    exact ⟨by simp [Dev.lcUse], fun q hq => by simp [Dev.lcUse, Dev.updLink_link_other _ _ _ _ hq], rfl⟩
  case answer =>
    obtain ⟨m, scr, blk, ms, ⟨hout, hlink, hlinks, hrest⟩, hlen, hall⟩ := (s.dev.lcUse p.val).enterDoze_sends p.val
    have hused : (s.dev.lcUse p.val).link p.val = { s.dev.link p.val with lcCount := 0 } := by simp [Dev.lcUse]
    rw [hused] at hlink
    refine ⟨_, ms, coreDone_of_coreUp _ s hcore, ?_⟩
    rw [s.dev.dozeAckRx_acts p.val hst hacc hreq]
    refine ⟨by rw [hlink], by rw [hlink], by rw [hlink], by rw [hlink], by rw [hlink], by rw [hlink], by rw [hlink], hout,
      hlen, hall, fun q hq => (hlinks q hq).trans (s.dev.sameLinksBut_updLink p.val _ q hq), hrest⟩
  case lastAnswer =>
    obtain ⟨hleft, flinks, fctxs, ftiles, fhbm⟩ := s.dev.txFlit_lastAck p.val hack hcur hlen hsel hs2 htx
      (s.dev.lcDue_lastAck p.val hack hnak hcut hreq htx hrx hsteer)
    refine ⟨_, coreDone_of_coreUp _ s hcore, ?_⟩
    rw [s.dev.txBoundary_lastAck p.val hup hst hack htx hleft]
    generalize s.dev.txFlit p.val = a at flinks fctxs ftiles fhbm ⊢
    obtain ⟨m, scr, blk, ms, ⟨-, hlink, hlinks, hrest⟩, -⟩ := a.enterDoze_sends p.val
    generalize a.enterDoze p.val = b at hlink hlinks hrest ⊢
    refine ⟨by rw [hlink], by rw [hlink], fun q hq => (hlinks q hq).trans (flinks q hq), ?_⟩
    rw [hrest]
    exact ⟨fctxs, ftiles, fhbm⟩
  case unanswered =>
    obtain ⟨hlink, hlinks, hregs, hrest⟩ := (s.dev.dozeNak_step p.val).updLink (f := fun l => { l with dozeTries := 0 }) rfl
    refine ⟨_, coreDone_of_coreUp _ s hcore, ?_⟩
    rw [s.dev.dozeTimeout_ends p.val hreq hstep]
    exact ⟨hlink, by rw [Dev.updLink_rawF, Dev.dozeNak_rawF_same], hregs, hlinks, hrest⟩
  case again =>
    obtain ⟨hlink, hlinks, -, hrest⟩ := (s.dev.dozeNak_step p.val).updLink (f := fun l => { l with dozeReq := true }) rfl
    refine ⟨_, coreDone_of_coreUp _ s hcore, ?_⟩
    rw [s.dev.dozeTimeout_asks p.val e hreq hstep hcur he htries hst hup]
    exact ⟨hlink, by rw [Dev.updLink_rawF, Dev.dozeNak_rawF_same], hlinks, hrest⟩
  case third =>
    obtain ⟨-, -, -, hrest⟩ := (s.dev.dozeNak_step p.val).updLink (f := fun l => { l with dozeTries := 0 }) rfl
    refine ⟨_, coreDone_of_coreUp _ s hcore, ?_⟩
    rw [s.dev.dozeTimeout_aborts p.val e hreq hstep hcur he htries]
    generalize (s.dev.dozeNak p.val).updLink p.val _ = a at hrest ⊢
    obtain ⟨hover, hdone⟩ := a.entryAbort_spec 2 p.val e (by rw [hrest]; exact hcur) (by rw [hrest]; exact hpend)
    exact ⟨hover, hdone.of_rings (by rw [hrest]) (fun h => by rw [hrest]; rfl) fun _ => rfl⟩
  case relock =>
    refine ⟨_, coreDone_of_coreUp _ s hcore, ?_⟩
    rw [s.dev.dozeRelock_acts p.val hst hwake hup]
    obtain ⟨⟨-, -, -, -, hout, -⟩, -⟩ := s.dev.toTraining_spec p.val (portLinked_of_portUp hup)
    exact ⟨s.dev.toTraining_retrained p.val (portLinked_of_portUp hup), hout⟩
  case noEarly =>
    exact (coreDone_of_coreUp _ s hcore).trans (by rw [s.dev.expressB_none p.val sig idle hearly])
  case badB =>
    exact ⟨_, coreDone_of_coreUp _ s hcore, s.dev.expressB_bad p.val sig idle e hearly hsteer hb hpend⟩
  case goodB =>
    subst hm
    exact ⟨_, coreDone_of_coreUp _ s hcore, s.dev.expressB_good p.val sig idle e syms pos f hearly hsteer hb hf haOk hcrc
      hseq hst hlack⟩
  case wake =>
    refine ⟨_, hostDone_of_running _ s hrun, ?_⟩
    rw [s.dev.wakeDetect_relocks p.val hst hwake heng hcoreDom, Dev.updLink_link_same]
    exact ⟨rfl, s.dev.sameLinksBut_updLink p.val _, rfl⟩

end Sys2Proof.Machine
end

section
/-! Queues behind a port that goes down (05: R212, R213, R214; 17: R590): held, resumed, flushed. -/

namespace Sys2Proof.Machine

/-! ### What a flush leaves of the ports (R215) -/

theorem Dev.foldl_ports {α : Type} (f : Dev → α → Dev) (hf : ∀ d x, (f d x).ports = d.ports) (l : List α) (d : Dev) :
    (l.foldl f d).ports = d.ports := by
  induction l generalizing d with
  | nil => rfl
  | cons x l ih => exact (ih (f d x)).trans (hf d x)

theorem CoreOnly.ports_eq {a b : Dev} (h : CoreOnly a b) : b.ports = a.ports := h.sideFrame.ports

theorem FaultFrame.ports_eq {a b : Dev} (h : FaultFrame a b) : b.ports = a.ports := by
  obtain ⟨⟨hports, -⟩, -⟩ := h
  exact hports.symm

theorem FaultFrame.link_eq {a b : Dev} (h : FaultFrame a b) (p : Nat) : b.link p = a.link p := by
  obtain ⟨⟨-, hlinks, -⟩, -⟩ := h
  simp only [Dev.link, hlinks]

theorem FaultFrame.queue_eq {a b : Dev} (h : FaultFrame a b) (p : Nat) : b.queue p = a.queue p := by
  simp only [Dev.queue, h.queues]

@[simp] theorem Dev.setCells_ports (d : Dev) (p q : Nat) (l : List QCell) : (d.setCells p q l).ports = d.ports := rfl

@[simp] theorem Dev.putBack_ports (d : Dev) (p : Nat) (c : TxSel) : (d.putBack p c).ports = d.ports := rfl

@[simp] theorem Dev.dropCopy_ports (d : Dev) (id : Nat) : (d.dropCopy id).ports = d.ports :=
  (d.dropCopy_coreOnly id).ports_eq

@[simp] theorem Dev.mirrorQ_ports (d : Dev) (point p q : Nat) (c : QCell) (reason : Nat) :
    (d.mirrorQ point p q c reason).ports = d.ports := by
  unfold Dev.mirrorQ Dev.mirror
  split <;> rfl

@[simp] theorem Dev.pdnDrop_ports (d : Dev) (p q : Nat) (c : QCell) : (d.pdnDrop p q c).ports = d.ports := by
  simp [Dev.pdnDrop]

@[simp] theorem Dev.holeNotice_ports (d : Dev) (g : Nat) (c : QCell) : (d.holeNotice g c).ports = d.ports := by
  unfold Dev.holeNotice
  split <;> rfl

@[simp] theorem Dev.unselect_ports (d : Dev) (p : Nat) : (d.unselect p).ports = d.ports := by
  refine (Dev.foldl_ports _ (fun d c => ?_) _ _).trans (Dev.updLink_ports d p _)
  split
  · exact d.putBack_ports p c
  · split
    · exact d.dropCopy_ports c.cell.id
    · rfl

theorem Dev.dropS2_ports (d : Dev) (hit : S2Wait → Bool) (f : Dev → S2Wait → Dev)
    (hf : ∀ d w, (f d w).ports = d.ports) : (d.dropS2 hit f).ports = d.ports := by
  refine (Dev.foldl_ports _ (fun d w => (hf _ w).trans ?_) _ _).trans (Dev.updCore_ports d _)
  split <;> rfl

/-- The cells of queue q of port p are discarded. -/
theorem Dev.dropCells_ports (d : Dev) (p q : Nat) :
    (((d.queue p).cells q).foldl (fun d c => (d.pdnDrop p q c).holeNotice (p / 8) c) (d.setCells p q [])).ports = d.ports :=
  (Dev.foldl_ports _ (fun d c => by simp) _ _).trans (d.setCells_ports p q [])

/-! ### What a flush makes of the queues and the link (R212, R657) -/

/-- A port whose link ended keeps nothing for replay; the port itself stays in its state. -/
theorem Dev.flush_spec (d : Dev) (p : Nat) (h : linkGoesOn (d.port p).state = false) :
    ((d.flush p).queue p).pdn = .flushing ∧ ((d.flush p).queue p).timer = false ∧
      ((d.flush p).link p).replayList = [] ∧ (d.flush p).ports = d.ports := by
  unfold Dev.flush
  extract_lets a b c cells e l f g
  have hports : e.ports = d.ports := calc
    e.ports = c.ports := (CoreOnly.foldl _ (fun d id => d.copyDone_coreOnly id) cells c).ports_eq
    _ = b.ports := b.dropS2_ports _ _ fun d w => d.pdnDrop_ports p 2 w.cell
    _ = a.ports := Dev.foldl_ports _ (fun d q => d.dropCells_ports p q) _ a
    _ = d.ports := d.unselect_ports p
  have hends : linkGoesOn (e.port p).state = false := by rw [Dev.port, hports]; exact h
  have hfault := g.faultAll_faultFrame (g.liveCtxs.filter fun c => g.ctxDepends c p) 0xF9
  rw [hfault.queue_eq, hfault.link_eq, hfault.ports_eq]
  simp [g, f, hends, hports]

/-! ### Held and active again (R212, R213) -/

/-- The queues of a port that can send again. -/
def QueueSt.resumed (t : QueueSt) : QueueSt := { t with pdn := .active, timer := false, noHold := false }

/-- The queues of a port that is down, with a hold timer and the cap in force (R212, R214). -/
def QueueSt.holding (t : QueueSt) (cap : Nat) : QueueSt := { t with pdn := .held, timer := true, cap := cap, noHold := false }

/-- A port that can send is not down. -/
theorem Dev.portDown_of_canSend (d : Dev) (p : Nat) (h : d.canSend p = true) : portDown (d.port p).state = false := by
  simp only [Dev.canSend, Bool.and_eq_true] at h
  cases hst : (d.port p).state <;> simp [hst, portUp, portDown] at h ⊢

theorem Dev.canSend_of_down (d : Dev) (p : Nat) (h : (d.port p).state = .down) : d.canSend p = false := by
  simp [Dev.canSend, h, portUp]

/-- With nothing selected for a boundary there is nothing to put back. -/
theorem Dev.unselect_nothing (d : Dev) (p : Nat) (h : (d.link p).txSel = []) :
    d.unselect p = d.updLink p fun l => { l with txSel := [] } := by
  simp [Dev.unselect, h]

theorem Dev.queuesResume_acts (d : Dev) (p : Nat) (hsend : d.canSend p = true) (hheld : (d.queue p).pdn = .held) :
    d.queuesResume p = d.updQueue p (·.resumed) := by
  simp [Dev.queuesResume, hsend, hheld, QueueSt.resumed]

theorem Dev.queuesHeld_holds (d : Dev) (p : Nat) (hdown : (d.port p).state = .down) (hact : (d.queue p).pdn = .active)
    (hhold : d.fd F.QOS_PDN_CFG_HOLD p ≠ 0) (hsel : (d.link p).txSel = []) :
    d.queuesHeld p =
      (d.updLink p fun l => { l with txSel := [] }).updQueue p (·.holding (d.fd F.QOS_PDN_CFG_HOLD_CAP p)) := by
  simp [Dev.queuesHeld, hdown, portDown, hact, d.unselect_nothing p hsel, hhold, QueueSt.holding]

theorem Dev.queuesHeld_resumes (d : Dev) (p : Nat) (hsend : d.canSend p = true) (hheld : (d.queue p).pdn = .held) :
    d.queuesHeld p = d.updQueue p (·.resumed) := by
  simp [Dev.queuesHeld, d.portDown_of_canSend p hsend, d.queuesResume_acts p hsend hheld]

theorem Dev.holdExpiry_resumes (d : Dev) (p : Nat) (hsend : d.canSend p = true) (hheld : (d.queue p).pdn = .held)
    (htimer : (d.queue p).timer = true) : d.holdExpiry p = d.updQueue p (·.resumed) := by
  simp [Dev.holdExpiry, hheld, htimer, hsend, d.queuesResume_acts p hsend hheld]

theorem Dev.holdExpiry_flushes (d : Dev) (p : Nat) (hsend : d.canSend p = false) (hheld : (d.queue p).pdn = .held)
    (htimer : (d.queue p).timer = true) : d.holdExpiry p = d.flush p := by
  simp [Dev.holdExpiry, hheld, htimer, hsend]

theorem Dev.flushComplete_resumes (d : Dev) (p : Nat) (hflush : (d.queue p).pdn = .flushing) (hcells : d.heldCells p = 0)
    (hsend : d.canSend p = true) : d.flushComplete p = d.updQueue p (·.resumed) := by
  simp [Dev.flushComplete, hflush, hcells, hsend, QueueSt.resumed]

theorem Dev.flushComplete_holds (d : Dev) (p : Nat) (hflush : (d.queue p).pdn = .flushing) (hcells : d.heldCells p = 0)
    (hsend : d.canSend p = false) (hfence : d.fd F.FLT_FENCE_LEVEL p = 0) (hhold : d.fd F.QOS_PDN_CFG_HOLD p ≠ 0) :
    d.flushComplete p = d.updQueue p (·.holding (d.fd F.QOS_PDN_CFG_HOLD_CAP p)) := by
  have htimer : (d.fd F.QOS_PDN_CFG_HOLD p == 0) = false := beq_eq_false_iff_ne.mpr hhold
  simp [Dev.flushComplete, hflush, hcells, hsend, hfence, htimer, QueueSt.holding]

/-! ### The obligation -/

/-- Settles O25: each row is one case of `queuesHeld`, `holdExpiry` or `flushComplete`; what a flush leaves is
`Dev.flush_spec`. -/
theorem queuesBehindADownPort : Obligations.QueuesBehindADownPort := by
  intro s p hcore
  have hrow (f : Dev → Dev) : coreDone f s = .next { s with dev := f s.dev } := coreDone_of_coreUp f s hcore
  refine ⟨fun hdown hact hsel hhold => ?held, fun hsend hheld c hc => ?resumed, fun hdown hheld htimer => ?flushes,
    fun hflush hcells => ⟨fun hsend => ?flushed, fun hsend hfence hhold => ?again⟩⟩
  case held =>
    refine ⟨_, hrow _, ?_⟩
    rw [s.dev.queuesHeld_holds p.val hdown hact hhold hsel]
    refine ⟨by rw [Dev.updQueue_queue_same]; rfl, ?_, rfl⟩
    rw [Dev.updQueue_link_at, Dev.updLink_link_same, ← hsel]
  case resumed =>
    obtain rfl | ⟨rfl, htimer⟩ := hc
    · exact (hrow _).trans (by rw [s.dev.queuesHeld_resumes p.val hsend hheld]; rfl)
    · exact (hrow _).trans (by rw [s.dev.holdExpiry_resumes p.val hsend hheld htimer]; rfl)
  case flushes =>
    refine ⟨_, hrow _, ?_⟩
    rw [s.dev.holdExpiry_flushes p.val (s.dev.canSend_of_down p.val hdown) hheld htimer]
    exact s.dev.flush_spec p.val (by rw [hdown]; rfl)
  case flushed =>
    exact (hrow _).trans (by rw [s.dev.flushComplete_resumes p.val hflush hcells hsend]; rfl)
  case again =>
    exact (hrow _).trans (by rw [s.dev.flushComplete_holds p.val hflush hcells hsend hfence hhold]; rfl)

end Sys2Proof.Machine
end

section
/-! Buffers, shaping, telemetry and Mirror (05: R190, R198, R202, R204, R208, R209): a row of each serves one item. -/

namespace Sys2Proof.Machine

/-! ### What a change of the capture units leaves -/

@[simp] theorem Dev.updCapt_updCapt (d : Dev) (f g : CaptSt → CaptSt) :
    (d.updCapt f).updCapt g = d.updCapt fun c => g (f c) := rfl

@[simp] theorem Dev.updCapt_primary (d : Dev) (f : CaptSt → CaptSt) : (d.updCapt f).primary = d.primary := rfl

@[simp] theorem Dev.updCapt_teleFull (d : Dev) (f : CaptSt → CaptSt) (h : Nat) :
    (d.updCapt f).teleFull h = d.teleFull h := rfl

@[simp] theorem Dev.updCapt_teleRecord (d : Dev) (f : CaptSt → CaptSt) (p n : Nat) :
    (d.updCapt f).teleRecord p n = d.teleRecord p n := rfl

@[simp] theorem Dev.updCapt_mirrRecord (d : Dev) (f : CaptSt → CaptSt) (e : MirrEvt) (n : Nat) :
    (d.updCapt f).mirrRecord e n = d.mirrRecord e n := rfl

@[simp] theorem Dev.updCapt_captureRing (d : Dev) (f : CaptSt → CaptSt) (a n : Nat) :
    (d.updCapt f).captureRing a n = d.captureRing a n := rfl

@[simp] theorem Dev.updCapt_d2dFailed (d : Dev) (f : CaptSt → CaptSt) (k : Nat) :
    (d.updCapt f).d2dFailed k = d.d2dFailed k := rfl

/-! ### CREDIT_ARBITRATION (R185, R190) -/

/-- A credit that is served leaves the arbitration and returns to its port. -/
theorem Dev.giveCell_credit (d : Dev) (w : WaitCr) (h : d.core.waiting = [w]) :
    d.giveCell (.credit w) = (d.updLink w.port fun l => { l with due := updAt l.due w.vl (· + 1) }).updCore fun c => { c with
      waiting := [], backed := c.backed + 1 } := by
  simp [Dev.giveCell, Dev.returnCredit, Dev.updCore, Dev.updLink, Dev.link, h]

/-- The arbitration serves a credit that alone waits where there is slack. -/
theorem Dev.creditArb_serves (d : Dev) (k : WaitKey) (w : WaitCr) (hw : d.waiters = [(k, .credit w)])
    (hwait : d.core.waiting = [w]) (harb : d.core.arb < 4) (hslack : 1 ≤ d.slack) :
    d.creditArb = (d.updLink w.port fun l => { l with due := updAt l.due w.vl (· + 1) }).updCore fun c => { c with
      waiting := [], backed := c.backed + 1, arb := d.core.arb + 1 } := by
  obtain ⟨left, hleft⟩ : ∃ left, 4 - d.core.arb = left + 1 := ⟨3 - d.core.arb, by omega⟩
  have hcount : 4 - left = d.core.arb + 1 := by omega
  simp [Dev.creditArb, hw, hleft, Dev.serve, nextWaiter, hslack, d.giveCell_credit w hwait, hcount, Dev.updCore]

/-- It waits on where there is no slack and nothing to push out. -/
theorem Dev.creditArb_waits (d : Dev) (k : WaitKey) (w : WaitCr) (hw : d.waiters = [(k, .credit w)])
    (harb : d.core.arb < 4) (hslack : d.slack < 1) (hpush : d.pushOut k.rank = none) : d.creditArb = d := by
  obtain ⟨left, hleft⟩ : ∃ left, 4 - d.core.arb = left + 1 := ⟨3 - d.core.arb, by omega⟩
  have hcount : 4 - (left + 1) = d.core.arb := by omega
  simp [Dev.creditArb, hw, hleft, Dev.serve, nextWaiter, Int.not_le.mpr hslack, hpush, hcount, Dev.updCore]

/-! ### SHAPER_TICK (R198, R200) -/

theorem tblGet_refill (rate : Nat → Nat) (t : Tbl Nat) (k : Nat) :
    tblGet 0 (refill rate t) k = tblGet 0 t k - rate k := tblGet_tblMap 0 _ t k (Nat.zero_sub _)

theorem Dev.shaperTick_queue (d : Dev) (p : Nat) : d.shaperTick.queue p = { d.queue p with
    spent := refill (fun q => d.fd F.QOS_SHAPE_RATE p q) (d.queue p).spent
    mspent := refill (fun m => d.fd F.QOS_METER_RATE p m) (d.queue p).mspent } :=
  tblGet_tblMap QueueSt.reset (fun p (t : QueueSt) => { t with
    spent := refill (fun q => d.fd F.QOS_SHAPE_RATE p q) t.spent
    mspent := refill (fun m => d.fd F.QOS_METER_RATE p m) t.mspent }) d.queues p rfl

theorem Dev.shaperTick_spent (d : Dev) (p q : Nat) :
    tblGet 0 (d.shaperTick.queue p).spent q = tblGet 0 (d.queue p).spent q - d.fd F.QOS_SHAPE_RATE p q := by
  rw [Dev.shaperTick_queue, tblGet_refill]

/-! ### TELEMETRY_SAMPLE and TELEMETRY_RECORD_WRITE (R202, R204, R497) -/

/-- The records of a sample: one for each masked port, in order (R202, R205). -/
def Dev.teleRecords (d : Dev) : List TeleRec :=
  ((List.range 256).filter fun p => bitAt (d.fd F.QOS_TELE_PMASK_PORTS (p / 64)) (p % 64)).map fun p =>
    { port := p, bytes := d.teleRecord p d.capt.sampleNo }

theorem Dev.teleSample_takes (d : Dev) (h : Nat) (hen : d.bit F.QOS_TELE_CFG_EN = true) (hrun : d.scopeHeld 5 0 = false)
    (hdue : (if d.time.locked then d.fabricCycle else d.cycle) % 2 ^ d.teleK = 0) (hnone : d.capt.tele = [])
    (hprim : d.primary = some h) (hroom : d.teleFull h = false) :
    d.teleSample = d.updCapt fun c => { c with sampleNo := (d.capt.sampleNo + 1) % m32, tele := d.teleRecords } := by
  simp [Dev.teleSample, hen, hrun, hdue, hprim, hroom, hnone, Dev.teleRecords]

/-- b is a but for what the block has sent. -/
def OutOnly (a b : Dev) : Prop := b = { a with out := b.out }

theorem OutOnly.trans {a b c : Dev} (h : OutOnly a b) (k : OutOnly b c) : OutOnly a c := Eq.trans k (by rw [h])

theorem Dev.hostWrite_outOnly (d : Dev) (h addr : Nat) (bytes : List (BitVec 8)) : OutOnly d (d.hostWrite h addr bytes) := by
  simp only [Dev.hostWrite]
  split <;> rfl

theorem Dev.sbWrite_outOnly (d : Dev) (h off : Nat) (bytes : List (BitVec 8)) : OutOnly d (d.sbWrite h off bytes) := by
  simp only [Dev.sbWrite]
  split
  · rfl
  · exact d.hostWrite_outOnly h _ bytes

/-- The first pending record leaves, sent to the primary's ring, whose producer index advances. -/
theorem Dev.teleWrite_sends (d : Dev) (h : Nat) (r : TeleRec) (rest : List TeleRec) (htele : d.capt.tele = r :: rest)
    (hprim : d.primary = some h) (hen : d.fdF F.HOST_TELE_CFG_EN h 0 0 = 1) (hroom : d.teleFull h = false)
    (hlink : d.d2dFailed 2 = false) :
    ∃ e, OutOnly d e ∧ d.teleWrite = (e.updCapt fun c => { c with tele := rest, teleLost := false }).updFn h fun f =>
      { f with teleProd := (f.teleProd + 1) % m32 } := by
  simp only [Dev.teleWrite, htele, hprim, hen, hroom, hlink, beq_self_eq_true, Bool.not_false, Bool.and_self, if_true]
  exact ⟨_, (d.hostWrite_outOnly h _ _).trans (Dev.sbWrite_outOnly _ h _ _), rfl⟩

/-! ### MIRROR_CAPTURE (R207, R208, R209) -/

/-- The filters that match an event. -/
def Dev.mirrHits (d : Dev) (e : MirrEvt) : List Nat := (List.range 8).filter fun f => d.mirrMatch f e

theorem Dev.mirrHits_none (d : Dev) (e : MirrEvt) (h : ∀ f, f < 8 → d.mirrMatch f e = false) : d.mirrHits e = [] :=
  List.filter_eq_nil_iff.mpr fun f hf => by simp [h f (List.mem_range.mp hf)]

theorem Dev.mirrHits_first (d : Dev) (e : MirrEvt) (h0 : d.mirrMatch 0 e = true)
    (h : ∀ f, 1 ≤ f → f < 8 → d.mirrMatch f e = false) : d.mirrHits e = [0] := by
  have hrest : (List.range' 1 7).filter (fun f => d.mirrMatch f e) = [] := List.filter_eq_nil_iff.mpr fun f hf => by
    obtain ⟨h1, h8⟩ := List.mem_range'_1.mp hf
    simp [h f h1 h8]
  exact (List.filter_cons_of_pos (p := fun f => d.mirrMatch f e) h0).trans (congrArg _ hrest)

/-- An event of the core cycle that still runs waits (R209). -/
theorem Dev.mirrCapture_waits (d : Dev) (e : MirrEvt) (rest : List MirrEvt) (hevts : d.capt.evts = e :: rest)
    (hnow : d.cycle ≤ e.cycle) : d.mirrCapture = d := by
  simp [Dev.mirrCapture, hevts, hnow]

theorem Dev.mirrCapture_passes (d : Dev) (e : MirrEvt) (rest : List MirrEvt) (hevts : d.capt.evts = e :: rest)
    (hover : e.cycle < d.cycle) (hhits : d.mirrHits e = []) :
    d.mirrCapture = d.updCapt fun c => { c with evts := rest } := by
  unfold Dev.mirrHits at hhits
  simp [Dev.mirrCapture, hevts, Nat.not_le.mpr hover, hhits]

theorem Dev.mirrCapture_records (d : Dev) (e : MirrEvt) (rest : List MirrEvt) (f : Nat) (hevts : d.capt.evts = e :: rest)
    (hover : e.cycle < d.cycle) (hhits : d.mirrHits e = [f])
    (hsample : at_ 0 d.capt.filtCnt f % 2 ^ d.fd F.MIRR_FLT_CFG_SAMPLE f = 0) (hroom : d.capt.mirrQ.length < 256)
    (hfree : d.capt.took ≠ d.cycle + 1) :
    d.mirrCapture = d.updCapt fun c => { c with
      evts := rest, filtCnt := updAt c.filtCnt f (· + 1), took := d.cycle + 1
      mirrQ := c.mirrQ ++ [{ bytes := d.mirrRecord e f }] } := by
  unfold Dev.mirrHits at hhits
  simp [Dev.mirrCapture, hevts, Nat.not_le.mpr hover, hhits, hsample, hfree, hroom]

/-! ### MIRROR_RECORD_WRITE (R209, R211, R448) -/

/-- A command of the core die that reaches memory, while the die acts. -/
theorem coreMem_of_coreUp {f : Mem → Dev → Mem × Dev} {s : State} {m : Mem} {d : Dev} (h : s.dev.coreUp = true)
    (hf : f s.mem s.dev = (m, d)) : coreMem f s = .next (State.mk s.pending m d) := by
  simp [coreMem, doneMem, State.onMem, h, hf]

/-- A record that its HBM ring takes is stored at the write pointer, which advances. -/
theorem mirrWrite_stores (m : Mem) (d : Dev) (r : MirrRec) (rest : List MirrRec) (n k : Nat)
    (hq : d.capt.mirrQ = r :: rest) (hdest : d.fd F.MIRR_CTRL_DEST = 0) (hmode : d.fd F.MIRR_CTRL_MODE = 1)
    (hn : n = ringLog2 0 (d.fd F.MIRR_CTRL_SIZE_LOG2))
    (hring : d.captureRing (d.fd F.MIRR_BASE_BASE / 2 ^ n * 2 ^ n) n = some k) (hdie : d.d2dFailed k = false) :
    mirrWrite m d =
      (m.hbmWrite (d.fd F.MIRR_BASE_BASE / 2 ^ n * 2 ^ n + 64 * (d.fd F.MIRR_WPTR_WPTR % 2 ^ (n - 6)))
        (bytesPut r.bytes 42 (leBytes 1 (byteAt r.bytes 42 ||| b2n d.capt.mirrLost <<< 1))),
       (d.updCapt fun c => { c with mirrQ := rest, mirrLost := false }).fdSet F.MIRR_WPTR_WPTR 0 0
        (d.fd F.MIRR_WPTR_WPTR + 1)) := by
  subst hn
  simp [mirrWrite, hq, hdest, hmode, hring, hdie]

/-! ### The obligation -/

/-- Settles O24: each row by the lemma of what it does with the one item it serves. -/
theorem creditsBucketsAndRecords : Obligations.CreditsBucketsAndRecords := by
  intro s hcore
  have hrow (f : Dev → Dev) : coreDone f s = .next { s with dev := f s.dev } := coreDone_of_coreUp f s hcore
  refine ⟨fun k w hw hwait harb => ⟨fun hslack => ?served, fun hslack hpush => ?waits⟩, ?refilled,
    fun h hen hrun hdue hnone hprim hroom => ?sampled, fun h r rest htele hprim hen hroom hlink => ?sent,
    fun e rest hevts => ⟨fun hnow => ?early, fun hover hmiss => ?passed,
      fun hover hfirst hothers hsample hroom hfree => ?captured⟩,
    fun r rest n k hq hdest hmode hn hring hdie => ?stored⟩
  case served =>
    refine ⟨_, hrow _, ?_⟩
    rw [s.dev.creditArb_serves k w hw hwait harb hslack]
    exact ⟨by simp, fun q hq => by simp [Dev.updLink_link_other _ _ _ _ hq], rfl⟩
  case waits => exact (hrow _).trans (by rw [s.dev.creditArb_waits k w hw harb hslack hpush])
  case refilled => exact ⟨_, hrow _, fun p q => s.dev.shaperTick_spent p.val q.val, rfl⟩
  case sampled => exact (hrow _).trans (by rw [s.dev.teleSample_takes h hen hrun hdue hnone hprim hroom]; rfl)
  case sent =>
    refine ⟨_, hrow _, ?_⟩
    obtain ⟨e, hout, hsent⟩ := s.dev.teleWrite_sends h r rest htele hprim hen hroom hlink
    rw [hsent, hout]
    exact ⟨rfl, rfl, by rw [Dev.updFn_fn_same]; rfl, rfl⟩
  case early => exact (hrow _).trans (by rw [s.dev.mirrCapture_waits e rest hevts hnow])
  case passed =>
    exact (hrow _).trans (by rw [s.dev.mirrCapture_passes e rest hevts hover (s.dev.mirrHits_none e hmiss)])
  case captured =>
    exact (hrow _).trans (by rw [s.dev.mirrCapture_records e rest 0 hevts hover (s.dev.mirrHits_first e hfirst hothers)
      hsample hroom hfree])
  case stored =>
    exact ⟨_, coreMem_of_coreUp hcore (mirrWrite_stores s.mem s.dev r rest n k hq hdest hmode hn hring hdie),
      Dev.fdSet_fd_same _ F.MIRR_WPTR_WPTR 0 0 _ (by decide) (by decide),
      sameRegsBut_setRawF _ .MIRR_WPTR 0 0 0 _ (by simp), rfl⟩

end Sys2Proof.Machine
end
